-- ==== Sys2Proof/Word.lean ====
section
/-! DEFINITION. Word.lean: the widths the manual treats as bits (R7, R47) and nothing else. -/

namespace Sys2Proof

/-- A byte of a register, a message or a memory. -/
abbrev Byte := BitVec 8

/-- A 32-bit register or residue-word container (R47). -/
abbrev Word := BitVec 32

/-- A 64-bit quantity, such as a word of Mortar's operand memory (R328). -/
abbrev Dword := BitVec 64

end Sys2Proof
end

