-- ==== Sys2Proof/Syntax.lean ====
section
/-! DEFINITION. Syntax.lean: the commands of the block, one constructor for each row of spec/opcode_table.json (R<n> of the row
in the constructor's docstring), and the small types of their operands. A station, an engine and a function are named by
number as the manual numbers them (R13, Table 1.3, R276); what comes from outside the module (bytes a host read returns, a
frame, a reading, the outcome of a check) is an operand. -/

namespace Sys2Proof

/-- What a read of host memory brought: the bytes, or nothing when it failed at the host link (R286, R195). -/
abbrev HostRead := Option (List Byte)

/-- What the read of a key page, or of its header, from a peer or the host brought after the link's own recovery and one retry
(R161). -/
inductive PageRead where
  | bytes (b : List Byte)
  /-- Poisoned data (R207, R311). -/
  | poisoned
  /-- The read failed twice. -/
  | failed
  deriving DecidableEq, Repr

/-- The outcome of a residue check over one pass, stage, step, round or block (R56, R57). `groups` is the Griddle
column-group mask: the union of the groups that failed in either attempt (Table 22.4); 0 for other engines. -/
inductive Verdict where
  /-- Every compare agreed. -/
  | pass
  /-- The first attempt failed and the replay passed. -/
  | replayed (groups : BitVec 16)
  /-- The first attempt and the replay failed. -/
  | failed (groups : BitVec 16)
  deriving DecidableEq, Repr

/-- What the SECDED code of a Pantry found while an engine read its rows (R181). -/
inductive EccEvent where
  /-- No error. -/
  | clean
  /-- So many single-bit errors, corrected. -/
  | corrected (n : Nat)
  /-- An uncorrectable word in a physical bank and row. -/
  | uncorrectable (bank : BitVec 5) (row : BitVec 11)
  deriving DecidableEq, Repr

/-- What the Band unit at the receiving end of an I/O-die engine's host path found over the chunks of one transfer (R319, R322). -/
inductive PathEvent where
  /-- Every chunk passed. -/
  | clean
  /-- A chunk came twice. -/
  | repeated
  /-- A chunk's CRC failed, and failed again once it had been read from the host again. -/
  | crcFail (again : Bool)
  /-- A chunk was missing. -/
  | gap
  deriving DecidableEq, Repr

/-- One access to a 64-byte unit at its memory controller (R203). -/
inductive UnitAccess where
  /-- A read of the unit. -/
  | read
  /-- A write of the whole unit, byte 0 first. -/
  | write (bytes : List Byte)
  /-- A write smaller than the unit, at an offset: a read-modify-write (R203). -/
  | modify (off : Nat) (bytes : List Byte)
  deriving DecidableEq, Repr

/-- The register a BND_ read names (R324, R325). -/
inductive BndReg where
  | runLo | runHi | resLo | resHi | anext | astat | ctrl | status
  deriving DecidableEq, Repr

/-- The register of a monitor unit that a write names (R379). -/
inductive MonReg where
  | cfga | cfgb | cfgc
  deriving DecidableEq, Repr

/-- Which reference was lost (R360). -/
inductive RefLoss where
  /-- REFCLK100. -/
  | refclk100
  /-- The root PLL lost lock. -/
  | pllUnlock
  /-- FAB_REFCLK of an I/O die. -/
  | fab (die : Fin 4)
  deriving DecidableEq, Repr

/-- The instructions of the JTAG TAP (R374), and the reset input JTAG_TRST_N held low. -/
inductive TapIns where
  | bypass | idcode | samplePreload | extest | trstLow
  deriving DecidableEq, Repr

/-- A capability record as capability flits and CAP frames carry it (R299, R312). -/
structure CapRecord where
  /-- MODID of the module the record describes. -/
  modid : BitVec 10
  /-- Fabric protocol version, major in [7:4], minor in [3:0]. -/
  ver : Byte
  /-- 64-bit feature word. -/
  feat : Dword
  /-- Firmware version. -/
  fwver : Word
  deriving DecidableEq, Repr

/-- The registers that REGISTER_WRITE reaches: every register with a writable field and no row of its own (R6). -/
inductive RegTarget where
  /-- GRD_BYPASS of a Griddle (R84). -/
  | grdBypass (st : Fin 16) (g : Fin 2)
  /-- FNL_KPM_BASE_LO (R147), the same in every Funnel. -/
  | fnlKpmBaseLo (st : Fin 16)
  /-- FNL_KPM_BASE_HI (R147). -/
  | fnlKpmBaseHi (st : Fin 16)
  /-- PAN_REGION (R168, R169). -/
  | panRegion (st : Fin 16)
  /-- PAN_WIN0 to PAN_WIN3 (R170). -/
  | panWin (st : Fin 16) (w : Fin 4)
  /-- MEM_RGNA of an entry, in the memory block of a compute die (R201). -/
  | memRgnA (r : Fin 16)
  /-- MEM_RGNB of an entry (R201). -/
  | memRgnB (r : Fin 16)
  /-- MEM_MARGIN of a stack (R215). -/
  | memMargin (site : Fin 8)
  /-- MBX_BASE0 to MBX_BASE3 of a function (R278). -/
  | mbxBase (f : Fin 64) (k : Fin 4)
  /-- A 32-bit word of a function's MSI-X table: vector, word of its entry (Table 16.2). -/
  | msixTable (f : Fin 64) (vec : Fin 32) (k : Fin 4)
  /-- BND_STATUS of a Band unit: OVF is W1C (R324). -/
  | bndStatus (u : Fin 4)
  /-- MRT_STATUS: CFGERR and QOVF are W1C. -/
  | mrtStatus
  /-- MRT_SUBMIT0 to MRT_SUBMIT6; MRT_SUBMIT7 is the row MRT_SUBMIT (R330). -/
  | mrtSubmit (k : Fin 7)
  /-- CLK_STATUS: FABLOSS, UNLOCK and REFLOSS are W1C (R360). -/
  | clkStatus
  /-- PWR_CAP (R364). -/
  | pwrCap
  /-- Any write to a read-only register of a Band unit: BND_RES_LO and BND_RES_HI (R324). -/
  | bndRes (u : Fin 4)
  /-- BND_ASTAT with CLR 0 (R324). -/
  | bndAstat (u : Fin 4)
  /-- Configuration space: VF Enable (R273, R278). -/
  | cfgVfEnable
  /-- Configuration space: the size of BAR2 in GiB, of the VFs or of the PF (R276). -/
  | cfgBar2 (vf : Bool)
  /-- Configuration space: the power state of a function, D0 or D3hot (R273). -/
  | cfgPower (f : Fin 64)
  /-- Configuration space: Maximum payload size, as a code (R273). -/
  | cfgMps
  /-- Configuration space: Maximum read request size, as a code (R273). -/
  | cfgMrrs
  /-- FAB_ETH of a port (R313). -/
  | fabEth (p : Fin 14)
  /-- FAB_ETHPCP of a port (R313). -/
  | fabEthPcp (p : Fin 14)
  /-- Any register all of whose fields are read-only or reserved: the write is ignored (Table 0.6, R6, R277). -/
  | readOnly
  deriving DecidableEq, Repr

/-- The commands: one constructor for each row of the operation table. -/
inductive Instr where
  /-- NOP (R227). -/
  | nop (st : Fin 16)
  /-- END (R227). -/
  | endCode (st : Fin 16)
  /-- CSET (R239). -/
  | cset (st : Fin 16)
  /-- CMPSET (R239). -/
  | cmpset (st : Fin 16)
  /-- CLOAD (R239). -/
  | cload (st : Fin 16) (ecc : EccEvent)
  /-- CLOAD_WORD_ARRIVAL (R226). -/
  | cloadWordArrival (st : Fin 16)
  /-- CSTORE (R239). -/
  | cstore (st : Fin 16)
  /-- LOOP (R227). -/
  | loop (st : Fin 16)
  /-- MLOAD (R241). -/
  | mload (st : Fin 16)
  /-- AHDR (R242). -/
  | ahdr (st : Fin 16) (ecc : EccEvent)
  /-- ESYNC (R243). -/
  | esync (st : Fin 16) (q : Fin 22)
  /-- XFER (R184). -/
  | xfer (st : Fin 16) (e : Fin 4)
  /-- XGATHER (R244). -/
  | xgather (st : Fin 16) (e : Fin 4)
  /-- FSTREAM (R245). -/
  | fstream (st : Fin 16)
  /-- FCLOSE (R151). -/
  | fclose (st : Fin 16)
  /-- GLOAD (R69). -/
  | gload (st : Fin 16) (g : Fin 2) (ecc : EccEvent)
  /-- GMAC (R75). -/
  | gmac (st : Fin 16) (g : Fin 2) (ecc : EccEvent)
  /-- GKEYDOT (R82). -/
  | gkeydot (st : Fin 16) (g : Fin 2) (ecc : EccEvent)
  /-- WNTT (R88). -/
  | wntt (st : Fin 16) (g : Fin 2) (ecc : EccEvent)
  /-- SADD (R94). -/
  | sadd (st : Fin 16) (g : Fin 2) (ecc : EccEvent)
  /-- SSUB (R94). -/
  | ssub (st : Fin 16) (g : Fin 2) (ecc : EccEvent)
  /-- SNEG (R94). -/
  | sneg (st : Fin 16) (g : Fin 2) (ecc : EccEvent)
  /-- SADDC (R95). -/
  | saddc (st : Fin 16) (g : Fin 2) (ecc : EccEvent)
  /-- SNEGM (R94). -/
  | snegm (st : Fin 16) (g : Fin 2) (ecc : EccEvent)
  /-- SMUL (R95). -/
  | smul (st : Fin 16) (g : Fin 2) (ecc : EccEvent)
  /-- SMULC (R94). -/
  | smulc (st : Fin 16) (g : Fin 2) (ecc : EccEvent)
  /-- SMAC (R246). -/
  | smac (st : Fin 16) (g : Fin 2) (ecc : EccEvent)
  /-- SRESCALE (R94). -/
  | srescale (st : Fin 16) (g : Fin 2) (ecc : EccEvent)
  /-- SMODSW (R99). -/
  | smodsw (st : Fin 16) (g : Fin 2) (ecc : EccEvent)
  /-- SSUM (R96). -/
  | ssum (st : Fin 16) (g : Fin 2) (ecc : EccEvent)
  /-- SLOAD (R97). -/
  | sload (st : Fin 16) (g : Fin 2) (ecc : EccEvent)
  /-- KREFRESH (R106). -/
  | krefresh (st : Fin 16) (k : Fin 8) (ecc : EccEvent)
  /-- CXPOSE (R120). -/
  | cxpose (st : Fin 16) (ecc : EccEvent)
  /-- CAUTO (R124). -/
  | cauto (st : Fin 16) (ecc : EccEvent)
  /-- CPERM (R126). -/
  | cperm (st : Fin 16) (ecc : EccEvent)
  /-- BEXTRACT (R137). -/
  | bextract (st : Fin 16) (ecc : EccEvent)
  /-- BPACK (R140). -/
  | bpack (st : Fin 16) (ecc : EccEvent)
  /-- DISPATCH (R221). -/
  | dispatch (st : Fin 16)
  /-- ENGINE_ISSUE (R222). -/
  | engineIssue (st : Fin 16) (q : Fin 22)
  /-- INSTRUCTION_SIGNAL (R58): the queue, and what the Pantry's code found in the rows that the signal reads (R181). -/
  | instructionSignal (st : Fin 16) (q : Fin 22 × EccEvent)
  /-- REMOTE_SIGNAL (R230). -/
  | remoteSignal (src : Fin 16) (dst : Fin 16)
  /-- STALE_ANSWER (R258). -/
  | staleAnswer (st : Fin 16)
  /-- GRIDDLE_PASS (R76). -/
  | griddlePass (st : Fin 16) (g : Fin 2) (v : Verdict) (ecc : EccEvent)
  /-- GKEYDOT_BLOCK (R83): the check's verdict, and what the Pantry's code found in the digit rows (R181). -/
  | gkeydotBlock (st : Fin 16) (g : Fin 2) (v : Verdict × EccEvent)
  /-- WHISK_STAGE (R92). -/
  | whiskStage (st : Fin 16) (g : Fin 2) (v : Verdict)
  /-- KETTLE_ROTATION_START (R109). -/
  | kettleRotationStart (st : Fin 16) (k : Fin 8) (stall : Nat)
  /-- KETTLE_ELEMENT_STEP (R111): the check's verdict, and the ACLK that the step waited for key material (R110). -/
  | kettleElementStep (st : Fin 16) (k : Fin 8) (v : Verdict × Nat)
  /-- KEY_SWITCH_ROUND (R102): the check's verdict, and the ACLK that the round waited for key material (R110). -/
  | keySwitchRound (st : Fin 16) (k : Fin 8) (v : Verdict × Nat)
  /-- BEXTRACT_PASS (R139). -/
  | bextractPass (st : Fin 16)
  /-- DESCRIPTOR_FETCH (R191). -/
  | descriptorFetch (st : Fin 16) (e : Fin 4) (ecc : EccEvent)
  /-- DESCRIPTOR_START (R188). -/
  | descriptorStart (st : Fin 16) (e : Fin 4)
  /-- CHUNK_ISSUE (R189): the engine, and what the Pantry's code found in the chunk's bytes (R181). -/
  | chunkIssue (st : Fin 16) (e : Fin 4 × EccEvent)
  /-- CHUNK_LAND (R189). -/
  | chunkLand (st : Fin 16) (e : Fin 4) (c : Nat) (ecc : EccEvent)
  /-- XFER_SIGNAL (R194). -/
  | xferSignal (st : Fin 16) (e : Fin 4)
  /-- HOST_DMA_CHUNK (R322). -/
  | hostDmaChunk (st : Fin 16) (e : Fin 4) (c : Nat) (bytes : List Byte) (crc : Word) (alive : Word)
  /-- STREAM_OPEN (R151). -/
  | streamOpen (st : Fin 16)
  /-- PRECHECK_DONE (R158). -/
  | precheckDone (st : Fin 16) (j : Nat) (hdrs : List PageRead)
  /-- MAP_CACHE_FILL (R150). -/
  | mapCacheFill (st : Fin 16) (m : Nat)
  /-- PAGE_ARRIVAL (R159). -/
  | pageArrival (st : Fin 16) (j : Nat) (remote : PageRead)
  /-- KEY_ROW_LAUNCH (R157). -/
  | keyRowLaunch (grp : Fin 64) (wait : List Nat)
  /-- REMOTE_PANTRY_ACCESS (R180): the target, and what its Pantry's code found in the bytes read (R181). -/
  | remotePantryAccess (src : Fin 16) (dst : Fin 16 × EccEvent)
  /-- WINDOW_ZEROING_DONE (R172). -/
  | windowZeroingDone (st : Fin 16) (w : Fin 4)
  /-- MEM_UNIT_ACCESS (R203). -/
  | memUnitAccess (ma : Nat) (acc : UnitAccess)
  /-- MEM_CRC_REREAD (R206). -/
  | memCrcReread (ma : Nat) (fails : Fin 4)
  /-- SIEVE_READ (R210). -/
  | sieveRead (st : Fin 16) (e : Fin 4) (ecc : EccEvent)
  /-- BAR2_ACCESS (R291). -/
  | bar2Access (f : Fin 64) (off : Nat) (len : Nat) (wr : HostRead)
  /-- STACK_TEMPERATURE_READING (R208). -/
  | stackTemperatureReading (site : Fin 8) (t : Nat)
  /-- MEM_ZEROING_DONE (R213). -/
  | memZeroingDone (ok : Bool)
  /-- MARGIN_POINT_TEST (R215). -/
  | marginPointTest (site : Fin 8) (pass : Bool)
  /-- JOB_ADMISSION (R265). -/
  | jobAdmission (j : Nat) (img : HostRead) (btab : HostRead) (ticket : HostRead)
  /-- STATION_PART_COMPLETE (R227). -/
  | stationPartComplete (st : Fin 16)
  /-- COMMIT_POINT (R267). -/
  | commitPoint (j : Nat)
  /-- JOB_TIME_LIMIT (R266). -/
  | jobTimeLimit (j : Nat)
  /-- JOB_ABORT_CLEANUP (R268). -/
  | jobAbortCleanup (j : Nat)
  /-- MBX_CTRL_WRITE (R278). -/
  | mbxCtrlWrite (f : Fin 64) (val : Word)
  /-- DOORBELL (R282). -/
  | doorbell (f : Fin 64) (val : Word)
  /-- REQUEST_ENTRY_FETCH (R282). -/
  | requestEntryFetch (f : Fin 64) (entry : HostRead)
  /-- MBX_CQ_HEAD_WRITE (R281). -/
  | mbxCqHeadWrite (f : Fin 64) (val : Word)
  /-- COMPLETION_ENTRY_WRITE (R284). -/
  | completionEntryWrite (f : Fin 64)
  /-- VECTOR_0_TIMER (R295). -/
  | vector0Timer (f : Fin 64)
  /-- BAR0_BAD_ACCESS (R277). -/
  | bar0BadAccess (f : Fin 64) (off : Nat) (isRead : Bool)
  /-- DEVICE_INFO (R287). -/
  | deviceInfo (f : Fin 64)
  /-- FUNC_CONFIG (R288). -/
  | funcConfig (f : Fin 64)
  /-- POWER_CAP (R364). -/
  | powerCap (f : Fin 64)
  /-- RESET_WARM (R293). -/
  | resetWarm (f : Fin 64)
  /-- RESET_COLD (R367). -/
  | resetCold (f : Fin 64)
  /-- STATION_RESET (R369). -/
  | stationReset (f : Fin 64)
  /-- MEM_MARGIN (R214). -/
  | memMargin (f : Fin 64)
  /-- MON_SNAPSHOT (R380). -/
  | monSnapshot (f : Fin 64)
  /-- SESSION_OPEN (R288). -/
  | sessionOpen (f : Fin 64)
  /-- SESSION_CLOSE (R255). -/
  | sessionClose (f : Fin 64)
  /-- SESSION_MODLIST (R254). -/
  | sessionModlist (f : Fin 64) (dma : HostRead)
  /-- SESSION_QUERY (R286). -/
  | sessionQuery (f : Fin 64)
  /-- KEYSET_REGISTER (R289). -/
  | keysetRegister (f : Fin 64) (dma : HostRead) (objs : List HostRead)
  /-- KEYSET_VERIFY (R290). -/
  | keysetVerify (f : Fin 64) (dma : HostRead)
  /-- KEYSET_ACTIVATE (R290). -/
  | keysetActivate (f : Fin 64)
  /-- KEYSET_RETIRE (R38). -/
  | keysetRetire (f : Fin 64)
  /-- BUF_ALLOC (R291). -/
  | bufAlloc (f : Fin 64)
  /-- BUF_FREE (R291). -/
  | bufFree (f : Fin 64)
  /-- BUF_COMMIT (R262). -/
  | bufCommit (f : Fin 64)
  /-- BUF_QUERY (R291). -/
  | bufQuery (f : Fin 64)
  /-- BUF_MAP (R291). -/
  | bufMap (f : Fin 64)
  /-- BUF_UNMAP (R291). -/
  | bufUnmap (f : Fin 64)
  /-- BUF_DMA (R291): the bytes that the host holds, and what the Band unit found on the path (R322). -/
  | bufDma (f : Fin 64) (dma : HostRead × PathEvent)
  /-- JOB_SUBMIT (R292). -/
  | jobSubmit (f : Fin 64)
  /-- JOB_ABORT (R269). -/
  | jobAbort (f : Fin 64)
  /-- JOB_QUERY (R269). -/
  | jobQuery (f : Fin 64)
  /-- FW_STAGE (R352). -/
  | fwStage (f : Fin 64) (dma : HostRead)
  /-- FLASH_WRITE_DONE (R352). -/
  | flashWriteDone (ok : Bool)
  /-- FW_ACTIVATE (R353). -/
  | fwActivate (f : Fin 64)
  /-- FIRMWARE_ACTIVATION (R353). -/
  | firmwareActivation
  /-- DRAIN_TIMEOUT (R293). -/
  | drainTimeout
  /-- ATTEST (R357). -/
  | attest (f : Fin 64)
  /-- FAB_CONFIG (R298). -/
  | fabConfig (f : Fin 64)
  /-- FAB_STATUS (R286). -/
  | fabStatus (f : Fin 64)
  /-- FAB_EXPORT (R310). -/
  | fabExport (f : Fin 64)
  /-- FAB_UNEXPORT (R310). -/
  | fabUnexport (f : Fin 64)
  /-- PLDM_FIRMWARE_UPDATE (R354). -/
  | pldmFirmwareUpdate (image : HostRead)
  /-- PORT_TRAIN (R299). -/
  | portTrain (p : Fin 14)
  /-- CAP_EXCHANGE (R299). -/
  | capExchange (p : Fin 14) (rec : CapRecord)
  /-- MISMATCH_RETRY (R299). -/
  | mismatchRetry (p : Fin 14)
  /-- FLIT_RECEIVE (R301). -/
  | flitReceive (p : Fin 14) (flit : List Byte)
  /-- FLIT_REPLAY_TIMEOUT (R301). -/
  | flitReplayTimeout (p : Fin 14)
  /-- DATA (R306). -/
  | dataFrame (p : Fin 14) (frame : List Byte)
  /-- CREDIT (R305). -/
  | creditFrame (p : Fin 14) (frame : List Byte)
  /-- ACK (R306). -/
  | ackFrame (p : Fin 14) (frame : List Byte)
  /-- STALE (R309). -/
  | staleFrame (p : Fin 14) (frame : List Byte)
  /-- READ (R311). -/
  | readFrame (p : Fin 14) (frame : List Byte)
  /-- RDATA (R311). -/
  | rdataFrame (p : Fin 14) (frame : List Byte)
  /-- HOLD (R307). -/
  | holdFrame (p : Fin 14) (frame : List Byte)
  /-- CAP (R312). -/
  | capFrame (p : Fin 14) (frame : List Byte)
  /-- FRAME_RELAY (R312). -/
  | frameRelay (p : Fin 14) (frame : List Byte)
  /-- END_TO_END_RETRANSMIT (R307). -/
  | endToEndRetransmit (ses : Nat) (slot : Fin 8)
  /-- HOLD_TIMER (R315). -/
  | holdTimer
  /-- FRAME_HOLD_LIMIT (R315). -/
  | frameHoldLimit
  /-- ETHERNET_CAP_BROADCAST (R313). -/
  | ethernetCapBroadcast (p : Fin 14)
  /-- SEND_DATA_FRAME (R305). -/
  | sendDataFrame (st : Fin 16) (e : Fin 4)
  /-- BND_CTRL_WRITE (R324). -/
  | bndCtrlWrite (u : Fin 4) (val : Word)
  /-- BND_INIT (R324). -/
  | bndInit (u : Fin 4)
  /-- BND_FEED8 (R324). -/
  | bndFeed8 (u : Fin 4) (val : Word)
  /-- BND_FEED16 (R324). -/
  | bndFeed16 (u : Fin 4) (val : Word)
  /-- BND_FEED32 (R324). -/
  | bndFeed32 (u : Fin 4) (val : Word)
  /-- BND_RUN_WRITE (R325). -/
  | bndRunWrite (u : Fin 4) (hi : Bool) (val : Word)
  /-- BND_ANEXT_WRITE (R325). -/
  | bndAnextWrite (u : Fin 4) (val : Word)
  /-- BND_ACHK (R319). -/
  | bndAchk (u : Fin 4) (val : Word)
  /-- BND_ASTAT_CLR (R324). -/
  | bndAstatClr (u : Fin 4)
  /-- BND_RESULT_READ (R324). -/
  | bndResultRead (u : Fin 4) (reg : BndReg)
  /-- MRT_SUBMIT (R330). -/
  | mrtSubmit (val : Word)
  /-- MRT_CANCEL (R338). -/
  | mrtCancel (val : Word)
  /-- MRT_RESULT_READ (R337). -/
  | mrtResultRead
  /-- MRT_SLOT_WRITE (R329). -/
  | mrtSlotWrite (i : Fin 64) (val : Word)
  /-- MRT_MEM_WRITE (R329). -/
  | mrtMemWrite (w : Fin 8192) (val : Dword)
  /-- MORTAR_JOB_START (R336). -/
  | mortarJobStart
  /-- MORTAR_CHECK_PHASE_END (R333). -/
  | mortarCheckPhaseEnd
  /-- MORTAR_YIELD_POINT (R336). -/
  | mortarYieldPoint
  /-- MORTAR_JOB_END (R337). -/
  | mortarJobEnd
  /-- MORTAR_PROGRAM_LOAD (R327). -/
  | mortarProgramLoad
  /-- PERST_N_ASSERT (R275). -/
  | perstNAssert
  /-- COLD_BOOT (R345). -/
  | coldBoot
  /-- WATCHDOG_EXPIRY (R346). -/
  | watchdogExpiry
  /-- IMAGE_CONFIRM (R348). -/
  | imageConfirm
  /-- CONFIG_BLOCK_WRITE (R351). -/
  | configBlockWrite
  /-- HOT_RESET (R275). -/
  | hotReset
  /-- FUNCTION_LEVEL_RESET (R275). -/
  | functionLevelReset (f : Fin 64)
  /-- P1_POWER_UP (R363). -/
  | p1PowerUp
  /-- UNDERVOLTAGE_LOCKOUT (R362). -/
  | undervoltageLockout
  /-- THERMTRIP (R366). -/
  | thermtrip
  /-- REFERENCE_LOSS (R360). -/
  | referenceLoss (ref : RefLoss)
  /-- POWER_CAP_SAMPLE (R364). -/
  | powerCapSample (watts : Nat) (mv10 : Nat) (frac : Nat)
  /-- SMBUS_ALERT_RESPONSE (R373). -/
  | smbusAlertResponse
  /-- TAP_INSTRUCTION (R374). -/
  | tapInstruction (ins : TapIns)
  /-- MONITOR_SAMPLE (R377). -/
  | monitorSample (src : Nat) (inst : Nat) (v : Nat)
  /-- MON_CFG_WRITE (R379). -/
  | monCfgWrite (u : Fin 64) (reg : MonReg) (val : Word)
  /-- SNAPSHOT_FREEZE (R380). -/
  | snapshotFreeze
  /-- ERROR_LOG_WRITE (R383). -/
  | errorLogWrite
  /-- QUARANTINE_PASS (R385). -/
  | quarantinePass
  /-- CHKCNT_CLR (R61). -/
  | chkcntClr (st : Fin 16) (eng : Fin 12)
  /-- PAN_ECC_CLR (R181). -/
  | panEccClr (st : Fin 16)
  /-- MEM_ERRCNT_CLR (R206). -/
  | memErrcntClr (site : Fin 8)
  /-- MBX_CHKCNT_CLR (R283). -/
  | mbxChkcntClr (f : Fin 64)
  /-- FAB_LINKCNT_CLR (R302). -/
  | fabLinkcntClr (p : Fin 14)
  /-- FAB_FRMCNT_CLR (R303). -/
  | fabFrmcntClr (p : Fin 14)
  /-- REGISTER_WRITE (R6). -/
  | registerWrite (reg : RegTarget) (val : Word)
  /-- DIE_TEMPERATURE_READING (R373). -/
  | dieTemperatureReading (temps : List Nat)
  /-- PORT_SIGNAL_LOSS (R299). -/
  | portSignalLoss (p : Fin 14)
  /-- REFCLK100_PRESENT (R363). -/
  | refclk100Present
  /-- PFC_FRAME (R313). -/
  | pfcFrame (p : Fin 14) (prios : BitVec 8) (pause : Bool)
  /-- RESERVED_FTYPE_FRAME (R303). -/
  | reservedFtypeFrame (p : Fin 14) (frame : List Byte)
  deriving DecidableEq, Repr

end Sys2Proof
end

