-- ==== Sys2Proof/Machine/Bits.lean ====
section
/-! DEFINITION. Bits.lean: bit fields, byte order, two's complement and saturating counts, each said once (R7: little-endian). -/

namespace Sys2Proof.Machine

/-- The field of `w` bits of `x` whose lowest bit is `lo`. -/
def fld (x lo w : Nat) : Nat := x / 2 ^ lo % 2 ^ w

/-- One bit of `x`. -/
def bitAt (x i : Nat) : Bool := x / 2 ^ i % 2 == 1

/-- `x` as a two's-complement number of `w` bits (`x` below 2^w). -/
def signedOf (w x : Nat) : Int := if x < 2 ^ (w - 1) then (x : Int) else (x : Int) - (2 ^ w : Nat)

/-- The number that bytes spell, the first byte lowest (R7). -/
def leNat : List Byte → Nat
  | [] => 0
  | b :: bs => b.toNat + 256 * leNat bs

/-- The low `n` bytes of a number, lowest first (R7). -/
def natLe : Nat → Nat → List Byte
  | 0, _ => []
  | n + 1, x => BitVec.ofNat 8 x :: natLe n (x / 256)

/-- The number that bytes spell, the first byte highest: for the standards that fix that order. -/
def beNat (bs : List Byte) : Nat := leNat bs.reverse

/-- The low `n` bytes of a number, highest first. -/
def natBe (n x : Nat) : List Byte := (natLe n x).reverse

/-- `n` bytes of a list from an offset. -/
def slice (l : List Byte) (off n : Nat) : List Byte := (l.drop off).take n

/-- The number in the `n` bytes at an offset. -/
def field (l : List Byte) (off n : Nat) : Nat := leNat (slice l off n)

/-- The byte at an offset; 0 past the end. -/
def byteAt (l : List Byte) (off : Nat) : Byte := (l.drop off).headD 0

/-- Every byte of the range is zero. -/
def zeroAt (l : List Byte) (off n : Nat) : Bool := (slice l off n).all (· == 0)

/-- The list with `new` laid over it at an offset. -/
def splice (l : List Byte) (off : Nat) (new : List Byte) : List Byte := l.take off ++ new ++ l.drop (off + new.length)

/-- So many zero bytes. -/
def zeros (n : Nat) : List Byte := List.replicate n 0

/-- The list cut or filled with zero bytes to a length. -/
def padTo (n : Nat) (l : List Byte) : List Byte := l.take n ++ zeros (n - l.length)

/-- The 32-bit words of a byte list, each lowest byte first; a last part word is dropped. -/
def wordsOf : List Byte → List Word
  | a :: b :: c :: d :: t => (d ++ c ++ b ++ a : BitVec 32) :: wordsOf t
  | _ => []

/-- The bytes of 32-bit words, each lowest byte first. -/
def bytesOf : List Word → List Byte
  | [] => []
  | w :: t => natLe 4 w.toNat ++ bytesOf t

/-- The list cut into pieces of `n`, as many as `k`. -/
def chunked {α : Type} (n : Nat) : Nat → List α → List (List α)
  | 0, _ => []
  | k + 1, l => l.take n :: chunked n k (l.drop n)

/-- `n / d`, rounded up. -/
def ceilDiv (n d : Nat) : Nat := (n + d - 1) / d

/-- ceil(log2 x), for x at least 1. -/
def clog2 (x : Nat) : Nat := if x ≤ 1 then 0 else Nat.log2 (x - 1) + 1

/-- The bits that are set, lowest first. -/
def bitsSet (w x : Nat) : List Nat := (List.range w).filter (bitAt x)

/-- How many bits are set. -/
def popCount (w x : Nat) : Nat := (bitsSet w x).length

/-- Add to a count that saturates (Table 0.6's counts that say so). -/
def satAdd {w : Nat} (x : BitVec w) (n : Nat) : BitVec w := BitVec.ofNat w (min (x.toNat + n) (2 ^ w - 1))

/-- Add to a count that wraps. -/
def wrapAdd {w : Nat} (x : BitVec w) (n : Nat) : BitVec w := BitVec.ofNat w (x.toNat + n)

/-- A condition as a number. -/
def b2n (b : Bool) : Nat := if b then 1 else 0

/-- Change one entry of a vector. -/
def vupd {α : Type} {n : Nat} (v : Vector α n) (i : Fin n) (f : α → α) : Vector α n := v.set i (f v[i])

/-- Change one entry of a vector, named by a number; nothing when the number is beyond it. -/
def vupdN {α : Type} {n : Nat} (v : Vector α n) (i : Nat) (f : α → α) : Vector α n :=
  if h : i < n then v.set i (f v[i]) else v

/-- Change one entry of a list; nothing when the number is beyond it. -/
def lupd {α : Type} (l : List α) (i : Nat) (f : α → α) : List α := l.modify i f

/-- Every entry, or none where one is missing. -/
def allSome {α : Type} : List (Option α) → Option (List α)
  | [] => some []
  | none :: _ => none
  | some x :: t => (allSome t).map (x :: ·)

/-- The first test that fails, with its code: tests are listed in the order of R45. -/
def firstFault : List (Bool × Byte) → Option Byte
  | [] => none
  | (b, c) :: t => if b then some c else firstFault t

end Sys2Proof.Machine
end

