-- ==== Sys2Proof/Machine/Crc.lean ====
section
/-! DEFINITION. Crc.lean: the check values of Band (R317, R318), the CRC-16 of module memory (R205) and the classification of
alive counters (R319). -/

namespace Sys2Proof.Machine

/-- `n` shifts of a reflected CRC register towards bit 0 (R317). -/
def crcShift (poly : Nat) : Nat → Nat → Nat
  | 0, x => x
  | n + 1, x => crcShift poly n (if x % 2 = 1 then x / 2 ^^^ poly else x / 2)

/-- A reflected CRC register after one byte, its least significant bit first (R318). -/
def crcByte (poly run : Nat) (b : Byte) : Nat := crcShift poly 8 (run ^^^ b.toNat)

/-- A reflected CRC register after bytes in ascending order. -/
def crcBytes (poly run : Nat) (bs : List Byte) : Nat := bs.foldl (crcByte poly) run

/-- The reversed polynomials of Table 18.1. -/
def crc32cPoly : Nat := 0x82F63B78

/-- The reversed polynomial of CRC-64. -/
def crc64Poly : Nat := 0xC96C5795D7870F42

/-- CRC-32C (Table 18.1). -/
def crc32c (bs : List Byte) : Nat := crcBytes crc32cPoly 0xFFFFFFFF bs ^^^ 0xFFFFFFFF

/-- CRC-64 (Table 18.1). -/
def crc64 (bs : List Byte) : Nat := crcBytes crc64Poly 0xFFFFFFFFFFFFFFFF bs ^^^ 0xFFFFFFFFFFFFFFFF

/-- The CRC-32 of IEEE 802.3, the FCS of an Ethernet frame (R313, log entry 49). -/
def crc32 (bs : List Byte) : Nat := crcBytes 0xEDB88320 0xFFFFFFFF bs ^^^ 0xFFFFFFFF

/-- `n` shifts of the CRC-16 register, towards bit 15 (R205). -/
def crc16Shift : Nat → Nat → Nat
  | 0, x => x
  | n + 1, x => crc16Shift n (if x / 2 ^ 15 % 2 = 1 then (2 * x % 2 ^ 16) ^^^ 0x1021 else 2 * x % 2 ^ 16)

/-- CRC-16: polynomial 0x1021, not reflected, starting at 0xFFFF, no final XOR (R205). -/
def crc16 (bs : List Byte) : Nat := bs.foldl (fun x b => crc16Shift 8 (x ^^^ (b.toNat * 256))) 0xFFFF

/-- The classes of an alive value (R319). -/
inductive AliveClass where
  | pass | rep | gap
  deriving DecidableEq, Repr

/-- Classify a value of a `w`-bit alive counter against NEXT (R319). -/
def aliveClass (w next v : Nat) : AliveClass :=
  if v = next then .pass
  else if 1 ≤ (next + 2 ^ w - v) % 2 ^ w ∧ (next + 2 ^ w - v) % 2 ^ w ≤ 2 ^ (w - 1) then .rep
  else .gap

end Sys2Proof.Machine
end

