-- ==== Sys2Proof/Machine/Noise.lean ====
section
/-! DEFINITION. Noise.lean: noise bounds in the log domain (R40 to R44). Every power and logarithm is exact: an inequality
between 2^k and a power of an integer. -/

namespace Sys2Proof.Machine

/-- ceil(k × log2 v) for an integer v at least 1. -/
def ceilLog (k v : Nat) : Nat := clog2 (v ^ k)

/-- ceil(k × log2(a / b)) for a at least b, b at least 1. -/
def ceilLogQ (k a b : Nat) : Nat := clog2 (ceilDiv (a ^ k) (b ^ k))

/-- floor(k × log2(a / b)). -/
def floorLogQ (k a b : Nat) : Int :=
  if b ≤ a then (Nat.log2 (a ^ k / b ^ k) : Int) else - (ceilLogQ k b a : Int)

/-- log2 of a modulus as 16.16 fixed point, to 16 fractional bits, rounded to nearest (R43). -/
def log2Fix (q : Nat) : Nat := (Nat.log2 (q ^ (2 ^ 17)) + 1) / 2

/-- The 72 values of c(d) of R41: each the exact ceiling of 16 log2(1 + 2^(-d/16)). -/
def logaddTable : List Nat :=
  [16, 16, 16, 15, 15, 14, 14, 13, 13, 12, 12, 12, 11, 11, 11, 10, 10, 10, 9, 9, 9, 8, 8, 8, 7, 7, 7, 7, 7, 6, 6, 6, 6,
   5, 5, 5, 5, 5, 5, 4, 4, 4, 4, 4, 4, 4, 3, 3, 3, 3, 3, 3, 3, 3, 3, 3] ++ List.replicate 16 2

/-- c(d): 1 from 72 on (R41). -/
def logaddC (d : Nat) : Nat := logaddTable.getD d 1

/-- Adding variances (R41). -/
def logadd (a b : Nat) : Nat := min 0xFFFF (max a b + logaddC (max a b - min a b))

/-- A bound moved by a signed number of E units: V at most 1 is 0, results saturate at 0xFFFF, and a saturated input stays
saturated (R40). -/
def eAdd (e : Nat) (d : Int) : Nat := if 0xFFFF ≤ e then 0xFFFF else min 0xFFFF ((e : Int) + d).toNat

/-- The budget of a packed ciphertext at a SCALE: 32 × (s - 10), s rounded down to 1/16 (R42). -/
def packedBudget (scale : Nat) : Int := 2 * (scale / 4096 : Nat) - 320

/-- 32 × s in E units, rounded up (R41, Table 2.9). -/
def scale32 (scale : Nat) : Nat := ceilDiv scale 2048

/-- NOISE_MAX of a digit set and LEVEL (Table 2.8). -/
def noiseMax (psid level : Nat) : Nat :=
  if psid = 1 then 768 else if psid = 2 then 704 else if level = 1 then 1632 else 640

/-- The refresh entry limit of a digit set and LEVEL (Table 2.8). -/
def entryLimit (psid level : Nat) : Nat :=
  if psid = 1 then 765 else if psid = 2 then 686 else if level = 1 then 1606 else 614

/-- E_rs(N) = ceil(16 × log2((1 + 2N/3)/12)) (R43). -/
def eRescale (n : Nat) : Nat := ceilLogQ 16 (3 + 2 * n) 36

/-- ceil(16 × log2((1 + n·h)/12)) with h = 1/2 (R43). -/
def eSwitch (n : Nat) : Nat := ceilLogQ 16 (2 + n) 24

/-- The multiply rule of Table 2.9 for a relinearised product. -/
def eMulRelin (logn e1 s1 e2 s2 eks : Nat) : Nat :=
  let a := eAdd e1 (16 * logn + scale32 s2 : Nat)
  let b := eAdd e2 (16 * logn + scale32 s1 : Nat)
  logadd (logadd a b) (logadd (min 0xFFFF (e1 + e2)) eks)

/-- A sum of two bounds as variances multiply; a saturated input gives 0xFFFF (R40, R41). -/
def eMul (e1 e2 : Nat) : Nat := eAdd e1 (if 0xFFFF ≤ e2 then 0xFFFF else (e2 : Int))

end Sys2Proof.Machine
end

