-- ==== Sys2Proof/Machine/Mem.lean ====
section
/-! DEFINITION. Mem.lean: a byte memory in its one canonical form: addresses strictly rising, no byte equal to what an unlisted
address reads as. An unlisted address reads as 0: module memory is zeroed at a cold reset (R213) and a Pantry is scrubbed
to 0 (R182). -/

namespace Sys2Proof.Machine

/-- A sparse byte memory. -/
abbrev Mem := List Host.Cell

/-- What an address that the memory does not list reads as (R182, R213). -/
def Mem.unlisted : Byte := 0

/-- Read one byte. -/
def Mem.read : Mem → Nat → Byte
  | [], _ => Mem.unlisted
  | (k, b) :: t, a => if k = a then b else Mem.read t a

/-- Write one byte into the list, keeping addresses in rising order and listing no byte that reads as unlisted. -/
def Mem.write : Mem → Nat → Byte → Mem
  | [], a, b => if b = Mem.unlisted then [] else [(a, b)]
  | (k, c) :: t, a, b =>
    if k = a then (if b = Mem.unlisted then t else (a, b) :: t)
    else if a < k then (if b = Mem.unlisted then (k, c) :: t else (a, b) :: (k, c) :: t)
    else (k, c) :: Mem.write t a b

/-- Read bytes at consecutive addresses. -/
def Mem.readN (m : Mem) (a : Nat) : Nat → List Byte
  | 0 => []
  | n + 1 => m.read a :: Mem.readN m (a + 1) n

/-- Write bytes at consecutive addresses, the first at the lowest. -/
def Mem.writeN (m : Mem) (a : Nat) : List Byte → Mem
  | [] => m
  | b :: bs => Mem.writeN (m.write a b) (a + 1) bs

/-- Write zero to a range (R172, R182): no address of it stays listed. -/
def Mem.zeroRange (m : Mem) (a n : Nat) : Mem := m.filter (fun c => decide (c.1 < a ∨ a + n ≤ c.1))

/-- The canonical form of the addresses: strictly rising from a lower bound, and no listed byte reads as unlisted. -/
def Mem.wfFrom : Nat → Mem → Bool
  | _, [] => true
  | lo, (k, b) :: t => decide (lo ≤ k) && decide (b ≠ Mem.unlisted) && Mem.wfFrom (k + 1) t

/-- The canonical form holds. -/
def Mem.wf (m : Mem) : Bool := Mem.wfFrom 0 m

end Sys2Proof.Machine
end

