-- ==== Sys2Proof/Machine/Tab.lean ====
section
/-! DEFINITION. Tab.lean: a sparse table as an association list with rising keys. -/

namespace Sys2Proof.Machine

/-- A sparse table: keys with values, in rising order of the keys. -/
abbrev Tab (α : Type) := List (Nat × α)

/-- The entry at a key, if the table lists one. -/
def Tab.get? {α : Type} : Tab α → Nat → Option α
  | [], _ => none
  | (k, v) :: t, j => if k = j then some v else Tab.get? t j

/-- The entry at a key, or a default. -/
def Tab.getD {α : Type} (t : Tab α) (j : Nat) (d : α) : α := (Tab.get? t j).getD d

/-- Write an entry, keeping the keys in rising order. -/
def Tab.put {α : Type} : Tab α → Nat → α → Tab α
  | [], j, x => [(j, x)]
  | (k, v) :: t, j, x =>
    if k = j then (j, x) :: t else if j < k then (j, x) :: (k, v) :: t else (k, v) :: Tab.put t j x

/-- Remove an entry. -/
def Tab.del {α : Type} (t : Tab α) (j : Nat) : Tab α := t.filter (fun e => decide (e.1 ≠ j))

/-- Change an entry that the table lists. -/
def Tab.upd {α : Type} (t : Tab α) (j : Nat) (f : α → α) : Tab α := t.map (fun e => if e.1 = j then (e.1, f e.2) else e)

/-- The keys the table lists. -/
def Tab.keys {α : Type} (t : Tab α) : List Nat := t.map Prod.fst

end Sys2Proof.Machine
end

