-- ==== Sys2Proof/Machine/State.lean ====
section
/-! DEFINITION. State.lean: everything the spec gives the machine, as plain data, and the state after a cold reset.
Each field's docstring names the rule that gives it. Reset values are those of the register tables; a value the manual does
not give is a DESIGN CHOICE named in log entries 2 to 5. -/

namespace Sys2Proof.Machine

/-- The reasons a step can stop with a fault. -/
inductive Fault where
  /-- Raised by MEM_UNIT_ACCESS alone: the module address lies outside every valid region, and such an address is never
  issued to a controller (R201). Safe: the model stops where the machine has no such access. -/
  | noSuchModuleAddress
  deriving DecidableEq, Repr

/-- The reasons a command can be refused by the model. -/
inductive Refusal where
  /-- Raised by the dispatch alone, for a command that has no meaning yet. Safe: the model stops. -/
  | notModelled (mnemonic : String)
  deriving DecidableEq, Repr

/-! ## The module as sold (R1 to R4, R11, R12) -/

/-- The four populations of the package sites (Tables 0.1 and 1.1). With or without -S they give the eight parts (R1). -/
inductive Population where
  | m8l4 | m8l2 | m6l4 | m4l4
  deriving DecidableEq, Repr

/-- The grade: what assembly and test fixed. No step changes it (R3). -/
structure Grade where
  pop : Population
  /-- The -S suffix, with the two Griddles fused off at test: the first as 2 * station + instance, the second so many places after
  the next one, round the 32 (R2). -/
  off : Option (Fin 32 × Fin 31)
  deriving DecidableEq, Repr

/-- Bit s: site MSs holds a stack (Table 1.1). -/
def Grade.sites (g : Grade) : BitVec 8 :=
  match g.pop with
  | .m8l4 => 0xFF
  | .m8l2 => 0xFF
  | .m6l4 => 0x77
  | .m4l4 => 0x55

/-- Bit d: I/O die d is present (Tables 0.1 and 1.1). -/
def Grade.iodies (g : Grade) : BitVec 4 :=
  match g.pop with
  | .m8l2 => 0x3
  | _ => 0xF

/-- The -S suffix. -/
def Grade.sPart (g : Grade) : Bool := g.off.isSome

/-- The Griddles fused off, as 2 * station + instance: two on an -S part, none on another (R2). -/
def Grade.fused (g : Grade) : List Nat :=
  match g.off with
  | some x => [x.1.val, (x.1.val + 1 + x.2.val) % 32]
  | none => []

/-! ## Stations -/

/-- A MODTAB entry (Table 3.1, R50). -/
structure ModEntry where
  q : Nat
  k : Nat
  logn : Nat
  qchk : Nat
  mu : Nat
  psi : Nat
  psiInv : Nat
  ninv : Nat
  valid : Bool
  deriving DecidableEq, Repr

/-- An entry that is not loaded (VALID = 0). -/
def ModEntry.reset : ModEntry := ⟨0, 0, 0, 0, 0, 0, 0, 0, false⟩

/-- A comparator (R224). -/
structure Cmp where
  base : Word
  step : BitVec 16
  ctr : BitVec 5
  deriving DecidableEq, Repr

/-- Where an entry of an engine queue stands: not issued; issued, its operation not yet started; running. -/
inductive Phase where
  | waiting | issued | running
  deriving DecidableEq, Repr

/-- An output header an instruction has still to write before its signal (R80, R81). -/
structure PendHdr where
  /-- Window offset of the header row. -/
  off : Nat
  /-- The 64 header bytes as SET would write them. -/
  bytes : List Byte
  /-- HDRMODE MERGE. -/
  merge : Bool
  deriving DecidableEq, Repr

/-- An instruction in an engine queue (R221), with what dispatch sampled (R225, R229). -/
structure QEntry where
  /-- The instruction word (Table 13.5). -/
  iw : BitVec 128
  /-- Effective addresses of D0, D1, D2, XD and XE, sampled at dispatch. -/
  ea0 : Int
  ea1 : Int
  ea2 : Int
  eaX : Int
  eaE : Int
  /-- Comparator values of wait selectors 0 and 1, sampled at dispatch. -/
  v0 : Word
  v1 : Word
  phase : Phase
  /-- Check units (passes, stages, steps, rounds, blocks) still to end. -/
  left : Nat
  /-- Check units that have ended: the index of the unit now running. -/
  done : Nat
  /-- Output headers still to be written. -/
  hdrs : List PendHdr
  /-- Payload rows written so far, for the row counts. -/
  rows : Nat
  /-- The number of this instruction in the station's order of dispatch. -/
  xid : Nat
  /-- XFER: descriptors fetched, started and landed. XGATHER: indices issued, started rows, landed rows. -/
  fetched : Nat
  started : Nat
  landed : Nat
  /-- XGATHER: the bytes gathered for the row not yet written, and the row of indices in use. -/
  acc : List Byte
  idx : List Byte
  /-- WNTT: the limbs as they entered the engine, by polynomial then limb. -/
  inp : List (List Nat)
  /-- Results that the engine has and whose destination holds no defined contents before the signal, by window offset (R79,
  R92, R108, R131). -/
  out : List (Nat × List Byte)
  deriving DecidableEq, Repr

/-- A Griddle weight slot with its side sums (R67, R72). -/
structure Slot where
  loaded : Bool
  /-- The assignment the slot was loaded with is PERCOL; otherwise UNI (R69). -/
  percol : Bool
  /-- The MODTAB index of the assignment. -/
  mod : Nat
  /-- 128 array rows of 128 weights, row f for input position f. -/
  w : List (List Word)
  /-- The side sum of each column (R72). -/
  side : List Nat
  /-- The weights modulo 8,191, held beside the array for the check (R56). -/
  fold : List (List Nat)
  deriving DecidableEq, Repr

/-- An unloaded slot: slots and side sums cleared to zero (R73). -/
def Slot.reset : Slot := ⟨false, false, 0, [], [], []⟩

/-- A Griddle (R67) and its registers. -/
structure Griddle where
  slots : Vector Slot 8
  /-- Key words received and not yet consumed: the key FIFO (R83). -/
  keyFifo : List Word
  /-- The chain buffer: the unreduced sums of the rows of the last pass, and of the pass before it in the other bank (R76). -/
  chain0 : List (List Nat)
  chain1 : List (List Nat)
  /-- The corner-turn buffers: the rows of the last TURN pass as they streamed, and as they were reduced (R77). -/
  turnIn : List (List Nat)
  turnOut : List (List Nat)
  /-- GRD_BYPASS (R84). -/
  active : BitVec 16
  pending : BitVec 16
  /-- Held out of service until the next warm reset (R385). -/
  held : Bool
  /-- GRD_ROWS and GRD_KROWS. -/
  rows : BitVec 48
  krows : Word
  deriving DecidableEq, Repr

/-- A Griddle after a cold reset. -/
def Griddle.reset : Griddle := ⟨Vector.replicate 8 Slot.reset, [], [], [], [], [], 0, 0, false, 0, 0⟩

/-- A Whisk (R87): the halves of its computing limb buffer and its count (WSK_LIMBS). -/
structure Whisk where
  /-- The limbs of the group at the input of the last stage, which survive until its check has passed, and at its output (R87,
  R89, R92). -/
  kept : List (List Nat)
  half : List (List Nat)
  limbs : Word
  deriving DecidableEq, Repr

/-- A row of a Skillet's operand cache (R97). -/
structure CRow where
  /-- Tagged SGN; otherwise RES. -/
  sgn : Bool
  words : List Word
  deriving DecidableEq, Repr

/-- A Skillet: the cache rows that are loaded, and SKL_ROWS (R93, R97). -/
structure Skillet where
  cache : Tab CRow
  rows : Word
  deriving DecidableEq, Repr

/-- An idle Whisk with empty buffers. -/
def Whisk.reset : Whisk := ⟨[], [], 0⟩

/-- The phases of a KREFRESH (Table 6.3, KTL_STATUS.PHASE). -/
inductive KPhase where
  | idle | entry | initialise | rotation | keySwitch | exit
  deriving DecidableEq, Repr

/-- A GLWE accumulator, each polynomial as one list of words per limb (R101). -/
structure Glwe where
  a : List (List Word)
  b : List (List Word)
  deriving DecidableEq, Repr

/-- A Kettle (R101) and its registers. -/
structure Kettle where
  phase : KPhase
  /-- The multicast group of the running instruction, or of the last one (R109). -/
  grp : Nat
  /-- Its parameter set and its MODTAB index of limb 0. -/
  psid : Nat
  mod : Nat
  /-- Blind-rotation step or key-switch round now running. -/
  step : Nat
  /-- Element now running. -/
  elem : Nat
  /-- Key-switch pass t now running. -/
  pass : Nat
  /-- B of the running instruction, and F; F stays when it ends, for the step 0 that may follow, and is 0 after a stop. -/
  batch : Nat
  funcs : Nat
  /-- The entry store: per element, the switched mask and then the switched body (R102). -/
  entry : List (List Nat)
  /-- The test-vector store, one list of words per limb (R104). -/
  tv : List (List Word)
  /-- The table store: the table rows of the running instruction (R101, R104). -/
  table : List (List Nat)
  /-- The accumulator store. -/
  accs : List Glwe
  /-- Key buffers 0 and 1 and the step each holds (R109). -/
  kbuf0 : List Word
  kbuf1 : List Word
  kst0 : Nat
  kst1 : Nat
  /-- The next step the bus delivers, rows of the key-switch key received in the pass being received, and passes received;
  once all F passes have been received, the next step belongs to the next instruction (R109). -/
  rxStep : Nat
  rxKs : Nat
  rxPass : Nat
  /-- The key-switch FIFO. -/
  ksq : List Word
  /-- Per element and limb, the running words of the key switch (R102). -/
  run : List (List (List Word))
  /-- Outputs whose key switch has ended: per pass, per element, per limb. -/
  outs : List (List (List (List Word)))
  /-- KTL_STALL and KTL_DONE. -/
  stall : BitVec 48
  refreshes : Word
  deriving DecidableEq, Repr

/-- A Kettle whose stores are cleared (R116). -/
def Kettle.reset : Kettle :=
  ⟨.idle, 0, 0, 0, 0, 0, 0, 0, 0, [], [], [], [], [], [], 0, 0, 0, 0, 0, [], [], [], 0, 0⟩

/-- The Blocker (R133, R143) and its registers. -/
structure Blocker where
  /-- BLK_STATUS.PHASE: 0 idle, 1 ring phase or packing terms, 2 element passes or tail, 3 exit. -/
  phase : BitVec 2
  /-- BEXTRACT: the pass now running. BPACK: 3 × i + j of the term now running. -/
  pass : Nat
  grp : Nat
  /-- Key words received from the bus and not yet consumed (the staging buffer and the borrowed engines' FIFOs). -/
  keys : List Word
  /-- The staging buffer: BEXTRACT's switched ciphertext (c0, c1) at q0 after the ring phase; BPACK's acc0 and acc1. -/
  c0 : List Word
  c1 : List Word
  /-- Borrowed engines (BLK_BORROW). -/
  kettles : BitVec 8
  whisks : BitVec 2
  griddles : BitVec 2
  /-- BLK_XOUT and BLK_PIN. -/
  xout : Word
  pin : Word
  deriving DecidableEq, Repr

/-- An idle Blocker. -/
def Blocker.reset : Blocker := ⟨0, 0, 0, [], [], [], 0, 0, 0, 0, 0⟩

/-- A key page map entry (Table 9.1, R147). -/
structure KpmEntry where
  valid : Bool
  loc : BitVec 2
  peer : BitVec 10
  /-- The page address; 1 MiB-aligned. -/
  paddr : Nat
  ktag : Word
  func : BitVec 6
  deriving DecidableEq, Repr

/-- An entry that maps no page. -/
def KpmEntry.reset : KpmEntry := ⟨false, 0, 0, 0, 0, 0⟩

/-- An object descriptor of a directory store (Table 9.2, R148). -/
structure ObjDesc where
  kind : Nat
  form : Nat
  psid : Nat
  limbs : Nat
  index : Nat
  first : Nat
  pages : Nat
  deriving DecidableEq, Repr

/-- A part of a key stream (Table 9.4). -/
structure KeyPart where
  kind : Nat
  index : Nat
  mod : Nat
  rep : Nat
  deriving DecidableEq, Repr

/-- Where an open key stream stands: its pre-check, running, or closing at the end of the part repetition (R151, R158). -/
inductive StreamPhase where
  | precheck | running | closing
  deriving DecidableEq, Repr

/-- A stream that a Funnel leads (R151, R157). -/
structure KeyStream where
  grp : Nat
  phase : StreamPhase
  parts : List KeyPart
  /-- ROUNDS; 0 until closed. -/
  rounds : Nat
  /-- Part, repetition and round now delivered. -/
  part : Nat
  rep : Nat
  round : Nat
  /-- Expansion unit of the part now being expanded, pages of the part that have arrived, and rows of the repetition launched
  (R157, R159). -/
  unit : Nat
  pages : Nat
  rows : Nat
  /-- Payload bytes that have arrived and are not yet expanded. -/
  body : List Byte
  /-- Expanded words in bus order, waiting for launch. -/
  launch : List Word
  /-- The object's seed, as the last page's header gave it. -/
  seed : List Byte
  /-- Sample-limb pairs dealt to the pools before this repetition, and in it (R155). -/
  dealt : Nat
  pairs : Nat
  deriving DecidableEq, Repr

/-- A Funnel (R146) and its registers. -/
structure Funnel where
  /-- FNL_KPM_BASE_HI and FNL_KPM_BASE_LO (R147). -/
  base : Dword
  /-- The map cache, most recently used first: 1,024 sets of 4 ways by map index mod 1,024 (R146). -/
  cache : List (Nat × KpmEntry)
  /-- The directory store (R148). -/
  dir : List ObjDesc
  /-- The streams this Funnel leads. -/
  streams : List KeyStream
  /-- In its die's expansion pool (R155). -/
  pooled : Bool
  miss : Word
  pagesOk : Word
  /-- Bytes of mask words expanded; FNL_XKIB reads [41:10]. -/
  xbytes : BitVec 42
  slotwait : Word
  /-- FNL_FAULT. -/
  code : Byte
  mapidx : BitVec 19
  deriving DecidableEq, Repr

/-- A Funnel after a cold reset. -/
def Funnel.reset : Funnel := ⟨0, [], [], [], true, 0, 0, 0, 0, 0, 0⟩

/-- A fetched stream-engine descriptor that has not started (R191). -/
structure FDesc where
  /-- XFER it belongs to and its index in that list. -/
  xid : Nat
  idx : Nat
  /-- The 32 bytes as fetched (Table 11.2). -/
  bytes : List Byte
  deriving DecidableEq, Repr

/-- A descriptor that has started and not landed (R193). -/
structure RDesc where
  xid : Nat
  idx : Nat
  bytes : List Byte
  /-- Bytes whose chunks have issued, bytes of a SEND that DATA frames have carried, and bytes that have landed. -/
  issued : Nat
  sent : Nat
  landed : Nat
  deriving DecidableEq, Repr

/-- A chunk that holds a tag (R189). -/
structure Chunk where
  xid : Nat
  idx : Nat
  /-- Offset of the chunk within its descriptor, and its length. -/
  off : Nat
  len : Nat
  /-- The source's bytes, once read. -/
  data : Option (List Byte)
  /-- Bytes that a remote destination has accepted: another station's Pantry, or the host. -/
  taken : Nat
  /-- A HOST read of this chunk has failed its CRC once (R322). -/
  retried : Bool
  deriving DecidableEq, Repr

/-- A stream engine of a station (R183) and its registers. -/
structure StreamEng where
  ahead : List FDesc
  run : List RDesc
  chunks : List Chunk
  /-- The fence descriptor made later ones be discarded; they are fetched again (R192). -/
  fencing : Bool
  faulted : Bool
  code : Byte
  desc : BitVec 16
  bytes : BitVec 48
  tagfull : Word
  hold : Word
  /-- NEXT of the two receiving ends of the engine's private host path: the engine's, for HOST reads, and I/O die 0's, for HOST
  writes (R322). -/
  bandNext : Word
  bandNextW : Word
  /-- TXNEXT of the two sending ends of that path: I/O die 0's for HOST reads, and the engine's for HOST writes (R322). -/
  bandTx : Word
  bandTxW : Word
  deriving DecidableEq, Repr

/-- A stream engine after a cold reset. -/
def StreamEng.reset : StreamEng := ⟨[], [], [], false, false, 0, 0, 0, 0, 0, 0, 0, 0, 0⟩

/-- A Pantry window register (R170), and the job it was granted to. -/
structure Win where
  valid : Bool
  /-- Size and base in 64 KiB units. -/
  size : BitVec 10
  base : BitVec 9
  deriving DecidableEq, Repr

/-- A Pantry (R165) and its registers. -/
structure Pantry where
  mem : Mem
  timed : Byte
  dual : Byte
  wins : Vector Win 4
  /-- PAN_STATUS.ZWIN: windows being zeroed (R172). -/
  zwin : BitVec 4
  corr : BitVec 16
  uncorr : Byte
  bank : BitVec 5
  row : BitVec 11
  conflict : Word
  deriving DecidableEq, Repr

/-- A Pantry after a cold reset: scrubbed, all windows invalid (R182). -/
def Pantry.reset : Pantry := ⟨[], 0, 0, Vector.replicate 4 ⟨false, 0, 0⟩, 0, 0, 0, 0, 0, 0⟩

/-- STN_CHKCNT of a checked engine (R60), and what Crown tracks beside it for quarantine (R385). -/
structure ChkCnt where
  replays : BitVec 16
  fails : Byte
  quar : Bool
  /-- REPLAYS at Crown's last read. -/
  last : BitVec 16
  /-- The group record: union of the column-group masks of CHECK_REPLAY_FAILED events. -/
  groups : BitVec 16
  deriving DecidableEq, Repr

/-- Zero counts. -/
def ChkCnt.reset : ChkCnt := ⟨0, 0, false, 0, 0⟩

/-- A CLOAD whose word has not arrived (R227): the counter, the window offset, the word's bytes as read. -/
structure LoadPend where
  iw : BitVec 128
  ctr : BitVec 5
  word : Dword
  deriving DecidableEq, Repr

/-- A station. -/
structure Station where
  /-- STN_ROLE (R256). -/
  epoch : BitVec 16
  held : Bool
  ses : BitVec 14
  /-- The job-table index whose role this is, while one is held. -/
  job : Option Nat
  /-- The window register granted to the job. -/
  win : Fin 4
  /-- The station-index table (R186). -/
  jobStns : List (Fin 16)
  stale : Word
  staleAcc : Word
  modtab : Vector ModEntry 64
  /-- The session's modulus list as MLOAD reads it (R241). -/
  modlist : List ModEntry
  chk : Vector ChkCnt 12
  /-- INTERNAL faults attributed to each engine index (R385). -/
  internals : Tab Nat
  /-- The translated code and descriptors (R231). -/
  code : List (BitVec 128)
  descs : List (BitVec 256)
  /-- Physical engine of each virtual unit (Table 13.4 numbers for both). -/
  umap : List (Fin 22)
  /-- Renumbered weight slots of virtual Griddles that share one Griddle: at 8 * virtual Griddle + slot; empty when they do
  not share (Table 13.9). -/
  slotMap : List Nat
  /-- The cache row where virtual Skillet 1's rows start, when both share one Skillet. -/
  crowOff : Nat
  /-- Physical group of each virtual group. -/
  gmap : List (Fin 64)
  pc : Nat
  run : Bool
  ended : Bool
  /-- The station's part of the job is complete (R227). -/
  partDone : Bool
  load : Option LoadPend
  flags : BitVec 128
  ctrs : Vector Word 32
  cmps : Vector Cmp 8
  /-- Engine queues by physical engine; 0 is the sequencer's side queue (R221, R240). -/
  queues : Vector (List QEntry) 22
  /-- The number that the next instruction dispatched to a queue gets. -/
  nextXid : Nat
  griddles : Vector Griddle 2
  whisks : Vector Whisk 2
  skillets : Vector Skillet 2
  kettles : Vector Kettle 8
  /-- CRD_ROWS. -/
  cardRows : Word
  /-- The Card's buffer: the bytes that went through H0 and H1 last (R117), and its route: the source lane of each lane. -/
  cardBuf : List Byte
  cardRoute : List Nat
  blocker : Blocker
  funnel : Funnel
  ses4 : Vector StreamEng 4
  pantry : Pantry
  deriving DecidableEq, Repr

/-- A station after a cold reset. -/
def Station.reset : Station where
  epoch := 0
  held := false
  ses := 0
  job := none
  win := 0
  jobStns := []
  stale := 0
  staleAcc := 0
  modtab := Vector.replicate 64 ModEntry.reset
  modlist := []
  chk := Vector.replicate 12 ChkCnt.reset
  internals := []
  code := []
  descs := []
  umap := []
  slotMap := []
  crowOff := 0
  gmap := []
  pc := 0
  run := false
  ended := false
  partDone := false
  load := none
  flags := 0
  ctrs := Vector.replicate 32 0
  cmps := Vector.replicate 8 ⟨0, 0, 0⟩
  queues := Vector.replicate 22 []
  nextXid := 0
  griddles := Vector.replicate 2 Griddle.reset
  whisks := Vector.replicate 2 Whisk.reset
  skillets := Vector.replicate 2 ⟨[], 0⟩
  kettles := Vector.replicate 8 Kettle.reset
  cardRows := 0
  cardBuf := []
  cardRoute := []
  blocker := Blocker.reset
  funnel := Funnel.reset
  ses4 := Vector.replicate 4 StreamEng.reset
  pantry := Pantry.reset

/-! ## Messages between stations (R180, R230, R258) -/

/-- What a message on the station network is. -/
inductive NetKind where
  /-- A signal: kind 1 SET, 2 CLEAR, 3 INC, and its flag or counter index (R230). -/
  | signal (kind : BitVec 2) (index : BitVec 7)
  /-- A read of a remote window by a chunk of a stream engine of the source (R180). -/
  | paRead (e : Fin 4) (xid idx off : Nat) (addr len : Nat)
  /-- A write of a remote window. -/
  | paWrite (e : Fin 4) (xid idx off : Nat) (addr : Nat) (bytes : List Byte)
  /-- The answer ROLE_EPOCH_STALE (R258); to a remote Pantry access, with the stream engine and the descriptor's index. -/
  | stale (acc : Option (Fin 4 × Nat))
  deriving DecidableEq, Repr

/-- A message on the station network, with the session, the epoch of the target's role that it is compared with, and the epoch
of the sender's role that an answer is compared with (R258). -/
structure NetMsg where
  src : Fin 16
  dst : Fin 16
  ses : BitVec 14
  epoch : BitVec 16
  back : BitVec 16
  kind : NetKind
  deriving DecidableEq, Repr

/-! ## Module memory (12) -/

/-- A region-table entry (R201). -/
structure Region where
  valid : Bool
  striped : Bool
  home : Fin 4
  len : BitVec 10
  base : BitVec 10
  sb : BitVec 7
  deriving DecidableEq, Repr

/-- A stack's registers (R206, R208, R215, R216). -/
structure Stack where
  temp : Byte
  hot : Bool
  refmul : BitVec 2
  detect : BitVec 16
  recov : Byte
  poisonCnt : BitVec 7
  erraddr : BitVec 40
  sieve : Word
  /-- MEM_MARGIN. -/
  chan : BitVec 4
  rdly : BitVec 7
  wdly : BitVec 7
  vref : BitVec 5
  vddq : BitVec 5
  passed : Bool
  running : Bool
  /-- MEM_EYE and MEM_EYE2. -/
  eye : Word
  eye2 : Word
  deriving DecidableEq, Repr

/-- A stack's registers after a cold reset. -/
def Stack.reset : Stack := ⟨0, false, 0, 0, 0, 0, 0, 0, 0, 0, 0, 0, 0, false, false, 0, 0⟩

/-- Module memory. -/
structure ModMem where
  data : Mem
  /-- Metadata CRC-16 of the units that a write has reached, by module address / 64 (R200, R205). A unit that is not listed
  holds the zero data and matching CRC that zeroing wrote (R213). -/
  crcs : Tab (BitVec 16)
  /-- Units, by module address / 64, whose re-reads all failed and that no whole write has replaced (R206). -/
  poison : List Nat
  /-- Poisoned units whose failing read has been counted and whose requester has still to get its answer (R206). -/
  counted : List Nat
  regions : Vector Region 16
  stackRegs : Vector Stack 8
  ready : Bool
  zeroing : Bool
  selfref : Bool
  margin : Bool
  deriving DecidableEq, Repr

/-! ## Crown: sessions, key sets, buffers, jobs (02, 15, 16) -/

/-- The request that a reply or completion answers (R280). -/
structure ReqRef where
  f : Fin 64
  op : Nat
  tag : Word
  rqidx : Byte
  deriving DecidableEq, Repr

/-- STATE of a session body (Table 15.2). -/
inductive SesState where
  | free | opened | closing
  deriving DecidableEq, Repr

/-- A session body (Table 15.2). -/
structure SesBody where
  seq : Word
  state : SesState
  func : Fin 64
  policy : BitVec 16
  stmask : BitVec 16
  maxjobs : BitVec 16
  ktag : Word
  deflimit : Word
  mlcount : Byte
  mladdr : Dword
  owner : List Byte
  deriving DecidableEq, Repr

/-- The body of a record that was never used since the last cold reset. -/
def SesBody.reset : SesBody := ⟨0, .free, 0, 0, 0, 0, 0, 0, 0, 0, []⟩

/-- A DATA frame a sender keeps until it is acknowledged (R307). -/
structure SentFrame where
  seq : Word
  bytes : List Byte
  /-- The stream engine and the descriptor whose bytes it carries, and how often it has been sent. -/
  e : Fin 4
  xid : Nat
  idx : Nat
  len : Nat
  tries : Nat
  deriving DecidableEq, Repr

/-- An ACK that a receiver owes for a DATA frame, until every byte of it has landed (R306): the frame's SEQ, its sender, and where its
bytes go: the engine, the descriptor, and the offset in it up to which they reach. -/
structure AckDue where
  seq : Word
  smod : BitVec 10
  sses : BitVec 14
  sepoch : BitVec 16
  sstn : Fin 16
  e : Fin 4
  xid : Nat
  idx : Nat
  upto : Nat
  deriving DecidableEq, Repr

/-- One slot of a session's stream binding table, with what flow control keeps for it (R304 to R308). -/
structure StreamSlot where
  /-- Peer module each direction is bound to. -/
  txPeer : Option (BitVec 10)
  rxPeer : Option (BitVec 10)
  /-- Station and engine of the job each direction is bound to. -/
  txStn : Option (Fin 16)
  rxStn : Option (Fin 16)
  /-- The port that the frames of each direction leave by (R308). -/
  txPort : Option (Fin 14)
  rxPort : Option (Fin 14)
  /-- Destination session, station and epoch recorded from the last CREDIT (R305). -/
  dses : BitVec 14
  dstn : Fin 16
  depoch : BitVec 16
  /-- Grants of credit in order, each the bytes still to consume (R305). -/
  credit : List Nat
  /-- RECV descriptors that granted credit and have not landed whole, in the order of their grants: engine, XFER, index (R305). -/
  rxq : List (Fin 4 × Nat × Nat)
  /-- Frames sent and not acknowledged, oldest first (R307). -/
  unacked : List SentFrame
  /-- Frames received whose bytes have not all landed, oldest first (R306). -/
  acks : List AckDue
  deriving DecidableEq, Repr

/-- An unbound slot. -/
def StreamSlot.reset : StreamSlot := ⟨none, none, none, none, none, none, 0, 0, 0, [], [], [], []⟩

/-- A session record (Table 15.1) with its modulus list and stream binding table. -/
structure Session where
  /-- CV selects body 1. -/
  cv : Bool
  jobs : Nat
  stale : Word
  /-- ALIVE: TXNEXT and RXNEXT of the eight slots. -/
  alive : Vector (Word × Word) 8
  body0 : SesBody
  body1 : SesBody
  /-- The validated modulus list in Crown's private store (R254). -/
  modlist : List ModEntry
  slots : Vector StreamSlot 8
  /-- SESSION_CLOSE requests waiting for the record to become FREE (R255). -/
  closers : List ReqRef
  deriving DecidableEq, Repr

/-- A FREE record. -/
def Session.reset : Session :=
  ⟨false, 0, 0, Vector.replicate 8 (0, 0), SesBody.reset, SesBody.reset, [], Vector.replicate 8 StreamSlot.reset, []⟩

/-- Key-set states (Table 2.6). -/
inductive KsState where
  | registered | verified | active | retired
  deriving DecidableEq, Repr

/-- A body of a key-set record (R34, R253). -/
structure KsBody where
  ses : Nat
  /-- The 128-byte identity record (Table 2.5). -/
  record : List Byte
  state : KsState
  /-- The object directory (R148). -/
  dir : List ObjDesc
  /-- Module-memory areas that hold LOCAL pages: address and length. -/
  areas : List (Nat × Nat)
  deriving DecidableEq, Repr

/-- A key-set record: two bodies, and CV, which selects body 1 (R37, R253). -/
structure KeySet where
  cv : Bool
  body0 : KsBody
  body1 : KsBody
  deriving DecidableEq, Repr

/-- A buffer record (R259) and its BAR2 mapping (R291). -/
structure Buffer where
  ses : Nat
  region : Fin 16
  len : Nat
  v0 : Nat
  v1 : Nat
  /-- CV: version 1 is the committed one. -/
  cv : Bool
  pin0 : Nat
  pin1 : Nat
  /-- Function and BAR2 offset of V0, when mapped. -/
  map : Option (Fin 64 × Nat)
  deriving DecidableEq, Repr

/-- STATE of a job state word (Table 15.3). -/
inductive JobState where
  | free | admitting | running | committed | aborting | completed | endedAbort
  deriving DecidableEq, Repr

/-- An entry of a job buffer table as bound at admission (R260). -/
structure Handle where
  buf : Nat
  out : Bool
  /-- Module address of the bound version, and its length. -/
  addr : Nat
  len : Nat
  deriving DecidableEq, Repr

/-- A job-table entry (R263). -/
structure Job where
  gen : BitVec 20
  state : JobState
  cause : Byte
  ses : Nat
  /-- Owning function at submission. -/
  func : Fin 64
  ref : ReqRef
  /-- Fields of the submission (R292). -/
  imgLen : Nat
  nbuf : Nat
  vec : Nat
  ticketLen : Nat
  limit : Word
  /-- The tag of the job's key set (R265). -/
  ktag : Word
  /-- Mortar's verdict on the ticket, and the Mortar TAG awaited. -/
  ticket : Option Byte
  mtag : Option (BitVec 16)
  /-- The image and the buffer table as read from the host, while the ticket is being verified. -/
  img : List Byte
  btab : List Byte
  handles : List Handle
  stns : List (Fin 16)
  groups : List (Fin 64)
  timeout : Bool
  /-- Admission passed: the session's JOBS counts this job until it ends (R252). -/
  admitted : Bool
  /-- The clean-up of an aborted job is done and its completion waits to be written (R268). -/
  cleaned : Bool
  deriving DecidableEq, Repr

/-- An entry never used since the last cold reset (R263). -/
def Job.reset : Job :=
  ⟨0, .free, 0, 0, 0, ⟨0, 0, 0, 0⟩, 0, 0, 0, 0, 0, 0, none, none, [], [], [], [], [], false, false, false⟩

/-- A journal entry (R267): the job and each OUT buffer with its new CV. -/
structure JournalEntry where
  job : Nat
  outs : List (Nat × Bool)
  deriving DecidableEq, Repr

/-- A key of the translated-image cache (R232). -/
structure CacheEntry where
  sha : List Byte
  func : Fin 64
  stns : List (Fin 16)
  /-- Enable and width state of the stations' engines. -/
  widths : List Nat
  deriving DecidableEq, Repr

/-- A physical multicast group in use (R156). -/
structure Group where
  job : Nat
  members : List (Fin 16)
  deriving DecidableEq, Repr

/-- An export (R310). -/
structure Expo where
  buf : Nat
  peer : BitVec 10
  deriving DecidableEq, Repr

/-- A function's limits (R288). -/
structure FuncCfg where
  stmask : BitVec 16
  maxsess : Nat
  /-- Buffer quota in bytes; none for no quota. -/
  quota : Option Nat
  deriving DecidableEq, Repr

/-- A firmware or configuration image being written to flash (R352). -/
structure StageRun where
  ref : Option ReqRef
  config : Bool
  image : List Byte
  deriving DecidableEq, Repr

/-- An activation: the request it answers (none for PLDM), whether it still drains, and the old version (R353). -/
structure Activation where
  ref : Option ReqRef
  draining : Bool
  oldVer : Word
  deriving DecidableEq, Repr

/-- A pending MON_SNAPSHOT (R380). -/
structure SnapReq where
  ref : ReqRef
  mask : Dword
  addr : Nat
  /-- SNAP: the number of the command since the last cold reset. -/
  num : Word
  deriving DecidableEq, Repr

/-- A pending MEM_MARGIN (R214 to R216): point or eye, and its site. An eye sweeps outward from 0: edge 0 is the point at 0, then
1 to 6 are read below and above 0, write below and above 0, Vref below and above 0; step is the step under test, and edges
holds the last passing steps found so far. -/
structure MarginReq where
  ref : ReqRef
  site : Fin 8
  eye : Bool
  /-- The Vref step of an eye: 0, then 1 to 10 below 0, then 11 to 20 above it. -/
  vix : Nat
  /-- The sweep of that step: 0 the point at timing 0, then read below and above 0, write below and above 0. -/
  edge : Nat
  step : Nat
  /-- The edges found at Vref 0, and the Vref steps that passed at timing 0. -/
  edges : List Nat
  vpass : List Nat
  deriving DecidableEq, Repr

/-- A verification that Crown has asked of Mortar: a KEYSET_VERIFY and its key set, or the ticket of a job (R265, R290). -/
structure VerifyReq where
  ref : Option (ReqRef × Word)
  job : Nat
  mtag : BitVec 16
  /-- The slots that Crown gave it. -/
  slots : List Nat
  deriving DecidableEq, Repr

/-- A verification that waits for slots and room in Mortar's queue (R332): operation, integer or byte-string operands for slots A
to E lowest byte first, their sizes and the work slots' size in words, and the message's length. -/
structure WaitVerify where
  mtag : BitVec 16
  op : Byte
  slots : List (List Byte × Nat)
  nw : Nat
  wsize : Nat
  mlen : Nat
  deriving DecidableEq, Repr

/-- Crown's tables. -/
structure Crown where
  sessions : Tab Session
  keysets : Tab KeySet
  buffers : Tab Buffer
  jobs : Tab Job
  /-- Entries of ended jobs, the one that ended least recently first (R263). -/
  endOrder : List Nat
  journal : List JournalEntry
  commits : Word
  /-- The key page map has its place: Crown has chosen one, or software has written the base (R147). -/
  kpmPlaced : Bool
  cache : List CacheEntry
  groups : Tab Group
  exports : Tab Expo
  funcs : Vector FuncCfg 64
  /-- CRN_QUAR0 to CRN_QUAR15: quarantined engines, and withdrawn stations (R385). -/
  quar : Vector (BitVec 22) 16
  withdrawn : BitVec 16
  /-- HST_DEVICE_STATUS.QUAR. -/
  quarSeen : Bool
  stage : Option StageRun
  activation : Option Activation
  /-- MON_SNAPSHOT commands that wait for their freeze edge, oldest first. -/
  snaps : List SnapReq
  marginReq : Option MarginReq
  verifies : List VerifyReq
  waits : List WaitVerify
  nextMtag : BitVec 16
  /-- The function whose turn it is to have an entry served (R284). -/
  turn : Fin 64
  /-- Jobs whose completion entries have to be written before the first command after a warm reset is taken (R271). -/
  mustWrite : List Nat
  /-- A job has been admitted since the last cold reset (R214). -/
  everAdmitted : Bool
  deriving DecidableEq, Repr

/-! ## Mailboxes (16) -/

/-- A request entry that passed Band (R282), as Crown receives it. -/
structure ReqEntry where
  rqidx : Byte
  bytes : List Byte
  deriving DecidableEq, Repr

/-- A reply or completion not yet written to its ring (R280). -/
structure Reply where
  op : Nat
  tag : Word
  status : Byte
  async : Bool
  rqidx : Byte
  payload : List Byte
  /-- The vector 3 to 31 of a job's completion; 0 for vector 0 (R294). -/
  vec : Nat
  /-- The job-table entry whose job ends once this completion has been written (Table 15.4). -/
  job : Option Nat
  deriving DecidableEq, Repr

/-- A function's mailbox page (R278) and its MSI-X table. -/
structure Mbx where
  coalt : BitVec 16
  coaln : Byte
  en : Bool
  base : Vector Word 4
  rqTail : Byte
  cqHead : Byte
  rqHead : Byte
  cqTail : Byte
  /-- The phase of the next completion entry. -/
  phase : Bool
  rseq : BitVec 6
  check : BitVec 2
  alive : BitVec 16
  index : Byte
  txnext : BitVec 16
  rxnext : BitVec 16
  crcCnt : Byte
  repCnt : Byte
  gapCnt : Byte
  /-- Doorbells that no receipt has covered, and whether a fetch is running (R283). -/
  bells : Nat
  fetching : Bool
  /-- Entries examined since the last receipt, and whether one failed. -/
  block : Nat
  blockBad : Bool
  /-- INDEX, CHECK and ALIVE of the last entry examined, while no receipt covers it. -/
  exam : Option (Byte × BitVec 2 × BitVec 16)
  /-- Entries passed to Crown and not yet taken. -/
  taken : List ReqEntry
  /-- Replies and completions not yet written. -/
  replies : List Reply
  /-- Completion entries written and not yet signalled by vector 0 (R295). -/
  unsignalled : Nat
  /-- MSI-X table words that software has written, by 4 * vector + word, and the pending bits (Table 16.2). -/
  msix : Tab Word
  pba : Word
  deriving DecidableEq, Repr

/-- A mailbox page after a cold reset. -/
def Mbx.reset : Mbx :=
  ⟨0, 0, false, Vector.replicate 4 0, 0, 0, 0, 0, true, 0, 0, 0, 0, 0, 0, 0, 0, 0, 0, false, 0, false, none, [], [], 0, [], 0⟩

/-- What the module sends to the host, in transmit order (Table 11.5, R274). -/
inductive HostTlp where
  /-- A posted write to a DMA address of a function. -/
  | write (f : Fin 64) (addr : Nat) (bytes : List Byte)
  /-- An MSI-X message. -/
  | msix (f : Fin 64) (vec : Nat)
  /-- The data of a read completion. -/
  | cplData (f : Fin 64) (bytes : List Byte)
  /-- A completion with Unsupported Request. -/
  | cplUR (f : Fin 64)
  /-- A completion with a poisoned TLP (R207). -/
  | cplPoison (f : Fin 64)
  deriving DecidableEq, Repr

/-! ## Band (18) -/

/-- A write waiting in the queue of a register-level Band unit (R324). -/
inductive BndWrite where
  | ctrl (v : Word)
  | feed (n : Nat) (v : Word)
  | run (hi : Bool) (v : Word)
  | anext (v : Word)
  | achk (v : Word)
  | astat (v : Word)
  | status (v : Word)
  /-- The INIT bit of BND_CTRL alone. -/
  | init
  /-- A write to the read-only BND_RES_LO or BND_RES_HI, which changes nothing. -/
  | res
  deriving DecidableEq, Repr

/-- A register-level Band unit. -/
structure BndUnit where
  aw : Bool
  alg : BitVec 2
  run : Dword
  anext : Word
  gap : Byte
  rep : Byte
  result : BitVec 2
  ovf : Bool
  queue : List BndWrite
  deriving DecidableEq, Repr

/-- A Band unit after a reset. -/
def BndUnit.reset : BndUnit := ⟨false, 0, 0xFFFFFFFFFFFFFFFF, 0, 0, 0, 0, false, []⟩

/-! ## Mortar (19) -/

/-- A slot register (R328). -/
structure MSlot where
  valid : Bool
  len : Byte
  base : BitVec 13
  deriving DecidableEq, Repr

/-- A job descriptor (Table 19.1). -/
structure MJob where
  op : Byte
  tag : BitVec 16
  sa : Byte
  sb : Byte
  sc : Byte
  sd : Byte
  se : Byte
  sm : Byte
  so : Byte
  sw : Byte
  mlen : BitVec 16
  /-- The reserved byte and bytes 0x0E to 0x1F. -/
  rsvd : List Byte
  deriving DecidableEq, Repr

/-- A job that has started: whether it is in its check phase, its result once known, and yield points it passed. -/
structure MRun where
  job : MJob
  checking : Bool
  result : Option Byte
  /-- The value slot O receives when the job ends OK. -/
  out : Option Nat
  deriving DecidableEq, Repr

/-- Mortar (R326). -/
structure Mortar where
  /-- MRT_PROG: VERIFY in [3:0], RAW in [8:4]. -/
  prog : BitVec 9
  /-- The program store of 32 KiB: the bytes of the programs loaded, in the order of their bits. -/
  progs : List Byte
  mem : Tab Dword
  slots : Vector MSlot 64
  submit : Vector Word 8
  queue : List MJob
  running : Option MRun
  saved : List MRun
  /-- TAG and status code of ended jobs, and of those that hold until the FIFO has room (R337). -/
  results : List (BitVec 16 × Byte)
  held : List (BitVec 16 × Byte)
  jobs : Word
  yields : Word
  cfgErr : Bool
  qOvf : Bool
  /-- Programs whose load was requested and waits until Mortar holds no job, with their bytes (R327). -/
  load : Option (BitVec 9 × List Byte)
  deriving DecidableEq, Repr

/-- Mortar after a cold reset. -/
def Mortar.reset : Mortar :=
  ⟨0, [], [], Vector.replicate 64 ⟨false, 0, 0⟩, Vector.replicate 8 0, [], none, [], [], [], 0, 0, false, false, none⟩

/-! ## Monitors and the error log (22) -/

/-- A monitor unit (R375, R377). -/
structure MonUnit where
  cfga : Word
  cfgb : Word
  cfgc : Word
  mn : Word
  mx : Word
  count : BitVec 48
  sum : Dword
  bins : Vector Word 32
  sat : Bool
  /-- The first saturation since the last clear has been logged (R378). -/
  satLogged : Bool
  deriving DecidableEq, Repr

/-- A monitor unit after a cold reset (R381). -/
def MonUnit.reset : MonUnit := ⟨0, 0, 1, 0xFFFFFFFF, 0, 0, 0, Vector.replicate 32 0, false, false⟩

/-- An event on its way into the error log, or an entry of it (Table 22.4). -/
structure LogEvt where
  cls : Byte
  code : Byte
  srcKind : Byte
  unit : Byte
  station : Byte
  func : Byte
  session : BitVec 16
  jobId : Word
  detail : List Byte
  deriving DecidableEq, Repr

/-- Monitors and the error log. -/
structure Monitor where
  units : Vector MonUnit 64
  snapNo : Word
  /-- BAR0 snapshot area: the record of each unit that a snapshot has named. -/
  area : Tab (List Byte)
  next : BitVec 48
  /-- Ring entries by index, with their sequence numbers. -/
  ring : Tab (BitVec 48 × LogEvt)
  queue : List LogEvt
  lost : BitVec 16
  /-- Counts whose first saturation has been logged, by register offset. -/
  satMarks : List Nat
  deriving DecidableEq, Repr

/-- Monitors and log after a cold reset (R381, R384). -/
def Monitor.reset : Monitor := ⟨Vector.replicate 64 MonUnit.reset, 0, [], 0, [], [], 0, []⟩

/-! ## Fabric (17) -/

/-- Port states (Table 17.2). -/
inductive PState where
  | disabled | down | train | align | cap | up | mismatch
  deriving DecidableEq, Repr

/-- A flit as a sender keeps it (R300, R301). -/
structure Flit where
  /-- 0 IDLE, 1 DATA, 2 LINKCTL. -/
  kind : BitVec 2
  fseq : BitVec 12
  cls : BitVec 3
  sof : Bool
  eof : Bool
  payload : List Byte
  /-- ACK, when ACKV is set, and the credits the flit returns: CRCLS and CRN. -/
  ack : Option (BitVec 12)
  crcls : BitVec 3
  crn : BitVec 13
  deriving DecidableEq, Repr

/-- A frame that has been received whole and not taken: its class, the flits it came in, which hold their credits until it is taken
(R301), and its bytes. -/
structure RxFrame where
  cls : Fin 8
  flits : Nat
  bytes : List Byte
  deriving DecidableEq, Repr

/-- A fabric port. -/
structure Port where
  state : PState
  /-- MODE: ETHERNET. -/
  eth : Bool
  ver : Byte
  /-- The capability records of the modules that the port reaches directly: the neighbour once CAP has been exchanged, or in
  ETHERNET mode every module whose CAP frame has come (R299, R313). -/
  peers : List CapRecord
  /-- The negotiated feature word (R299). -/
  feat : Dword
  replay : BitVec 16
  retrain : Byte
  drop : Byte
  rep : Byte
  gap : Byte
  stale : Word
  /-- FAB_ETH and FAB_ETHPCP. -/
  etype : BitVec 16
  vid : BitVec 12
  pcp3 : BitVec 4
  pcp2 : BitVec 4
  pcp1 : BitVec 4
  pcp0 : BitVec 4
  /-- The next flit sequence number, flits not covered by an ACK, and flits waiting for credit (R301). -/
  fseq : BitVec 12
  unacked : List Flit
  waiting : List Flit
  /-- Credits for each class, and flits received and taken whose credits have not been returned. -/
  credits : Vector Nat 8
  owed : Vector Nat 8
  /-- The last sequence number received in order, once one has been. -/
  rxLast : Option (BitVec 12)
  /-- Replays since ACK last advanced. -/
  tries : Nat
  /-- The 512-byte flits sent, oldest first, replays included. -/
  sent : List (List Byte)
  /-- Ethernet: the frames sent, and frames that wait for a paused priority, with their class. -/
  sentFrames : List (List Byte)
  heldFrames : List (Nat × List Byte)
  /-- The flits and bytes of the frame being received in each class, and the frames received whole. -/
  part : Vector (Nat × List Byte) 8
  inbox : List RxFrame
  /-- Ethernet: the modules whose CAP frames have come, with the number of the remote port they left by (R313). -/
  pairs : List (BitVec 10 × Nat)
  /-- Priorities paused by PFC (R313). -/
  paused : BitVec 8
  deriving DecidableEq, Repr

/-- A port after a cold reset. -/
def Port.reset : Port where
  state := .down
  eth := false
  ver := 0
  peers := []
  feat := 0
  replay := 0
  retrain := 0
  drop := 0
  rep := 0
  gap := 0
  stale := 0
  etype := 0x88B5
  vid := 1
  pcp3 := 4
  pcp2 := 4
  pcp1 := 4
  pcp0 := 6
  fseq := 0
  unacked := []
  waiting := []
  credits := Vector.replicate 8 256
  owed := Vector.replicate 8 0
  rxLast := none
  tries := 0
  sent := []
  sentFrames := []
  heldFrames := []
  part := Vector.replicate 8 (0, [])
  inbox := []
  pairs := []
  paused := 0

/-- A READ that this module has sent and not had answered (R311): the requester by its tag. -/
structure PeerRead where
  tag : Word
  stn : Fin 16
  e : Fin 4
  xid : Nat
  idx : Nat
  off : Nat
  len : Nat
  port : Fin 14
  deriving DecidableEq, Repr

/-- The fabric layer of the module. -/
structure Fabric where
  assigned : Bool
  modid : BitVec 10
  ports : Vector Port 14
  /-- Relayed capability records: the neighbour that reported, and the record (R312). -/
  relayed : List (BitVec 10 × CapRecord)
  reads : List PeerRead
  nextTag : Word
  deriving DecidableEq, Repr

/-! ## Boot, flash, fuses, power, pins (20, 21) -/

/-- Fuses (Table 20.1). -/
structure Fuses where
  vkhash : List Byte
  /-- The two fuses of each of the 64 SVNF steps. -/
  svnA : BitVec 64
  svnB : BitVec 64
  idseed : List Byte
  serial : List Byte
  deriving DecidableEq, Repr

/-- Flash (Table 20.2). An erased area is the empty list. -/
structure Flash where
  bankA : List Byte
  bankB : List Byte
  boot0 : List Byte
  boot1 : List Byte
  cfg0 : List Byte
  cfg1 : List Byte
  idcert : List Byte
  deriving DecidableEq, Repr

/-- Where the module stands between power and READY. -/
inductive BootState where
  /-- No power, or every die held in reset (R362, R363, R366). -/
  | off
  /-- Held in reset by PERST_N, or waiting for the ROM to start (R345). -/
  | rom
  /-- The Crown firmware has started and has not set READY. -/
  | starting
  /-- READY is set. -/
  | ready
  /-- An activation's warm reset is in progress: the new firmware has started and has not set READY (R353). -/
  | activating
  deriving DecidableEq, Repr

/-- Boot, firmware and trust. -/
structure Boot where
  state : BootState
  /-- Running bank: B. -/
  bank : Bool
  fallback : Bool
  trial : Bool
  recovery : Bool
  cfgsrc : BitVec 2
  cfgdef : Bool
  /-- Header bytes 0x000 to 0xFFF of the running image. -/
  header : List Byte
  staged : Bool
  /-- CRN_FWSTAGE. -/
  reason : BitVec 4
  stageConfig : Bool
  pct : Byte
  /-- Measurements M0 to M4 (R356). -/
  meas : List (List Byte)
  activations : Word
  /-- STATIC and DYNAMIC in use, and PORTEN. -/
  staticSec : List Byte
  dynSec : List Byte
  /-- Changes to the configuration block not yet written (R351). -/
  cfgDirty : Bool
  /-- The ROM has locked IDSEED (R340). -/
  locked : Bool
  /-- Where an activation failed back or a cold boot tried the other bank already. -/
  triedOther : Bool
  deriving DecidableEq, Repr

/-- Clocks, power and pins. -/
structure Power where
  /-- P1 has risen above 39.5 V and not fallen below 38 V since (R362). -/
  p1 : Bool
  /-- REFCLK100 is present. -/
  refclk : Bool
  pwrgd : Bool
  /-- THERMTRIP_N is asserted (R366). -/
  tripped : Bool
  /-- SMB_ALERT_N: a die at or above 105 C; an entry added since the last Alert Response (R373). -/
  hotDie : Bool
  newEntry : Bool
  /-- CLK_STATUS. -/
  lock : Bool
  unlock : Bool
  refLoss : Bool
  fabLoss : BitVec 4
  /-- Results are not specified until the next cold reset (R360). -/
  unspecified : Bool
  /-- PWR_CAP, PWR_STATUS, PWR_INPUT, PWR_ENERGY. -/
  cap : BitVec 16
  tjmax : Byte
  frac : BitVec 7
  floorBit : Bool
  watts : BitVec 16
  mv : BitVec 16
  energy : Word
  /-- The last 1,000 samples of input power, newest first (10 ms), and energy not yet a whole kJ, in W x 10 µs. -/
  hist : List Nat
  joule : Nat
  /-- The TAP instruction in force (R374). -/
  tap : TapIns
  deriving DecidableEq, Repr

/-- The sizes in GiB of the PF's BAR2 and of the VFs' (R276): 1 after reset; resized in configuration space. -/
structure Bars where
  pf : Nat
  vf : Nat
  deriving DecidableEq, Repr

/-- Configuration space, as far as Table 16.1 names what it holds (R273, R278). -/
structure CfgSpace where
  /-- SR-IOV VF Enable. -/
  vfEnable : Bool
  /-- Functions in D3hot. -/
  d3hot : BitVec 64
  /-- Maximum payload size and maximum read request size in bytes. -/
  mps : Nat
  mrrs : Nat
  deriving DecidableEq, Repr

/-- Configuration space after a reset: D0, no VF enabled, 128-byte payloads and 512-byte read requests (log entry 48). -/
def CfgSpace.reset : CfgSpace := ⟨false, 0, 128, 512⟩

/-! ## The whole module -/

/-- The state of the block. -/
structure State where
  grade : Grade
  power : Power
  boot : Boot
  flash : Flash
  fuses : Fuses
  stations : Vector Station 16
  net : List NetMsg
  mem : ModMem
  crown : Crown
  mbx : Vector Mbx 64
  bars : Bars
  cfg : CfgSpace
  hostOut : List HostTlp
  band : Vector BndUnit 4
  mortar : Mortar
  mon : Monitor
  fab : Fabric
  /-- The eight stream engines of each I/O die (R198); Crown's transfers and peers' reads use them. -/
  ioSes : Vector (Vector StreamEng 8) 4
  /-- The model's own counter, at which free values are drawn (log entry 2). -/
  fresh : Nat
  /-- The commands that are waiting, first in, first out. -/
  pending : List Instr
  deriving DecidableEq, Repr

/-- The default region layout (Table 12.2) needs the number of slices each region has; entries by base and length in GiB. -/
def Region.none : Region := ⟨false, false, 0, 0, 0, 0⟩

/-- Function limits after a cold reset (R288). -/
def FuncCfg.reset (f : Nat) : FuncCfg := if f = 0 then ⟨0xFFFF, 16384, .none⟩ else ⟨0, 0, some 0⟩

/-- Crown's tables after a cold reset. -/
def Crown.reset : Crown where
  sessions := []
  keysets := []
  buffers := []
  jobs := []
  endOrder := []
  journal := []
  commits := 0
  kpmPlaced := false
  cache := []
  groups := []
  exports := []
  funcs := Vector.ofFn fun i => FuncCfg.reset i.val
  quar := Vector.replicate 16 0
  withdrawn := 0
  quarSeen := false
  stage := none
  activation := none
  snaps := []
  marginReq := none
  verifies := []
  waits := []
  nextMtag := 0
  turn := 0
  mustWrite := []
  everAdmitted := false

/-- Module memory when a cold reset starts: not ready; the ROM starts its zeroing and writes its region table (R213, R345). -/
def ModMem.reset : ModMem :=
  ⟨[], [], [], [], Vector.replicate 16 Region.none, Vector.replicate 8 Stack.reset, false, false, false, false⟩

/-- Fabric after a cold reset. -/
def Fabric.reset : Fabric := ⟨false, 0, Vector.replicate 14 Port.reset, [], [], 0⟩

/-- Boot state after a cold reset: the ROM has not run. -/
def Boot.reset : Boot :=
  ⟨.rom, false, false, false, false, 0, false, [], false, 0, false, 0, [], 0, [], [], false, false, false⟩

/-- Power and pins of a powered module after a cold reset. -/
def Power.reset : Power :=
  ⟨true, true, true, false, false, false, false, false, false, 0, false, 0, 0, 64, false, 0, 0, 0, [], 0, .bypass⟩

/-- The machine right after a cold reset: a DG960-M8L4 without -S (R5), with erased flash and unblown fuses (log entry 3). -/
def State.reset : State where
  grade := ⟨.m8l4, none⟩
  power := Power.reset
  boot := Boot.reset
  flash := ⟨[], [], [], [], [], [], []⟩
  fuses := ⟨[], 0, 0, [], []⟩
  stations := Vector.replicate 16 Station.reset
  net := []
  mem := ModMem.reset
  crown := Crown.reset
  mbx := Vector.replicate 64 Mbx.reset
  bars := ⟨1, 1⟩
  cfg := CfgSpace.reset
  hostOut := []
  band := Vector.replicate 4 BndUnit.reset
  mortar := Mortar.reset
  mon := Monitor.reset
  fab := Fabric.reset
  ioSes := Vector.replicate 4 (Vector.replicate 8 StreamEng.reset)
  fresh := 0
  pending := []

end Sys2Proof.Machine
end

