-- ==== Sys2Proof/Machine/Status.lean ====
section
/-! DEFINITION. Status.lean: the status codes of Table 0.7 (R8). -/

namespace Sys2Proof.Machine.Code

/-- OK. -/
def ok : Byte := 0x00
/-- ACCEPTED. -/
def accepted : Byte := 0x01
/-- ALREADY_COMPLETE. -/
def alreadyComplete : Byte := 0x02
/-- ABORTED. -/
def aborted : Byte := 0x03
/-- RESET_ABORTED. -/
def resetAborted : Byte := 0x04
/-- BUSY. -/
def busy : Byte := 0x05
/-- KEY_TAG_MISMATCH. -/
def keyTagMismatch : Byte := 0x10
/-- PARAM_MISMATCH. -/
def paramMismatch : Byte := 0x11
/-- LEVEL_EXHAUSTED. -/
def levelExhausted : Byte := 0x12
/-- NOISE_BUDGET. -/
def noiseBudget : Byte := 0x13
/-- KEY_PAGE_FAULT. -/
def keyPageFault : Byte := 0x14
/-- KEY_UNVERIFIED. -/
def keyUnverified : Byte := 0x15
/-- BOUND_FAULT. -/
def boundFault : Byte := 0x20
/-- VIEW_FAULT. -/
def viewFault : Byte := 0x21
/-- OVERLAP. -/
def overlap : Byte := 0x22
/-- ALIGN_FAULT. -/
def alignFault : Byte := 0x23
/-- CHECK_REPLAY_FAILED. -/
def checkReplayFailed : Byte := 0x30
/-- MEM_POISON. -/
def memPoison : Byte := 0x31
/-- LINK_LOST. -/
def linkLost : Byte := 0x32
/-- ALIVE_REPEAT. -/
def aliveRepeat : Byte := 0x33
/-- ALIVE_GAP. -/
def aliveGap : Byte := 0x34
/-- ROLE_EPOCH_STALE. -/
def roleEpochStale : Byte := 0x35
/-- IMAGE_VERSION. -/
def imageVersion : Byte := 0x40
/-- IMAGE_RESOURCE. -/
def imageResource : Byte := 0x41
/-- BAD_OPERAND. -/
def badOperand : Byte := 0x42
/-- MRT_INVALID_POINT. -/
def mrtInvalidPoint : Byte := 0x50
/-- MRT_INVALID_SCALAR. -/
def mrtInvalidScalar : Byte := 0x51
/-- MRT_RANGE. -/
def mrtRange : Byte := 0x52
/-- MRT_NO_INVERSE. -/
def mrtNoInverse : Byte := 0x53
/-- MRT_SIG_FAIL. -/
def mrtSigFail : Byte := 0x54
/-- MRT_PROGRAM_UNSIGNED. -/
def mrtProgramUnsigned : Byte := 0x55
/-- CFG_DEFAULTED. -/
def cfgDefaulted : Byte := 0x60
/-- INTERNAL. -/
def internal : Byte := 0x7F

/-- Every code of Table 0.7. -/
def all : List Byte :=
  [ok, accepted, alreadyComplete, aborted, resetAborted, busy, keyTagMismatch, paramMismatch, levelExhausted, noiseBudget,
   keyPageFault, keyUnverified, boundFault, viewFault, overlap, alignFault, checkReplayFailed, memPoison, linkLost, aliveRepeat,
   aliveGap, roleEpochStale, imageVersion, imageResource, badOperand, mrtInvalidPoint, mrtInvalidScalar, mrtRange, mrtNoInverse,
   mrtSigFail, mrtProgramUnsigned, cfgDefaulted, internal]

end Sys2Proof.Machine.Code
end

