-- ==== Sys2Proof/Machine/Header.lean ====
section
/-! DEFINITION. Header.lean: parameter sets (Table 2.1), the key-set identity record (Table 2.5), and the ciphertext header:
its fields, its size rule, its entry checks and how it is written (R23 to R32). -/

namespace Sys2Proof.Machine

/-! ## Parameter sets (Table 2.1) -/

/-- The ID names a digit set. -/
def isDigitSet (psid : Nat) : Bool := psid == 1 || psid == 2 || psid == 3

/-- The ID names a packed set. -/
def isPackedSet (psid : Nat) : Bool := psid == 0x11 || psid == 0x12 || psid == 0x13

/-- LWE dimension n of a digit set. -/
def lweN (psid : Nat) : Nat := if psid = 1 then 630 else if psid = 2 then 800 else 1024

/-- log2 of the ring degree of a set. -/
def setLogN (psid : Nat) : Nat :=
  if psid = 1 then 10 else if psid = 2 then 11 else if psid = 3 then 13
  else if psid = 0x11 then 15 else if psid = 0x12 then 16 else 17

/-- Words per limb of a digit ciphertext: n + 1 (R30). -/
def lweW (psid : Nat) : Nat := lweN psid + 1

/-- Limbs of a digit set at full level (R32). -/
def digitLimbs (psid : Nat) : Nat := if psid = 3 then 2 else 1

/-- The most limbs L + K of a packed set (Table 2.1). -/
def packedMaxLimbs (psid : Nat) : Nat := if psid = 0x11 then 28 else if psid = 0x12 then 57 else 110

/-- log2 of the decomposition base of a digit set, and its levels for refresh and for key switching (Table 2.1). -/
def baseBits (psid : Nat) : Nat := if psid = 3 then 12 else 8
/-- Levels ℓ of the refresh decomposition. -/
def decLevels (psid : Nat) : Nat := if psid = 3 then 4 else 3
/-- Levels ℓks of the key-switch decomposition. -/
def ksLevels (psid : Nat) : Nat := if psid = 3 then 6 else 5

/-- The family code of a set's ciphertexts: 0 digit, 1 packed (Table 2.2). -/
def setFamily (psid : Nat) : Nat := if isDigitSet psid then 0 else 1

/-! ## The identity record (Table 2.5) -/

/-- The body that CV selects (R253). -/
def KeySet.body (k : KeySet) : KsBody := if k.cv then k.body1 else k.body0
/-- The owning session. -/
def KeySet.ses (k : KeySet) : Nat := k.body.ses
/-- The 128-byte identity record. -/
def KeySet.record (k : KeySet) : List Byte := k.body.record
/-- The state (Table 2.6). -/
def KeySet.state (k : KeySet) : KsState := k.body.state
/-- The object directory. -/
def KeySet.dir (k : KeySet) : List ObjDesc := k.body.dir
/-- The areas that hold LOCAL pages. -/
def KeySet.areas (k : KeySet) : List (Nat × Nat) := k.body.areas
/-- New contents go into the body that CV does not select, and CV flips (R37, R253). -/
def KeySet.commit (k : KeySet) (b : KsBody) : KeySet :=
  if k.cv then { k with cv := false, body0 := b } else { k with cv := true, body1 := b }
/-- A new record: its first body is committed. -/
def KsBody.fresh (b : KsBody) : KeySet := ⟨false, b, b⟩

/-- DIGIT_PS. -/
def KeySet.digitPs (k : KeySet) : Nat := field k.record 2 1
/-- PACKED_PS. -/
def KeySet.packedPs (k : KeySet) : Nat := field k.record 3 1
/-- L, packed ciphertext limbs. -/
def KeySet.limbsL (k : KeySet) : Nat := field k.record 4 1
/-- K, special limbs. -/
def KeySet.limbsK (k : KeySet) : Nat := field k.record 5 1
/-- DNUM. -/
def KeySet.dnum (k : KeySet) : Nat := field k.record 6 1
/-- Limbs that each key-switching digit spans: ceil(L / dnum) (R24). -/
def KeySet.digitSpan (k : KeySet) : Nat := (field k.record 4 1 + k.dnum - 1) / k.dnum
/-- E_FRESH. -/
def KeySet.eFresh (k : KeySet) : Nat := field k.record 8 2
/-- E_KS. -/
def KeySet.eKs (k : KeySet) : Nat := field k.record 10 2
/-- E_CONV. -/
def KeySet.eConv (k : KeySet) : Nat := field k.record 12 2

/-- L + K as R29 takes it: from the job's key set when it names the set, from Table 2.1 otherwise. -/
def limbLimit (ks : Option KeySet) (psid : Nat) : Nat :=
  match ks with
  | some k => if k.packedPs = psid then k.limbsL + k.limbsK else packedMaxLimbs psid
  | none => packedMaxLimbs psid

/-! ## The header (Table 2.2) -/

/-- The fields of a header. -/
structure Hdr where
  fmt : Nat
  family : Nat
  psid : Nat
  layout : Nat
  ktag : Nat
  level : Nat
  noise : Nat
  scale : Nat
  count : Nat
  plen : Nat
  gtag : Nat
  deriving DecidableEq, Repr

/-- The fields that 64 header bytes hold. -/
def Hdr.ofBytes (b : List Byte) : Hdr :=
  ⟨field b 0 1, field b 1 1, field b 2 1, field b 3 1, field b 4 4, field b 8 1, field b 10 2, field b 12 4, field b 16 4,
   field b 24 8, field b 32 8⟩

/-- Bytes 0x00 to 0x3B of a header: reserved bytes are 0 (R26). -/
def Hdr.body (h : Hdr) : List Byte :=
  natLe 1 h.fmt ++ natLe 1 h.family ++ natLe 1 h.psid ++ natLe 1 h.layout ++ natLe 4 h.ktag ++ natLe 1 h.level ++ zeros 1 ++
    natLe 2 h.noise ++ natLe 4 h.scale ++ natLe 4 h.count ++ zeros 4 ++ natLe 8 h.plen ++ natLe 8 h.gtag ++ zeros 20

/-- The 64 bytes of a header written whole, with a fresh HCRC (R29). -/
def Hdr.bytes (h : Hdr) : List Byte := h.body ++ natLe 4 (crc32c h.body)

/-- HCRC holds over bytes 0x00 to 0x3B (R26). -/
def hcrcOk (b : List Byte) : Bool := field b 60 4 == crc32c (b.take 60)

/-- Limbs of an object: LEVEL + 1 (R32). -/
def Hdr.limbs (h : Hdr) : Nat := h.level + 1

/-- The polynomials of a packed object: a plaintext has only c0 (Table 2.3). -/
def Hdr.polys (h : Hdr) : Nat := if h.family = 2 then 1 else 2

/-- Ring degree of the object's set. -/
def Hdr.n (h : Hdr) : Nat := 2 ^ setLogN h.psid

/-- Rows of one limb of one LWE_ROW ciphertext: ceil(w / 128). -/
def lweRows (psid : Nat) : Nat := ceilDiv (lweW psid) 128

/-- Bytes of one element of an LWE_ROW object (R30). -/
def lweElemBytes (psid limbs : Nat) : Nat := limbs * lweRows psid * 512

/-- The payload size of Table 2.3; none where the layout is not one of the family. -/
def Hdr.size (h : Hdr) : Option Nat :=
  if h.family = 0 then
    if h.layout = 2 then some (h.count * h.limbs * lweRows h.psid * 512)
    else if h.layout = 3 then some (ceilDiv h.count 128 * h.limbs * lweW h.psid * 512)
    else none
  else if h.layout = 0 ∨ h.layout = 1 ∨ h.layout = 4 then some (h.polys * h.limbs * h.n * 4)
  else none

/-- An output header's form: the module writes FMT 0x20 (Table 2.2) and sets PLEN to the size of Table 2.3 (R29). -/
def Hdr.sized (h : Hdr) : Hdr := { h with fmt := 0x20, plen := h.size.getD 0 }

/-- LEVEL is one that the set can have (R29). -/
def levelOk (ks : Option KeySet) (psid level : Nat) : Bool :=
  if isDigitSet psid then decide (level < digitLimbs psid) else decide (level + 1 ≤ limbLimit ks psid)

/-- The header tests of R29 that fail as BAD_OPERAND: HCRC, FMT, FAMILY, LAYOUT, PSID, and a header that contradicts itself. -/
def hdrOk (ks : Option KeySet) (b : List Byte) : Bool :=
  let h := Hdr.ofBytes b
  hcrcOk b && h.fmt / 16 == 2 && decide (h.family ≤ 2) && decide (h.layout ≤ 4) &&
    (if h.family = 0 then isDigitSet h.psid else isPackedSet h.psid) && levelOk ks h.psid h.level &&
    (match h.size with | some n => h.plen == n | none => true)

/-- KTAG differs from the tag of the job's key set, on a ciphertext operand (R29). -/
def tagBad (ktag : Word) (h : Hdr) : Bool := h.family != 2 && h.ktag != ktag.toNat

/-- A layout of the header's own family (R31). -/
def layoutOfFamily (h : Hdr) : Bool := h.size.isSome

/-- An output's NOISE exceeds its budget (R42): a packed plaintext has none, and a saturated value exceeds every budget (R40). -/
def overBudget (h : Hdr) : Bool :=
  if h.family = 0 then decide (noiseMax h.psid h.level < h.noise ∨ 0xFFFF ≤ h.noise)
  else if h.family = 1 then decide (packedBudget h.scale < (h.noise : Int) ∨ 0xFFFF ≤ h.noise)
  else false

end Sys2Proof.Machine
end

