-- ==== Sys2Proof/Config.lean ====
section
/-! DEFINITION. Config.lean: what the manual leaves open or takes from a standard it names. Every constant here has no body,
so no proof can see a value of it: a claim holds for every value. Log entries 2, 6 and 7. -/

namespace Sys2Proof.Config

/-- A free choice or count, drawn at the model's own counter `State.fresh` (log entry 2). -/
opaque freeNat : Nat → Nat

/-- A free byte, drawn at the model's own counter (log entry 2). -/
opaque freeByte : Nat → Byte

/-- A free 32-bit word, drawn at the model's own counter (log entry 2). -/
opaque freeWord : Nat → Word

/-- SLH-DSA-SHA2-128s verification (FIPS 205, named by R343): key, message, signature (log entry 6). -/
opaque slhVerify : List Byte → List Byte → List Byte → Bool

/-- The module's identity key pair from IDSEED: IDPUB (R355, FIPS 205; log entry 6). -/
opaque idPublicKey : List Byte → List Byte

/-- SLH-DSA-SHA2-128f signing with the identity key: IDSEED, message (R357, FIPS 205; log entry 6). -/
opaque idSign : List Byte → List Byte → List Byte

/-- SHA-256 of the mask ROM, measurement M0 (R356): the ROM's bytes are not in the manual (log entry 7). -/
opaque romDigest : List Byte

/-- The feature word of a firmware, by its image header (R299; log entry 7). -/
opaque fabFeatures : List Byte → Dword

/-- The hash that chooses a port from SMOD, DMOD, session and slot (R308; log entry 24). -/
opaque portHash : Nat → Nat → Nat → Nat → Nat

/-- The choices of a placement, by the image, the stations that may be granted, the state of their engines and the number of the
choice (R232; log entry 10). -/
opaque placement : List Byte → List Nat → List Nat → Nat → Nat

end Sys2Proof.Config
end

