-- ==== Sys2Proof/Machine/Ops.lean ====
section
/-! DEFINITION. Ops.lean: the operations that the commands share: when an event occurs, free choices, one station's state, the
Pantry through a window, the job a station works for, the error log, and ending a job by a fault. -/

namespace Sys2Proof.Machine

/-! ## When an event occurs -/

/-- An event takes its effect where its condition holds, and otherwise does not occur: the state stays (log entry 1). After a
reference loss nothing the module does is specified (R360), and the model is stuck until the next cold reset. -/
def occurs (s : State) (cond : Bool) (effect : State → State) : Host.Outcome State Fault Refusal :=
  if cond && !s.power.unspecified then .next (effect s) else .next s

/-! ## Free choices (log entry 2) -/

/-- The model's counter moved on, so that the next free value is another one. -/
def State.tick (s : State) : State := { s with fresh := s.fresh + 1 }

/-- A choice among candidates by a free number; none when there is no candidate, the candidate when there is one. -/
def choose {α : Type} (n : Nat) : List α → Option α
  | [] => none
  | [x] => some x
  | cands => cands[n % cands.length]?

/-- A free choice among candidates at the model's counter. -/
def State.pick {α : Type} (s : State) (cands : List α) : Option α := choose (Config.freeNat s.fresh) cands

/-- A status code that the manual does not name for an event: some code of Table 0.7. -/
def State.someCode (s : State) : Byte := (s.pick Code.all).getD Code.internal

/-- So many free bytes. -/
def State.freeBytes (s : State) (n : Nat) : List Byte := (List.range n).map fun i => Config.freeByte (s.fresh + i)

/-! ## One station -/

/-- Change one station. -/
def State.updStn (s : State) (st : Fin 16) (f : Station → Station) : State := { s with stations := vupd s.stations st f }

/-- Replace one station. -/
def State.putStn (s : State) (st : Fin 16) (t : Station) : State := { s with stations := s.stations.set st t }

/-- Change every station that a test picks. -/
def State.mapStns (s : State) (p : Fin 16 → Bool) (f : Station → Station) : State :=
  { s with stations := Vector.ofFn fun i => if p i then f s.stations[i] else s.stations[i] }

/-- Change the I/O-die stream engine that a transfer uses: one of those present; which one is a free choice (R198). -/
def State.updIo (s : State) (f : StreamEng → StreamEng) : State :=
  match s.pick ((bitsSet 4 s.grade.iodies.toNat).flatMap fun d => (List.range 8).map fun e => (d, e)) with
  | some (d, e) => { s with ioSes := vupdN s.ioSes d fun v => vupdN v e f }
  | none => s

/-- Bytes that an I/O-die stream engine moved (R198, SE_BYTES). -/
def State.ioMoved (s : State) (n : Nat) : State := s.updIo fun x => { x with bytes := wrapAdd x.bytes n }

/-- A transfer of an I/O-die stream engine faults: the engine keeps the code, for descriptor 0 of its list (R196, R198). -/
def State.ioFault (s : State) (c : Byte) : State := s.updIo fun x => { x with faulted := true, code := c, desc := 0 }

/-! ## Jobs -/

/-- A job's ID: index in [11:0], generation in [31:12] (R263). -/
def jobId (j : Nat) (gen : BitVec 20) : Word := BitVec.ofNat 32 (gen.toNat * 4096 + j)

/-- The job whose role the station holds. -/
def State.stnJob (s : State) (t : Station) : Option Job := t.job.bind s.crown.jobs.get?

/-- The key set of a job: the one recorded at admission (R265). -/
def State.jobKeySet (s : State) (j : Job) : Option KeySet := s.crown.keysets.get? j.ktag.toNat

/-- The key set of the station's job. -/
def State.stnKeySet (s : State) (t : Station) : Option KeySet := (s.stnJob t).bind s.jobKeySet

/-- The tag of the job's key set (R29). -/
def State.stnTag (s : State) (t : Station) : Word := ((s.stnJob t).map (·.ktag)).getD 0

/-- The body of a session record that CV selects (R253). -/
def Session.body (x : Session) : SesBody := if x.cv then x.body1 else x.body0

/-- A session record: a FREE one where the table lists none (R252). -/
def State.session (s : State) (i : Nat) : Session := s.crown.sessions.getD i Session.reset

/-- Change one session record. -/
def State.updSession (s : State) (i : Nat) (f : Session → Session) : State :=
  { s with crown := { s.crown with sessions := s.crown.sessions.upd i f } }

/-- Change one job-table entry. -/
def State.updJob (s : State) (j : Nat) (f : Job → Job) : State :=
  { s with crown := { s.crown with jobs := s.crown.jobs.upd j f } }

/-- The job runs: its stations work (R263). -/
def State.jobRuns (s : State) (t : Station) : Bool := ((s.stnJob t).map fun j => j.state == .running).getD false

/-! ## The Pantry through the job's window (R166, R170, R171) -/

/-- The window register granted to the job. -/
def Station.window (t : Station) : Win := t.pantry.wins[t.win]

/-- The window's size and base in bytes. -/
def Win.bytes (w : Win) : Nat := 65536 * w.size.toNat
/-- Base in bytes. -/
def Win.baseAddr (w : Win) : Nat := 65536 * w.base.toNat

/-- `len` bytes from a window offset lie in the window (R171). -/
def Station.inWin (t : Station) (off : Int) (len : Nat) : Bool :=
  t.window.valid && decide (0 ≤ off) && decide (off + len ≤ (t.window.bytes : Int))

/-- The Pantry address of a window offset (R170). -/
def Station.phys (t : Station) (off : Nat) : Nat := t.window.baseAddr + off

/-- Read bytes at a window offset. -/
def Station.rd (t : Station) (off len : Nat) : List Byte := t.pantry.mem.readN (t.phys off) len

/-- Write bytes at a window offset. -/
def Station.wr (t : Station) (off : Nat) (bs : List Byte) : Station :=
  { t with pantry := { t.pantry with mem := t.pantry.mem.writeN (t.phys off) bs } }

/-- Write several pieces, in order. -/
def Station.wrAll (t : Station) (ws : List (Nat × List Byte)) : Station := ws.foldl (fun t w => t.wr w.1 w.2) t

/-- A byte that holds no defined contents: a free value of the operation that started at the model's counter `n`, one for each
window offset (log entry 9). -/
def openByte (n off : Nat) : Byte := Config.freeByte (2 ^ 64 * (n + 1) + off)

/-- The destination bytes that results will reach, which hold no defined contents before the signal (R79, R92, R108, R131). -/
def Station.blur (t : Station) (n : Nat) (ws : List (Nat × List Byte)) : Station :=
  t.wrAll (ws.map fun w => (w.1, (List.range w.2.length).map fun i => openByte n (w.1 + i)))

/-- The region of a Pantry address is DUAL (R166, R168). -/
def Pantry.isDual (p : Pantry) (addr : Nat) : Bool := bitAt p.dual.toNat (addr / 0x400000 % 8)

/-- The physical bank and row of a Pantry address (R166). -/
def pantryBank (a : Nat) : Nat × Nat :=
  let row := fld a 9 11
  (fld a 23 2 * 8 + (fld a 20 3 ^^^ fld row 0 3 ^^^ fld row 3 2), row)

/-! ## The error log (R382, R383) -/

/-- An event reaches the log's queue; one that finds it full is counted as lost (R383). -/
def State.logEvt (s : State) (e : LogEvt) : State :=
  if s.mon.queue.length < 256 then { s with mon := { s.mon with queue := s.mon.queue ++ [e] } }
  else { s with mon := { s.mon with lost := satAdd s.mon.lost 1 } }

/-- The classes of Table 22.3. -/
def clsNote : Byte := 0
/-- JOB. -/
def clsJob : Byte := 1
/-- UNIT. -/
def clsUnit : Byte := 2
/-- MODULE. -/
def clsModule : Byte := 3

/-- An event that names neither a job nor a session (Table 22.4). -/
def plainEvt (cls code kind unit station : Byte) (detail : List Byte) : LogEvt :=
  ⟨cls, code, kind, unit, station, 0xFF, 0xFFFF, 0, padTo 32 detail⟩

/-- A JOB event of a station's engine: the job, its session and its function (Table 22.4). -/
def State.jobEvt (s : State) (st : Fin 16) (unit : Nat) (code : Byte) (detail : List Byte) : LogEvt :=
  let t := s.stations[st]
  let f : Byte := ((s.stnJob t).map fun j => BitVec.ofNat 8 j.func.val).getD 0xFF
  let ses : BitVec 16 := ((s.stnJob t).map fun j => BitVec.ofNat 16 j.ses).getD 0xFFFF
  let jid : Word := match t.job, s.stnJob t with | some n, some j => jobId n j.gen | _, _ => 0
  ⟨clsJob, code, 1, BitVec.ofNat 8 unit, BitVec.ofNat 8 st.val, f, ses, jid, padTo 32 detail⟩

/-- A count saturates: a NOTE once until the count is cleared (R378, R382). The key tells counts apart, the offset is logged;
the manual names no status code for it. -/
def State.noteSat (s : State) (key : Nat) (kind unit station : Byte) (off : Nat) : State :=
  if s.mon.satMarks.contains key then s
  else
    ({ s with mon := { s.mon with satMarks := key :: s.mon.satMarks } }.logEvt
      (plainEvt clsNote s.someCode kind unit station (natLe 4 off))).tick

/-- Forget that counts with these keys saturated: they were cleared. -/
def State.unmark (s : State) (keys : List Nat) : State :=
  { s with mon := { s.mon with satMarks := s.mon.satMarks.filter fun k => !keys.contains k } }

/-! ## Stopping a station and ending a job by a fault (R116, R131, R144, R164, R197, R266) -/

/-- A Kettle stops: no instruction runs on it, and its key buffers and key-switch FIFO are discarded. -/
def Kettle.stop (k : Kettle) : Kettle :=
  { k with phase := .idle, batch := 0, funcs := 0, rxStep := 0, rxKs := 0, rxPass := 0, kbuf0 := [], kbuf1 := [], ksq := [] }

/-- A Blocker stops: it holds no borrowed engine and no key words, and its staging buffer is cleared (R144). -/
def Blocker.stop (b : Blocker) : Blocker :=
  { b with phase := 0, pass := 0, keys := [], c0 := [], c1 := [], kettles := 0, whisks := 0, griddles := 0 }

/-- A borrowed Griddle is released: slot 7 is marked unloaded (R143). -/
def Station.unload7 (t : Station) : Vector Griddle 2 :=
  Vector.ofFn fun g =>
    if bitAt t.blocker.griddles.toNat g.val then { t.griddles[g] with slots := t.griddles[g].slots.set 7 Slot.reset }
    else t.griddles[g]

/-- A stream engine stops: reads in flight are dropped, all tags released, the queue and the descriptor buffer cleared, and the
Band counters of its host path start again at 0 (R197, R322). -/
def StreamEng.stop (e : StreamEng) : StreamEng :=
  { e with
    ahead := []
    run := []
    chunks := []
    fencing := false
    bandNext := 0
    bandNextW := 0
    bandTx := 0
    bandTxW := 0 }

/-- A station stops at the next ACLK boundary (R266): nothing waits or runs on it any more. -/
def Station.stop (t : Station) : Station :=
  { t with
    run := false
    load := none
    queues := Vector.replicate 22 []
    griddles := t.unload7.map fun g => { g with keyFifo := [] }
    kettles := t.kettles.map Kettle.stop
    blocker := t.blocker.stop
    funnel := { t.funnel with streams := [] }
    ses4 := t.ses4.map StreamEng.stop }

/-- A job that can still be ended: before its commit point (Table 15.4). -/
def JobState.abortable : JobState → Bool
  | .admitting => true
  | .running => true
  | _ => false

/-- A job ends: its TAG and status enter the result FIFO of 32, or hold until it has room (R337). -/
def Mortar.finish (m : Mortar) (tag : BitVec 16) (code : Byte) : Mortar :=
  if m.results.length < 32 then { m with results := m.results ++ [(tag, code)], jobs := wrapAdd m.jobs 1 }
  else { m with held := m.held ++ [(tag, code)] }

/-- A job with this TAG is queued, running or suspended. -/
def Mortar.active (m : Mortar) (tag : BitVec 16) : Bool :=
  m.queue.any (fun j => j.tag == tag) || m.running.any (fun r => r.job.tag == tag) || m.saved.any fun r => r.job.tag == tag

/-- Slot i of Mortar (R328). -/
def Mortar.slot (m : Mortar) (i : Nat) : MSlot := m.slots.toList.getD i ⟨false, 0, 0⟩

/-- How many work slots an operation uses (Table 19.2). -/
def mopWork (op : Nat) : Nat := match op with | 1 => 8 | 2 => 8 | 3 => 8 | 4 => 4 | 0x13 => 2 | 0x14 => 2 | _ => 0

/-- The work slots of a job. -/
def MJob.works (j : MJob) : List Nat := (List.range (mopWork j.op.toNat)).map (j.sw.toNat + ·)

/-- The work slots of a job that has ended hold unspecified contents: free values at the model's counter `n` (R334). -/
def Mortar.spoil (m : Mortar) (n : Nat) (j : MJob) : Mortar :=
  { m with mem := j.works.foldl (fun t i =>
      (List.range (m.slot i).len.toNat).foldl (fun t k =>
        Tab.put t ((m.slot i).base.toNat + k)
          (BitVec.ofNat 64 (Config.freeNat (2 ^ 64 * (n + 1) + (m.slot i).base.toNat + k)))) t) m.mem }

/-- The queued, running or suspended job with a TAG ends with status ABORTED; a TAG of no active job is ignored (R338). The work slots
of one that had started are spoiled. -/
def Mortar.cancel (m : Mortar) (n : Nat) (tag : BitVec 16) : Mortar :=
  if m.active tag then
    let begun : List MRun := (m.running.toList ++ m.saved).filter fun r => r.job.tag == tag
    let m1 : Mortar := begun.foldl (fun x r => Mortar.spoil x n r.job) m
    { m1 with
      queue := m.queue.filter fun j => j.tag != tag
      running := m.running.filter fun r => r.job.tag != tag
      saved := m.saved.filter fun r => r.job.tag != tag }.finish tag Code.aborted
  else m

/-- Every station whose role the job holds. -/
def State.holds (s : State) (j : Nat) (st : Fin 16) : Bool := s.stations[st].held && s.stations[st].job == some j

/-- The swap to ABORTING with a cause, where the job has not passed its commit point, and the stop of all its stations. A later
cause finds ABORTING and changes nothing (R264, R266). -/
def State.abortJob (s : State) (j : Nat) (cause : Byte) (timeout : Bool := false) : State :=
  match s.crown.jobs.get? j with
  | none => s
  | some job =>
    if job.state.abortable then
      let s1 := s.updJob j fun x => { x with state := .aborting, cause := cause, timeout := timeout }
      let s2 := s1.mapStns (s.holds j) Station.stop
      match job.mtag with
      | some tag => { s2 with
          mortar := s2.mortar.cancel s2.fresh tag
          crown := { s2.crown with waits := s2.crown.waits.filter fun w => w.mtag != tag } }
      | none => s2
    else s

/-- An instruction of the station faults: the station's job ends (R266). -/
def State.instrFault (s : State) (st : Fin 16) (code : Byte) : State :=
  match s.stations[st].job with
  | some j => s.abortJob j code
  | none => s

/-- A transfer faults: the engine records the code and the descriptor, and the job ends ABORTED (R196). -/
def State.seFault (s : State) (st : Fin 16) (e : Fin 4) (code : Byte) (idx : Nat) : State :=
  (s.updStn st fun t => { t with ses4 := vupd t.ses4 e fun x =>
    { x with faulted := true, code := code, desc := BitVec.ofNat 16 idx } }).instrFault st code

/-- An INTERNAL fault attributed to an engine is tracked for quarantine (R385). -/
def State.countInternal (s : State) (st : Fin 16) (unit : Nat) : State :=
  s.updStn st fun t => { t with internals := t.internals.put unit (t.internals.getD unit 0 + 1) }

/-- A fault that hardware logs as a JOB event (Table 22.3), then ends the job. -/
def State.loggedFault (s : State) (st : Fin 16) (unit : Nat) (code : Byte) (detail : List Byte) : State :=
  (s.logEvt (s.jobEvt st unit code detail)).instrFault st code

/-! ## Engines and queues -/

/-- The queues of the engines of each class (Table 13.4). -/
def qGriddle (g : Fin 2) : Fin 22 := ⟨1 + g.val, by omega⟩
/-- Whisks. -/
def qWhisk (w : Fin 2) : Fin 22 := ⟨3 + w.val, by omega⟩
/-- Kettles. -/
def qKettle (k : Fin 8) : Fin 22 := ⟨5 + k.val, by omega⟩
/-- Skillets. -/
def qSkillet (v : Fin 2) : Fin 22 := ⟨13 + v.val, by omega⟩
/-- The Card. -/
def qCard : Fin 22 := 15
/-- The Blocker. -/
def qBlocker : Fin 22 := 16
/-- The Funnel. -/
def qFunnel : Fin 22 := 17
/-- Stream engines. -/
def qStream (e : Fin 4) : Fin 22 := ⟨18 + e.val, by omega⟩

/-- The engine index of the error log for a queue (Table 22.4): the sequencer is 21, a queue q is engine q - 1. -/
def engineIndex (q : Fin 22) : Nat := if q.val = 0 then 21 else q.val - 1

/-- Columns that a Griddle presents: 128 less eight for each bypassed group (R84). -/
def Griddle.width (g : Griddle) : Nat := 128 - 8 * popCount 16 g.active.toNat

/-- A Griddle is enabled: not fused off, not quarantined, not held (R2, R84, R385). -/
def State.griddleOn (s : State) (st : Fin 16) (g : Fin 2) : Bool :=
  !s.grade.fused.contains (2 * st.val + g.val) && !bitAt s.crown.quar[st].toNat g.val && !s.stations[st].griddles[g].held

/-- The physical unit is in service on the station (Table 13.4, R386). -/
def State.unitOn (s : State) (st : Fin 16) (u : Fin 22) : Bool :=
  if u = 1 then s.griddleOn st 0 else if u = 2 then s.griddleOn st 1 else !bitAt s.crown.quar[st].toNat (engineIndex u)

/-- Change entry `i` of a queue. -/
def Station.updAt (t : Station) (q : Fin 22) (i : Nat) (f : QEntry → QEntry) : Station :=
  { t with queues := vupd t.queues q fun l => lupd l i f }

/-- Take entry `i` off a queue. -/
def Station.dropAt (t : Station) (q : Fin 22) (i : Nat) : Station :=
  { t with queues := vupd t.queues q fun l => l.eraseIdx i }

/-- The first entry of a list that a test picks, with its place. -/
def firstWith {α : Type} (p : α → Bool) (l : List α) : Option (Nat × α) :=
  (l.findIdx? p).bind fun i => (l[i]?).map fun e => (i, e)

/-- The opcode of an instruction word (Table 13.5). -/
def opOf (iw : BitVec 128) : Nat := fld iw.toNat 0 8

/-- The entry of a queue that has issued and whose operation has not started, when its opcode is `op`. Entries issue and start
in queue order, so it is the first that is not running (R222). -/
def Station.issuedOp (t : Station) (q : Fin 22) (op : Nat) : Option (Nat × QEntry) :=
  (firstWith (fun e => e.phase != .running) t.queues[q]).filter fun ie => ie.2.phase == .issued && opOf ie.2.iw == op

/-- The first entry of a queue that runs, has check units left, and has one of these opcodes. -/
def Station.runningOp (t : Station) (q : Fin 22) (ops : List Nat) : Option (Nat × QEntry) :=
  firstWith (fun e => e.phase == .running && ops.contains (opOf e.iw) && decide (0 < e.left)) t.queues[q]

/-- What an operation answers at issue: a fault's code, or the station after its writes and the entry as it then runs. -/
inductive Plan where
  /-- A check failed; nothing is written. -/
  | fault (c : Byte)
  /-- The operation takes its effect. -/
  | go (t : Station) (e : QEntry)
  /-- A check during execution failed: what the operation had done by then stands, and it faults. -/
  | stop (t : Station) (c : Byte)
  deriving DecidableEq, Repr

/-- An operation starts: it faults and ends the job, or its effect stands and its entry runs; the model's counter moves on, so
that free values of the next operation are others. -/
def State.startOp (s : State) (st : Fin 16) (q : Fin 22) (i : Nat) (p : Plan) : State :=
  match p with
  | .fault c => s.instrFault st c
  | .go t e => (s.putStn st (t.updAt q i fun _ => { e with phase := .running })).tick
  | .stop t c => ((s.putStn st t).instrFault st c).tick

/-- A row that starts an operation: it occurs when the station's job runs and the queue's next entry has issued with that
opcode. -/
def opRow (st : Fin 16) (q : Fin 22) (op : Nat) (plan : State → Station → QEntry → Plan) (s : State) :
    Host.Outcome State Fault Refusal :=
  occurs s (s.jobRuns s.stations[st] && (s.stations[st].issuedOp q op).isSome) fun s =>
    match s.stations[st].issuedOp q op with
    | some (i, e) => s.startOp st q i (plan s s.stations[st] e)
    | none => s

/-- A row that works on a running operation; its effect is given the entry's place in the queue. -/
def runRow (st : Fin 16) (q : Fin 22) (ops : List Nat) (ready : State → Station → QEntry → Bool)
    (effect : State → Station → Nat → QEntry → State) (s : State) : Host.Outcome State Fault Refusal :=
  occurs s (s.jobRuns s.stations[st] &&
      ((s.stations[st].runningOp q ops).map fun ie => ready s s.stations[st] ie.2).getD false) fun s =>
    match s.stations[st].runningOp q ops with
    | some (i, e) => effect s s.stations[st] i e
    | none => s

/-- One check unit of a running entry has ended. -/
def QEntry.unitDone (e : QEntry) : QEntry := { e with left := e.left - 1, done := e.done + 1 }

/-- One check unit of a running entry has ended with results. -/
def QEntry.unitOut (e : QEntry) (ws : List (Nat × List Byte)) : QEntry := { e.unitDone with out := e.out ++ ws }

end Sys2Proof.Machine
end

