-- ==== Sys2Proof/Machine/Checks.lean ====
section
/-! DEFINITION. Checks.lean: what a residue check's outcome does (R56 to R60), and what the Pantry's code finds while an engine
reads (R181). -/

namespace Sys2Proof.Machine

/-- The key under which a count's first saturation is remembered: block of registers, instance, field. -/
def satKey (block idx fieldNo : Nat) : Nat := block * 2 ^ 20 + idx * 4 + fieldNo

/-- A count has just reached its largest value. -/
def justSat {w : Nat} (old new : BitVec w) : Bool := old != new && new.toNat == 2 ^ w - 1

/-- Change one STN_CHKCNT. -/
def State.updChk (s : State) (st : Fin 16) (e : Fin 12) (f : ChkCnt → ChkCnt) : State :=
  s.updStn st fun t => { t with chk := vupd t.chk e f }

/-- A NOTE for a station register's count that has just saturated. -/
def State.noteIf (s : State) (b : Bool) (key : Nat) (kind unit station : Byte) (off : Nat) : State :=
  if b then s.noteSat key kind unit station off else s

/-- A replay that passed: REPLAYS counts (R60). -/
def State.countReplay (s : State) (st : Fin 16) (e : Fin 12) : State :=
  let c := s.stations[st].chk[e]
  (s.updChk st e fun c => { c with replays := satAdd c.replays 1 }).noteIf (justSat c.replays (satAdd c.replays 1))
    (satKey 1 (st.val * 12 + e.val) 0) 1 (BitVec.ofNat 8 e.val) (BitVec.ofNat 8 st.val) (0x400 + 4 * e.val)

/-- A CHECK_REPLAY_FAILED: FAILS counts, and Crown's record of column groups takes the mask (R60, R385). -/
def State.countFail (s : State) (st : Fin 16) (e : Fin 12) (groups : BitVec 16) : State :=
  let c := s.stations[st].chk[e]
  (s.updChk st e fun c => { c with fails := satAdd c.fails 1, groups := c.groups ||| groups }).noteIf
    (justSat c.fails (satAdd c.fails 1)) (satKey 1 (st.val * 12 + e.val) 1) 1 (BitVec.ofNat 8 e.val) (BitVec.ofNat 8 st.val)
    (0x400 + 4 * e.val)

/-- The outcome of the check of unit number `n` on a checked engine: it goes on with `ok`, or the instruction faults
CHECK_REPLAY_FAILED, which is logged with the unit's index and the column-group mask (R57, Table 22.4). -/
def State.checked (s : State) (st : Fin 16) (e : Fin 12) (v : Verdict) (n : Nat) (ok : State → State) : State :=
  match v with
  | .pass => ok s
  | .replayed _ => ok (s.countReplay st e)
  | .failed g => (s.countFail st e g).loggedFault st e.val Code.checkReplayFailed (natLe 4 n ++ natLe 2 g.toNat)

/-- What a Pantry's registers keep of an event of its SECDED code (R181, PAN_ECC). -/
def State.eccCount (s : State) (st : Fin 16) (ecc : EccEvent) : State :=
  match ecc with
  | .clean => s
  | .corrected n =>
    let c := s.stations[st].pantry.corr
    (s.updStn st fun t => { t with pantry := { t.pantry with corr := satAdd t.pantry.corr n } }).noteIf
      (justSat c (satAdd c n)) (satKey 2 st.val 0) 1 22 (BitVec.ofNat 8 st.val) 0x1120
  | .uncorrectable bank row =>
    let c := s.stations[st].pantry.uncorr
    (s.updStn st fun t =>
      { t with pantry := { t.pantry with uncorr := satAdd t.pantry.uncorr 1, bank := bank, row := row } }).noteIf
      (justSat c (satAdd c 1)) (satKey 2 st.val 1) 1 22 (BitVec.ofNat 8 st.val) 0x1120

/-- What the SECDED code found: corrected errors are counted; an uncorrectable word is counted, its place is kept, and the
reading instruction faults INTERNAL, which is logged (R181). `unit` is the engine the fault is attributed to. -/
def State.eccSeen (s : State) (st : Fin 16) (unit : Nat) (ecc : EccEvent) (ok : State → State) : State :=
  match ecc with
  | .uncorrectable bank row =>
    ((s.eccCount st ecc).countInternal st unit).loggedFault st 22 Code.internal (natLe 4 (bank.toNat * 2048 + row.toNat))
  | _ => ok (s.eccCount st ecc)

/-- A row that starts an operation which reads Pantry rows: what the code finds is told with it, and a word that cannot be corrected
ends the operation before anything is written (R181). -/
def opRead (st : Fin 16) (q : Fin 22) (op : Nat) (ecc : EccEvent) (plan : State → Station → QEntry → Plan) (s : State) :
    Host.Outcome State Fault Refusal :=
  occurs s (s.jobRuns s.stations[st] && (s.stations[st].issuedOp q op).isSome) fun s =>
    match s.stations[st].issuedOp q op with
    | some (i, e) => s.eccSeen st (engineIndex q) ecc fun s1 => s1.startOp st q i (plan s1 s1.stations[st] e)
    | none => s

end Sys2Proof.Machine
end

