-- ==== Sys2Proof/Machine/MemOps.lean ====
section
/-! DEFINITION. MemOps.lean: module memory as every requester reaches it: regions, the place of a unit, writes with their check
value, reads with poison (R199 to R210). -/

namespace Sys2Proof.Machine

/-! ## Regions and places (R201, R202) -/

/-- One GiB. -/
def gib : Nat := 2 ^ 30

/-- A module address lies in a region. -/
def Region.has (r : Region) (ma : Nat) : Bool :=
  r.valid && decide (gib * r.base.toNat ≤ ma ∧ ma < gib * (r.base.toNat + r.len.toNat))

/-- The region of a module address; an address in none is never issued to a controller (R201). -/
def ModMem.regionOf (m : ModMem) (ma : Nat) : Option Region := m.regions.toList.find? fun r => r.has ma

/-- The populated stacks in ascending site order: all of them, or those adjacent to HOME (Table 1.1, R201). -/
def Grade.stackSet (g : Grade) (r : Region) : List Nat :=
  (bitsSet 8 g.sites.toNat).filter fun site => r.striped || site / 2 == r.home.val

/-- Site and slocal of a module address (R202). -/
def State.place (s : State) (ma : Nat) : Option (Nat × Nat) :=
  (s.mem.regionOf ma).bind fun r =>
    let off := ma - gib * r.base.toNat
    let g := off / 4096
    let set := s.grade.stackSet r
    set[g % set.length]?.map fun site => (site, gib * r.sb.toNat + 4096 * (g / set.length) + off % 4096)

/-- Channel and channel address of a slocal (R202). -/
def channelOf (slocal : Nat) : Nat × Nat :=
  (fld slocal 11 4 ^^^ fld slocal 15 4, fld slocal 15 22 * 2048 + fld slocal 0 11)

/-- The CRC-16 of a unit: its 64 data bytes, then slocal[36:6] as four bytes (R205). -/
def unitCrc (bytes : List Byte) (slocal : Nat) : BitVec 16 := BitVec.ofNat 16 (crc16 (bytes ++ natLe 4 (fld slocal 6 31)))

/-! ## Writes -/

/-- Units that a range touches, by address / 64. -/
def unitsOf (ma len : Nat) : List Nat := if len = 0 then [] else (List.range ((ma + len - 1) / 64 - ma / 64 + 1)).map (ma / 64 + ·)

/-- The controller accepts a write: its bytes, and the CRC of every unit it touches (R203, R205). -/
def State.memStore (s : State) (ma : Nat) (bytes : List Byte) : State :=
  let data := s.mem.data.writeN ma bytes
  { s with mem := { s.mem with
    data := data
    crcs := (unitsOf ma bytes.length).foldl (fun c u =>
      match s.place (u * 64) with
      | some p => c.put u (unitCrc (data.readN (u * 64) 64) p.2)
      | none => c) s.mem.crcs } }

/-- A write of whole units replaces what they held, poison with it (R206). -/
def State.memPut (s : State) (ma : Nat) (bytes : List Byte) : State :=
  let us := unitsOf ma bytes.length
  let s1 := s.memStore ma bytes
  { s1 with mem := { s1.mem with
    poison := s1.mem.poison.filter fun u => !us.contains u
    counted := s1.mem.counted.filter fun u => !us.contains u } }

/-! ## Reads and poison (R206, R207) -/

/-- Change one stack's registers. -/
def State.updStack (s : State) (site : Nat) (f : Stack → Stack) : State :=
  { s with mem := { s.mem with stackRegs := vupdN s.mem.stackRegs site f } }

/-- A stack's registers by site number. -/
def State.stackAt (s : State) (site : Nat) : Stack := s.mem.stackRegs.toList.getD site Stack.reset

/-- The NOTEs of the counts of a stack that have just saturated. -/
def State.noteStack (s : State) (site : Nat) (old : Stack) : State :=
  let new := s.stackAt site
  let note := fun (b : Bool) (n : Nat) (s : State) =>
    s.noteIf b (satKey 3 site n) 2 (BitVec.ofNat 8 site) 0xFF (0x408 + 0x40 * site)
  note (justSat old.poisonCnt new.poisonCnt) 2
    (note (justSat old.recov new.recov) 1 (note (justSat old.detect new.detect) 0 s))

/-- A compare failed and `fails` re-reads failed after it: recovered below three, poisoned at three, when the module address is
recorded and the error log gets an entry (R206). -/
def State.crcEvent (s : State) (ma site fails : Nat) : State :=
  let old := s.stackAt site
  if fails < 3 then
    (s.updStack site fun x => { x with detect := satAdd x.detect (1 + fails), recov := satAdd x.recov 1 }).noteStack site old
  else
    ((s.updStack site fun x =>
      { x with
        detect := satAdd x.detect 4
        poisonCnt := satAdd x.poisonCnt 1
        erraddr := BitVec.ofNat 40 (ma / 64 * 64) }).noteStack site old).logEvt
      (plainEvt clsJob Code.memPoison 2 (BitVec.ofNat 8 site) 0xFF (natLe 8 (ma / 64 * 64)))

/-- A read meets a poisoned unit: its re-reads all fail, which is counted and logged once for each read; the re-reads of this read may
have been counted by MEM_CRC_REREAD already (R206). -/
def State.poisonSeen (s : State) (u : Nat) : State :=
  if s.mem.counted.contains u then { s with mem := { s.mem with counted := s.mem.counted.erase u } }
  else
    match s.place (u * 64) with
    | some p => s.crcEvent (u * 64) p.1 3
    | none => s

/-- The controller's compare on a read: the CRC of the unit as it stands is not the one stored beside it (R205). -/
def State.crcDiffers (s : State) (u : Nat) : Bool :=
  match s.mem.crcs.get? u, s.place (u * 64) with
  | some c, some p => c != unitCrc (s.mem.data.readN (u * 64) 64) p.2
  | _, _ => false

/-- Units that a range touches and that read as poisoned. -/
def State.poisonIn (s : State) (ma len : Nat) : List Nat :=
  (unitsOf ma len).filter fun u => s.mem.poison.contains u || s.crcDiffers u

/-- The bytes of a range as stored. Margin mode does not preserve what memory holds: its bytes are free values (R214). -/
def State.memBytes (s : State) (ma len : Nat) : List Byte :=
  if s.mem.margin then (List.range len).map fun i => openByte s.fresh (ma + i) else s.mem.data.readN ma len

/-- A read: its bytes, or none where a unit is poisoned, with what the controllers count (R206). -/
def State.memGet (s : State) (ma len : Nat) : State × Option (List Byte) :=
  let ps := s.poisonIn ma len
  if ps.isEmpty then (s, some (s.memBytes ma len)) else (ps.foldl State.poisonSeen s, none)

/-- A Sieve read is counted at its stack (MEM_SIEVE). -/
def State.countSieve (s : State) (ma : Nat) : State :=
  match s.place ma with
  | some p => s.updStack p.1 fun x => { x with sieve := wrapAdd x.sieve 1 }
  | none => s

/-- A Sieve read of 32 bytes (R210). -/
def State.sieve (s : State) (ma : Nat) : State × Option (List Byte) := (s.countSieve ma).memGet ma 32

/-! ## Ranges that end within a unit -/

/-- The module-memory pieces of a range from an offset beyond V0: V0, then V1 directly after it. -/
def Buffer.pieces (b : Buffer) (o len : Nat) : List (Nat × Nat) :=
  let n0 := min len (b.len - o)
  (if n0 = 0 then [] else [(b.v0 + o, n0)]) ++ (if n0 = len then [] else [(b.v1 + (o + n0 - b.len), len - n0)])

/-- A write unit by unit: a part of a unit is a read-modify-write, which does not write a poisoned unit (R203, R207). -/
def State.barWrite (s : State) (ma : Nat) (bytes : List Byte) : State :=
  (unitsOf ma bytes.length).foldl (fun s u =>
    let lo := max ma (u * 64)
    let hi := min (ma + bytes.length) (u * 64 + 64)
    let part := slice bytes (lo - ma) (hi - lo)
    if part.length < 64 ∧ s.mem.poison.contains u = true then s.poisonSeen u else s.memPut lo part) s

/-- Crown writes bytes of a structure that only it writes, such as the key page map: it writes the whole unit, whose other bytes it
knows, so that no read-modify-write arises (R203). -/
def State.crownPut (s : State) (ma : Nat) (bytes : List Byte) : State :=
  s.memPut (ma / 64 * 64) (splice (s.memBytes (ma / 64 * 64) 64) (ma % 64) bytes)

/-- Zeroing of whole units (R213, R259): they hold no data, no poison and the matching CRC again. -/
def State.memZero (s : State) (ma len : Nat) : State :=
  let inside := fun u => decide (ma ≤ u * 64 ∧ u * 64 + 64 ≤ ma + len)
  { s with mem := { s.mem with
    data := s.mem.data.zeroRange ma len
    crcs := s.mem.crcs.filter fun e => !inside e.1
    poison := s.mem.poison.filter fun u => !inside u
    counted := s.mem.counted.filter fun u => !inside u } }

/-! ## The key page map in memory (R147) -/

/-- A map entry from its 16 bytes (Table 9.1). -/
def KpmEntry.ofBytes (b : List Byte) : KpmEntry :=
  let lo := field b 0 8
  ⟨bitAt lo 0, BitVec.ofNat 2 (fld lo 1 2), BitVec.ofNat 10 (fld lo 10 10), 2 ^ 20 * fld lo 20 44, BitVec.ofNat 32 (field b 8 4),
    BitVec.ofNat 6 (field b 12 1)⟩

/-- The 16 bytes of a map entry. -/
def KpmEntry.bytes (e : KpmEntry) : List Byte :=
  natLe 8 (b2n e.valid + e.loc.toNat * 2 + e.peer.toNat * 2 ^ 10 + 2 ^ 20 * (e.paddr / 2 ^ 20)) ++ natLe 4 e.ktag.toNat ++
    natLe 4 e.func.toNat

/-- Every Funnel invalidates the entries of these map indices (R150, R160). -/
def State.invalidate (s : State) (first n : Nat) : State :=
  s.mapStns (fun _ => true) fun t => { t with funnel := { t.funnel with
    cache := t.funnel.cache.filter fun x => !(decide (first ≤ x.1 ∧ x.1 < first + n)) } }

/-- Map entries in all (R147). -/
def kpmEntries : Nat := 524288

end Sys2Proof.Machine
end

