-- ==== Sys2Proof/Machine/MbxOps.lean ====
section
/-! DEFINITION. MbxOps.lean: MSI-X messages, completion entries, and how Crown takes a request entry and answers it (R278 to R286,
R294, R295, R347). -/

namespace Sys2Proof.Machine

/-! ## MSI-X (R294, Table 16.2) -/

/-- Change one function's mailbox page. -/
def State.updMbx (s : State) (f : Fin 64) (g : Mbx → Mbx) : State := { s with mbx := vupd s.mbx f g }

/-- A vector is masked: bit 0 of the fourth word of its table entry, set after reset (log entry 5). -/
def Mbx.masked (m : Mbx) (vec : Nat) : Bool := bitAt (m.msix.getD (4 * vec + 3) 1).toNat 0

/-- Something leaves for the host, in transmit order (R274). -/
def State.toHost (s : State) (t : HostTlp) : State := { s with hostOut := s.hostOut ++ [t] }

/-- A vector's message is sent; a masked vector becomes pending instead. -/
def State.msi (s : State) (f : Fin 64) (vec : Nat) : State :=
  if s.mbx[f].masked vec then s.updMbx f fun m => { m with pba := m.pba ||| BitVec.ofNat 32 (2 ^ vec) }
  else s.toHost (.msix f vec)

/-- Vector 0 is sent for the entries that wait unsignalled (R295). -/
def State.signal0 (s : State) (f : Fin 64) : State := (s.updMbx f fun m => { m with unsignalled := 0 }).msi f 0

/-- The entries that wait have reached COALN, or coalescing is off (R295). -/
def Mbx.signalDue (m : Mbx) : Bool :=
  decide (0 < m.unsignalled) && (m.coaln == 0 || m.coalt == 0 || decide (m.coaln.toNat ≤ m.unsignalled))

/-- Send vector 0 where it is due. -/
def State.signalCheck (s : State) (f : Fin 64) : State := if s.mbx[f].signalDue then s.signal0 f else s

/-! ## Job ends (Table 15.4) -/

/-- A state that a job has ended in, or FREE. -/
def JobState.ended : JobState → Bool
  | .free => true
  | .completed => true
  | .endedAbort => true
  | _ => false

/-- Key sets to release: retired, and no admitted job that has not ended uses them (R38). -/
def State.retiredUnused (s : State) : List Nat :=
  (s.crown.keysets.filter fun k => k.2.state == .retired &&
    s.crown.jobs.all fun j => !j.2.admitted || j.2.state.ended || j.2.ktag.toNat != k.1).map Prod.fst

/-- The key page map's base: the same in every Funnel (R147). -/
def State.kpmBase (s : State) : Nat := 2 ^ 20 * (s.stations[(0 : Fin 16)].funnel.base.toNat / 2 ^ 20)

/-- FNL_KPM_BASE_LO and _HI, the same in every Funnel (R147). The map has its place from then on (log entry 10). -/
def State.setKpmBase (s : State) (f : Dword → Dword) : State :=
  let s1 := s.mapStns (fun _ => true) fun t => { t with funnel := { t.funnel with base := f t.funnel.base } }
  { s1 with crown := { s1.crown with kpmPlaced := true } }

/-- Crown clears the map entries of the pages of an object: whole units, so that no read-modify-write arises (R203). -/
def State.clearEntries (s : State) (first pages : Nat) : State :=
  (List.range pages).foldl (fun s i => s.crownPut (s.kpmBase + 16 * (first + i)) (zeros 16)) s

/-- Crown releases a key set: its map entries go from memory and from every cache, and its tag is free (R38, R150). -/
def State.releaseKeySet (s : State) (tag : Nat) : State :=
  match s.crown.keysets.get? tag with
  | none => s
  | some k =>
    let s1 := k.dir.foldl (fun s d => (s.invalidate d.first d.pages).clearEntries d.first d.pages) s
    { s1 with crown := { s1.crown with keysets := s1.crown.keysets.del tag } }

/-- Release every key set that is due. -/
def State.releaseRetired (s : State) : State := s.retiredUnused.foldl State.releaseKeySet s

/-! ## Replies and completions (R280, R284) -/

/-- A reply or completion goes to its function's ring; while EN is 0 it is discarded (R278). -/
def State.pushPlain (s : State) (f : Fin 64) (r : Reply) : State :=
  if s.mbx[f].en then s.updMbx f fun m => { m with replies := m.replies ++ [r] } else s

/-! ## The end of a session (R255) -/

/-- A session record is committed: the body that CV does not select takes the new contents with SEQ advanced, and CV flips
(R253). -/
def Session.commit (x : Session) (b : SesBody) : Session :=
  let nb := { b with seq := x.body.seq + 1 }
  if x.cv then { x with cv := false, body0 := nb } else { x with cv := true, body1 := nb }

/-- Every key set of a session is retired (R38). -/
def State.retireAll (s : State) (ses : Nat) : State :=
  { s with crown := { s.crown with keysets := s.crown.keysets.map fun e =>
    if e.2.ses = ses then (e.1, e.2.commit { e.2.body with state := .retired }) else e } }

/-- A session's buffers are freed, and their exports end. -/
def State.freeBuffers (s : State) (ses : Nat) : State :=
  let gone := (s.crown.buffers.filter fun e => e.2.ses == ses).map Prod.fst
  { s with crown := { s.crown with
    buffers := s.crown.buffers.filter fun e => e.2.ses != ses
    exports := s.crown.exports.filter fun e => !gone.contains e.2.buf } }

/-- The payload of a job's completion (Table 16.7). -/
def jobPayload (id : Word) (cause : Byte) (timeout : Bool) (sect recNo : Nat) : List Byte :=
  natLe 4 id.toNat ++ [cause] ++ natLe 1 (b2n timeout) ++ natLe 2 sect ++ natLe 4 recNo

/-- A job-table entry; FREE where the table lists none. -/
def State.jobAt (s : State) (j : Nat) : Job := s.crown.jobs.getD j Job.reset

/-- Admission fails with a code at a section and record: the entry is FREE with the code, and the completion carries it (R264,
R265). -/
def State.refuseJob (s : State) (j : Nat) (code : Byte) (sect recNo : Nat) : State :=
  let x := s.jobAt j
  (s.updJob j fun x => { x with state := .free, cause := code, mtag := none, img := [], btab := [] }).pushPlain x.ref.f
    ⟨x.ref.op, x.ref.tag, code, true, x.ref.rqidx, jobPayload (jobId j x.gen) 0 false sect recNo, x.vec, none⟩

/-- The jobs of a session that are still being admitted when its record becomes FREE: their session is not OPEN any more, so they
complete BUSY (R255, R265 step 1). -/
def State.refuseWaiting (s : State) (ses : Nat) : State :=
  ((s.crown.jobs.filter fun j => j.2.state == .admitting && j.2.ses == ses).map Prod.fst).foldl
    (fun s j => s.refuseJob j Code.busy 0 0) s

/-- Steps 2 and 3 of a close: key sets are retired, buffers freed, ALIVE and the binding table cleared, the record FREE; every
SESSION_CLOSE completes, and a VF whose session the PF closed gets vector 2 (R255, R294, R304). -/
def State.closeFinish (s : State) (ses : Nat) : State :=
  let x := s.session ses
  let s1 := (((s.refuseWaiting ses).retireAll ses).releaseRetired).freeBuffers ses
  let s2 := s1.updSession ses fun y => { y.commit { y.body with state := .free, ktag := 0, mlcount := 0, mladdr := 0 } with
    alive := Vector.replicate 8 (0, 0)
    slots := Vector.replicate 8 StreamSlot.reset
    modlist := []
    closers := [] }
  let s3 := x.closers.foldl (fun s r => s.pushPlain r.f ⟨r.op, r.tag, Code.ok, true, r.rqidx, [], 0, none⟩) s2
  if x.body.func != 0 && x.closers.any fun r => r.f == 0 then s3.msi x.body.func 2 else s3

/-- A closing session whose JOBS is 0 finishes. -/
def State.closeCheck (s : State) (ses : Nat) : State :=
  if (s.session ses).body.state = .closing ∧ (s.session ses).jobs = 0 then s.closeFinish ses else s

/-! ## The end of a job (Table 15.4) -/

/-- The pins of an IN handle on the version it reads are counted up or down (R260). -/
def Buffer.pinBy (b : Buffer) (addr : Nat) (f : Nat → Nat) : Buffer :=
  if addr = b.v0 then { b with pin0 := f b.pin0 } else { b with pin1 := f b.pin1 }

/-- Pins of a list of handles change. -/
def State.pinAll (s : State) (hs : List Handle) (f : Nat → Nat) : State :=
  { s with crown := { s.crown with
    buffers := hs.foldl (fun bs h => if h.out then bs else bs.upd h.buf fun b => b.pinBy h.addr f) s.crown.buffers } }

/-- A job's completion entry has been written: it is COMPLETED and leaves the journal, or ENDED_ABORT (R267, R268); its pins end
(R260). -/
def State.jobWritten (s : State) (j : Nat) : State :=
  match s.crown.jobs.get? j with
  | none => s
  | some x =>
    let fin := match x.state with
      | .committed => some JobState.completed
      | .aborting => some JobState.endedAbort
      | _ => none
    match fin with
    | none => s
    | some st =>
      let s1 := (s.pinAll x.handles (· - 1)).updJob j fun y => { y with state := st }
      let s2 := { s1 with crown := { s1.crown with
        endOrder := s1.crown.endOrder ++ [j]
        journal := s1.crown.journal.filter fun e => e.job != j
        mustWrite := s1.crown.mustWrite.filter (· != j) } }
      ((if x.admitted then s2.updSession x.ses fun y => { y with jobs := y.jobs - 1 } else s2).releaseRetired).closeCheck x.ses

/-- A reply or completion goes to its function's ring; while EN is 0 it is discarded, and the job it ends is ended. -/
def State.push (s : State) (f : Fin 64) (r : Reply) : State :=
  match r.job with
  | some j => if s.mbx[f].en then s.pushPlain f r else s.jobWritten j
  | none => s.pushPlain f r

/-- A reply. -/
def State.reply (s : State) (r : ReqRef) (status : Byte) (payload : List Byte := []) : State :=
  s.push r.f ⟨r.op, r.tag, status, false, r.rqidx, payload, 0, none⟩

/-- A completion of an asynchronous command. -/
def State.complete (s : State) (r : ReqRef) (status : Byte) (payload : List Byte := []) : State :=
  s.push r.f ⟨r.op, r.tag, status, true, r.rqidx, payload, 0, none⟩

/-- The 256 bytes of a completion entry (Table 16.4). -/
def Reply.entry (r : Reply) (phase : Bool) (alive : BitVec 16) : List Byte :=
  let b := natLe 2 r.op ++ natLe 2 r.payload.length ++ natLe 4 r.tag.toNat ++ [r.status] ++
    natLe 1 (b2n phase + 2 * b2n r.async) ++ [r.rqidx] ++ zeros 5 ++ padTo 234 r.payload ++ natLe 2 alive.toNat
  b ++ natLe 4 (crc32c b)

/-- The completion ring has room (R281). -/
def Mbx.room (m : Mbx) : Bool := m.cqTail + 1 != m.cqHead

/-- The completion ring's base. -/
def Mbx.cqBase (m : Mbx) : Nat := 4096 * (m.base[2].toNat / 4096) + 2 ^ 32 * m.base[3].toNat

/-- The oldest reply of a function is written to its ring, and its vector is sent (R280, R294, R295). -/
def State.writeEntry (s : State) (f : Fin 64) : State :=
  let m := s.mbx[f]
  match m.replies with
  | [] => s
  | r :: rest =>
    if !m.en || !m.room then s
    else
      let s1 := (s.updMbx f fun m =>
        { m with
          replies := rest
          cqTail := m.cqTail + 1
          phase := if m.cqTail = 0xFF then !m.phase else m.phase
          txnext := m.txnext + 1
          unsignalled := if r.vec = 0 then m.unsignalled + 1 else m.unsignalled }).toHost
          (.write f (m.cqBase + 256 * m.cqTail.toNat) (r.entry m.phase m.txnext))
      let s2 := if r.vec = 0 then s1.signalCheck f else s1.msi f r.vec
      match r.job with
      | some j => s2.jobWritten j
      | none => s2

/-- Write as many entries of a function as its ring takes. -/
def State.writeAll (s : State) (f : Fin 64) : State := (List.range s.mbx[f].replies.length).foldl (fun s _ => s.writeEntry f) s

/-- Replies not yet written are discarded: jobs that they end are ended (R278). -/
def State.dropReplies (s : State) (f : Fin 64) : State :=
  let js := s.mbx[f].replies.filterMap fun r => r.job
  js.foldl State.jobWritten (s.updMbx f fun m => { m with replies := [] })

/-! ## Taking a request (R279, R284, R286) -/

/-- The number at an offset of an entry's payload. -/
def pay (b : List Byte) (off n : Nat) : Nat := field b (0x10 + off) n

/-- SESSION of an entry. -/
def reqSession (b : List Byte) : Nat := field b 8 2

/-- OPCODE of an entry. -/
def reqOp (b : List Byte) : Nat := field b 0 2

/-- The reference of an entry for its answers. -/
def ReqEntry.ref (e : ReqEntry) (f : Fin 64) : ReqRef := ⟨f, reqOp e.bytes, BitVec.ofNat 32 (field e.bytes 4 4), e.rqidx⟩

/-- The opcodes of Table 16.7. -/
def knownOps : List Nat :=
  [0x01, 0x02, 0x03, 0x04, 0x05, 0x06, 0x07, 0x08, 0x10, 0x11, 0x12, 0x13, 0x20, 0x21, 0x22, 0x23, 0x30, 0x31, 0x32, 0x33, 0x34,
   0x35, 0x36, 0x40, 0x41, 0x42, 0x50, 0x51, 0x52, 0x60, 0x61, 0x62, 0x63]

/-- A function's entries wait behind its FW_ACTIVATE (R284). -/
def State.blocked (s : State) (f : Fin 64) : Bool :=
  (s.crown.activation.bind fun a => a.ref.map fun r => decide (r.f = f)).getD false

/-- The refusal of a command in recovery: INTERNAL, and a NOTE (R347). -/
def State.recoveryRefuse (s : State) (r : ReqRef) : State :=
  (s.logEvt (plainEvt clsNote Code.internal 0 0xFF 0xFF [])).reply r Code.internal

/-- Take the entry at the head off; the turn passes to the next function. -/
def State.popReq (s : State) (f : Fin 64) : State :=
  let s1 := s.updMbx f fun m => { m with taken := m.taken.tail }
  { s1 with crown := { s1.crown with turn := f + 1 } }

/-- Entries at the head whose OPCODE the table lacks are refused with BAD_OPERAND, in ring order (R286). -/
def State.settleGo (f : Fin 64) : Nat → State → State
  | 0, s => s
  | n + 1, s =>
    match s.mbx[f].taken with
    | [] => s
    | e :: _ =>
      if knownOps.contains (reqOp e.bytes) || s.blocked f then s
      else
        let s1 := s.popReq f
        State.settleGo f n (if s.boot.recovery then s1.recoveryRefuse (e.ref f) else s1.reply (e.ref f) Code.badOperand)

/-- Refuse unknown opcodes at the head of a function's entries. -/
def State.settle (s : State) (f : Fin 64) : State := State.settleGo f s.mbx[f].taken.length s

/-- The payload length that a list of fields gives: the end of the last field (R279). -/
def payLen (fields : List (Nat × Nat)) : Nat := (fields.map fun x => x.1 + x.2).foldl max 0

/-- LEN is right, and every byte that is no field is 0 (R279, R286). -/
def entryOk (fields : List (Nat × Nat)) (b : List Byte) : Bool :=
  field b 2 2 == payLen fields && zeroAt b 0x0A 6 &&
    (List.range 234).all fun i => fields.any (fun x => decide (x.1 ≤ i ∧ i < x.1 + x.2)) || byteAt b (0x10 + i) == 0

/-- Crown is taking commands: READY is set. -/
def State.ready (s : State) : Bool := s.boot.state == .ready

/-- A function has an entry that Crown can serve now. -/
def State.servable (s : State) (f : Fin 64) : Bool := !s.blocked f && !s.mbx[f].taken.isEmpty

/-- It is the function's turn: Crown serves one entry per function in turn, in ascending function order, and no function that can be
served stands before it (R284). -/
def State.turnOf (s : State) (f : Fin 64) : Bool :=
  (List.finRange 64).all fun g => !s.servable g || decide ((f - s.crown.turn).val ≤ (g - s.crown.turn).val)

/-- The entry at the head of a function's ring, when Crown takes a command with this OPCODE now: READY is set, the completions that a
warm reset left are written (R271), and it is the function's turn. -/
def State.heads (s : State) (f : Fin 64) (op : Nat) : Option ReqEntry :=
  if s.ready && s.crown.mustWrite.isEmpty && !s.blocked f && s.turnOf f then
    s.mbx[f].taken.head?.filter fun e => reqOp e.bytes == op
  else none

/-- A row for a command: Crown takes the entry, makes the checks that every command has (R286), and runs it. `pf` marks a
command of the PF, `owner` one that names a session (R255); in recovery only three commands are taken (R347). -/
def cmdRow (f : Fin 64) (op : Nat) (fields : List (Nat × Nat)) (pf owner : Bool)
    (run : State → ReqRef → List Byte → State) (s : State) : Host.Outcome State Fault Refusal :=
  occurs s (s.heads f op).isSome fun s =>
    match s.heads f op with
    | none => s
    | some e =>
      let r := e.ref f
      let s1 := s.popReq f
      let x := s.session (reqSession e.bytes)
      let own := decide (reqSession e.bytes < 16384) && x.body.state != .free && (x.body.func == f || f == 0)
      let s2 :=
        if s.boot.recovery && !([0x01, 0x05, 0x50].contains op) then s1.recoveryRefuse r
        else if !entryOk fields e.bytes || (pf && f != 0) || (owner && !own) then s1.reply r Code.badOperand
        else run s1 r e.bytes
      s2.settle f

/-- A refusal or a reply with a status. -/
def State.answer (s : State) (r : ReqRef) (c : Option Byte) (ok : State) : State :=
  match c with
  | some c => s.reply r c
  | none => ok

/-- READY is set once the firmware has loaded the Mortar programs and module memory is ready (R345). -/
def State.tryReady (s : State) : State :=
  if s.boot.state = .starting ∧ s.mem.ready = true ∧ s.mortar.load = none then { s with boot := { s.boot with state := .ready } } else s

/-- Powered, out of reset, and with the link up: BAR accesses reach the module (R345, R363). -/
def State.linkUp (s : State) : Bool := s.boot.state != .off && s.boot.state != .rom

end Sys2Proof.Machine
end

