-- ==== Sys2Proof/Machine/Band.lean ====
section
/-! DEFINITION. Band.lean: the register-level Band units (R317 to R319, R323 to R325). -/

namespace Sys2Proof.Machine

/-! ## What a write does when it takes effect -/

/-- A byte is fed into the running value, by the algorithm in force. -/
def BndUnit.feedByte (x : BndUnit) (b : Byte) : BndUnit :=
  if x.alg = 1 then { x with run := BitVec.ofNat 64 (crcByte crc64Poly x.run.toNat b) }
  else { x with run := BitVec.ofNat 64 (x.run.toNat / 2 ^ 32 * 2 ^ 32 + crcByte crc32cPoly (x.run.toNat % 2 ^ 32) b) }

/-- BND_CTRL: a reserved ALG is refused, and the write with it (R6). -/
def BndUnit.ctrl (x : BndUnit) (v : Nat) : BndUnit :=
  if 2 ≤ fld v 0 2 then x
  else
    { x with
      aw := bitAt v 4
      alg := BitVec.ofNat 2 (fld v 0 2)
      run := if bitAt v 2 then 0xFFFFFFFFFFFFFFFF else x.run }

/-- The alive width in force. -/
def BndUnit.width (x : BndUnit) : Nat := if x.aw then 32 else 16

/-- BND_ACHK: the value is classified by R319. -/
def BndUnit.achk (x : BndUnit) (v : Nat) : BndUnit :=
  match aliveClass x.width (x.anext.toNat % 2 ^ x.width) (v % 2 ^ x.width) with
  | .pass => { x with result := 1, anext := BitVec.ofNat 32 ((x.anext.toNat + 1) % 2 ^ x.width) }
  | .rep => { x with result := 2, rep := satAdd x.rep 1 }
  | .gap => { x with result := 3, gap := satAdd x.gap 1 }

/-- One write of the queue takes effect. -/
def BndUnit.apply (x : BndUnit) : BndWrite → BndUnit
  | .ctrl v => x.ctrl v.toNat
  | .init => { x with run := 0xFFFFFFFFFFFFFFFF }
  | .feed n v => (natLe n v.toNat).foldl BndUnit.feedByte x
  | .run false v => { x with run := BitVec.ofNat 64 (x.run.toNat / 2 ^ 32 * 2 ^ 32 + v.toNat) }
  | .run true v => if x.alg = 1 then { x with run := BitVec.ofNat 64 (v.toNat * 2 ^ 32 + x.run.toNat % 2 ^ 32) } else x
  | .anext v => { x with anext := BitVec.ofNat 32 (v.toNat % 2 ^ x.width) }
  | .achk v => x.achk v.toNat
  | .astat v => if bitAt v.toNat 2 then { x with gap := 0, rep := 0 } else x
  | .status v => if bitAt v.toNat 2 then { x with ovf := false } else x
  | .res => x

/-! ## The queue (R324) -/

/-- The oldest `n` writes take effect, in arrival order. -/
def BndUnit.drain (x : BndUnit) (n : Nat) : BndUnit :=
  { (x.queue.take n).foldl BndUnit.apply x with queue := x.queue.drop n }

/-- A write arrives: it waits in the queue of eight, or is dropped with OVF. -/
def BndUnit.arrive (x : BndUnit) (w : BndWrite) : BndUnit :=
  if x.queue.length < 8 then { x with queue := x.queue ++ [w] } else { x with ovf := true }

/-- A write to a unit: how many earlier ones have taken effect by then is free (log entry 33). -/
def State.bndWrite (s : State) (u : Fin 4) (w : BndWrite) : State :=
  { s with band := vupd s.band u fun x => (x.drain (Config.freeNat s.fresh)).arrive w }.tick

/-- A row that writes to a unit. -/
def bndRow (u : Fin 4) (w : BndWrite) (s : State) : Host.Outcome State Fault Refusal := occurs s s.linkUp fun s => s.bndWrite u w

/-- A BND_CTRL write names a reserved ALG: it is refused with a NOTE entry BAD_OPERAND (R6; log entry 55). -/
def State.algNote (s : State) (u : Fin 4) (v : Nat) : State :=
  if 2 ≤ fld v 0 2 then s.logEvt (plainEvt clsNote Code.badOperand 0 (BitVec.ofNat 8 u.val) 0xFF []) else s

/-- BND_CTRL_WRITE. -/
def execBndCtrlWrite (u : Fin 4) (val : Word) (s : State) : Host.Outcome State Fault Refusal :=
  occurs s s.linkUp fun s => (s.algNote u val.toNat).bndWrite u (.ctrl val)

/-- BND_INIT. -/
def execBndInit (u : Fin 4) (s : State) : Host.Outcome State Fault Refusal := bndRow u .init s

/-- BND_FEED8. -/
def execBndFeed8 (u : Fin 4) (val : Word) (s : State) : Host.Outcome State Fault Refusal := bndRow u (.feed 1 val) s

/-- BND_FEED16. -/
def execBndFeed16 (u : Fin 4) (val : Word) (s : State) : Host.Outcome State Fault Refusal := bndRow u (.feed 2 val) s

/-- BND_FEED32. -/
def execBndFeed32 (u : Fin 4) (val : Word) (s : State) : Host.Outcome State Fault Refusal := bndRow u (.feed 4 val) s

/-- BND_RUN_WRITE. -/
def execBndRunWrite (u : Fin 4) (hi : Bool) (val : Word) (s : State) : Host.Outcome State Fault Refusal := bndRow u (.run hi val) s

/-- BND_ANEXT_WRITE. -/
def execBndAnextWrite (u : Fin 4) (val : Word) (s : State) : Host.Outcome State Fault Refusal := bndRow u (.anext val) s

/-- BND_ACHK. -/
def execBndAchk (u : Fin 4) (val : Word) (s : State) : Host.Outcome State Fault Refusal := bndRow u (.achk val) s

/-- BND_ASTAT_CLR. -/
def execBndAstatClr (u : Fin 4) (s : State) : Host.Outcome State Fault Refusal := bndRow u (.astat 4) s

/-! ## Reads (R324, R325) -/

/-- A feed is among the queued writes. -/
def BndUnit.busy (x : BndUnit) : Bool := x.queue.any fun w => match w with | .feed _ _ => true | _ => false

/-- The value that a read of a register returns. -/
def BndUnit.value (x : BndUnit) : BndReg → Nat
  | .runLo => x.run.toNat % 2 ^ 32
  | .runHi => if x.alg = 1 then x.run.toNat / 2 ^ 32 else 0
  | .resLo => (2 ^ 32 - 1) ^^^ (x.run.toNat % 2 ^ 32)
  | .resHi => if x.alg = 1 then (2 ^ 32 - 1) ^^^ (x.run.toNat / 2 ^ 32) else 0
  | .anext => x.anext.toNat % 2 ^ x.width
  | .astat => x.gap.toNat * 2 ^ 16 + x.rep.toNat * 2 ^ 8 + x.result.toNat
  | .ctrl => b2n x.aw * 16 + x.alg.toNat
  | .status => x.queue.length * 16 + b2n x.ovf * 4 + b2n x.busy * 2

/-- The read is held until every earlier write has taken effect. -/
def readHeld : BndReg → Bool
  | .ctrl => false
  | .status => false
  | _ => true

/-- BND_RESULT_READ: the queue drains first, wholly for a register whose read is held; a unit in BAR0 answers the PF. -/
def execBndResultRead (u : Fin 4) (reg : BndReg) (s : State) : Host.Outcome State Fault Refusal :=
  occurs s s.linkUp fun s =>
    let n := if readHeld reg then 8 else Config.freeNat s.fresh
    let s1 := { s with band := vupd s.band u fun x => x.drain n }.tick
    if u.val < 2 then s1.toHost (.cplData 0 (natLe 4 (s1.band[u].value reg))) else s1

end Sys2Proof.Machine
end

