-- ==== Sys2Proof/Machine/Operands.lean ====
section
/-! DEFINITION. Operands.lean: the fields of the instruction word (Table 13.5), of operand descriptors (Table 13.7) and of
PARAM bodies, and the effective addresses sampled at dispatch (R229, R235). -/

namespace Sys2Proof.Machine

/-! ## The instruction word (Table 13.5) -/

/-- UNIT. -/
def unitOf (iw : BitVec 128) : Nat := fld iw.toNat 8 6
/-- MODS. -/
def modsOf (iw : BitVec 128) : Nat := fld iw.toNat 14 8
/-- A field of MODS. -/
def modsFld (iw : BitVec 128) (lo w : Nat) : Nat := fld (modsOf iw) lo w
/-- W0K. -/
def w0kOf (iw : BitVec 128) : Nat := fld iw.toNat 22 2
/-- W0I. -/
def w0iOf (iw : BitVec 128) : Nat := fld iw.toNat 24 8
/-- W1K. -/
def w1kOf (iw : BitVec 128) : Nat := fld iw.toNat 32 2
/-- W1I. -/
def w1iOf (iw : BitVec 128) : Nat := fld iw.toNat 34 8
/-- SGK. -/
def sgkOf (iw : BitVec 128) : Nat := fld iw.toNat 42 2
/-- SGI. -/
def sgiOf (iw : BitVec 128) : Nat := fld iw.toNat 44 7
/-- SGR. -/
def sgrOf (iw : BitVec 128) : Bool := bitAt iw.toNat 51
/-- SGS. -/
def sgsOf (iw : BitVec 128) : Nat := fld iw.toNat 52 4
/-- D0. -/
def d0Of (iw : BitVec 128) : Nat := fld iw.toNat 56 24
/-- D1. -/
def d1Of (iw : BitVec 128) : Nat := fld iw.toNat 80 24
/-- D2. -/
def d2Of (iw : BitVec 128) : Nat := fld iw.toNat 104 24

/-! ## Descriptors (Table 13.7) -/

/-- Descriptor `d` of the image as a number; NULL beyond the table. -/
def Station.desc (t : Station) (d : Nat) : Nat := (t.descs.getD d 0).toNat

/-- DKIND. -/
def dKind (d : Nat) : Nat := fld d 0 8
/-- ICTR. -/
def dIctr (d : Nat) : Nat := fld d 8 5
/-- IEN. -/
def dIen (d : Nat) : Bool := bitAt d 13
/-- IWRAP. -/
def dIwrap (d : Nat) : Nat := fld d 16 5
/-- MOD. -/
def dMod (d : Nat) : Nat := fld d 32 6
/-- MOD2. -/
def dMod2 (d : Nat) : Nat := fld d 40 6
/-- ADDR. -/
def dAddr (d : Nat) : Nat := fld d 64 32
/-- STRIDE, signed. -/
def dStride (d : Nat) : Int := signedOf 32 (fld d 96 32)
/-- BODY. -/
def dBody (d : Nat) : Nat := fld d 128 128

/-- The effective address of a descriptor: ADDR + STRIDE × i (R229). -/
def effAddr (d : Nat) (ctrs : Vector Word 32) : Int :=
  if dIen d then
    let c := (ctrs.toList.getD (dIctr d) 0).toNat
    let i := if dIwrap d = 0 then c else c % 2 ^ dIwrap d
    (dAddr d : Int) + dStride d * (i : Int)
  else (dAddr d : Int)

/-- A field of the PARAM descriptor that D2 names (R237). -/
def Station.param (t : Station) (iw : BitVec 128) (lo w : Nat) : Nat := fld (dBody (t.desc (d2Of iw))) lo w

/-- A field of the second PARAM of a pair (R235). -/
def Station.param2 (t : Station) (iw : BitVec 128) (lo w : Nat) : Nat := fld (dBody (t.desc (d2Of iw + 1))) lo w

/-- The opcode has an XD field in [23:0] of its PARAM (Table 14.2). -/
def hasXD (op : Nat) : Bool := op == 0x11 || op == 0x22 || (0x40 ≤ op && op ≤ 0x4A) || op == 0x50

/-- The opcode has an XE field in [103:80] of its PARAM (Table 14.2). -/
def hasXE (op : Nat) : Bool := 0x40 ≤ op && op ≤ 0x4A

/-- The descriptor that XD names; 0 when unused. -/
def Station.xd (t : Station) (iw : BitVec 128) : Nat := if hasXD (opOf iw) then t.param iw 0 24 else 0

/-- The descriptor that XE names; 0 when unused. -/
def Station.xe (t : Station) (iw : BitVec 128) : Nat := if hasXE (opOf iw) then t.param iw 80 24 else 0

/-- The effective address of descriptor `d` as sampled now. -/
def Station.ea (t : Station) (d : Nat) : Int := effAddr (t.desc d) t.ctrs

/-- MODTAB index of operand D0 (R236). -/
def Station.mod0 (t : Station) (iw : BitVec 128) : Nat := dMod (t.desc (d0Of iw))
/-- MODTAB index of operand D1. -/
def Station.mod1 (t : Station) (iw : BitVec 128) : Nat := dMod (t.desc (d1Of iw))

/-- The physical weight slot of slot `n` of an instruction's virtual Griddle (Table 13.9). -/
def Station.slotOf (t : Station) (iw : BitVec 128) (n : Nat) : Nat := t.slotMap.getD (8 * (unitOf iw - 1) + n) n

/-- The physical cache row of row `n` of an instruction's virtual Skillet. -/
def Station.crowOf (t : Station) (iw : BitVec 128) (n : Nat) : Nat := if unitOf iw = 14 then t.crowOff + n else n

end Sys2Proof.Machine
end

