-- ==== Sys2Proof/Machine/Flags.lean ====
section
/-! DEFINITION. Flags.lean: the scoreboard: comparator values, waits and signals (R224 to R226, R230). -/

namespace Sys2Proof.Machine

/-- Counter `c` of the scoreboard. -/
def Station.ctr (t : Station) (c : Nat) : Word := t.ctrs.toList.getD (c % 32) 0

/-- Comparator `k` of the scoreboard. -/
def Station.cmp (t : Station) (k : Nat) : Cmp := t.cmps.toList.getD (k % 8) ⟨0, 0, 0⟩

/-- A comparator's value: V = (BASE + STEP × counter[CTR]) mod 2^32, STEP signed (R225). -/
def Station.cmpVal (t : Station) (k : Nat) : Word :=
  let c := t.cmp k
  c.base + c.step.signExtend 32 * t.ctr c.ctr.toNat

/-- GE: (counter - V) mod 2^32 < 2^31 (R225). -/
def geWord (c v : Word) : Bool := decide ((c - v).toNat < 2 ^ 31)

/-- A wait selector holds: none, FLAG set, GE, EQ (R225). `v` is the comparator's sampled value. -/
def Station.selHolds (t : Station) (kind idx : Nat) (v : Word) : Bool :=
  if kind = 0 then true
  else if kind = 1 then bitAt t.flags.toNat (idx % 128)
  else if kind = 2 then geWord (t.ctr (idx % 32)) v
  else t.ctr (idx % 32) == v

/-- An instruction's wait is satisfied: every selector holds (R225). -/
def Station.waitHolds (t : Station) (iw : BitVec 128) (v0 v1 : Word) : Bool :=
  t.selHolds (w0kOf iw) (w0iOf iw) v0 && t.selHolds (w1kOf iw) (w1iOf iw) v1

/-- The wait of an instruction not yet dispatched: its comparators are sampled now. -/
def Station.waitNow (t : Station) (iw : BitVec 128) : Bool :=
  t.waitHolds iw (t.cmpVal (w0iOf iw / 32)) (t.cmpVal (w1iOf iw / 32))

/-- Set counter `c`. -/
def Station.setCtr (t : Station) (c : Nat) (v : Word) : Station := { t with ctrs := vupdN t.ctrs (c % 32) fun _ => v }

/-- A signal takes effect on the scoreboard: SET and CLEAR a flag, INC a counter modulo 2^32 (R226). -/
def Station.applySignal (t : Station) (kind idx : Nat) : Station :=
  if kind = 1 then { t with flags := t.flags ||| BitVec.ofNat 128 (2 ^ (idx % 128)) }
  else if kind = 2 then { t with flags := t.flags &&& ~~~ BitVec.ofNat 128 (2 ^ (idx % 128)) }
  else if kind = 3 then t.setCtr (idx % 32) (t.ctr (idx % 32) + 1)
  else t

/-- Raise an instruction's signal: on this station's scoreboard, or as a message to the job station that SGS names, which is the
issuing station itself or another (R226, R230). -/
def State.raise (s : State) (st : Fin 16) (iw : BitVec 128) : State :=
  let t := s.stations[st]
  if sgkOf iw = 0 then s
  else
    let dst := if sgrOf iw then t.jobStns.getD (sgsOf iw) st else st
    if dst = st then s.putStn st (t.applySignal (sgkOf iw) (sgiOf iw))
    else { s with net := s.net ++ [⟨st, dst, t.ses, s.stations[dst].epoch, t.epoch,
      .signal (BitVec.ofNat 2 (sgkOf iw)) (BitVec.ofNat 7 (sgiOf iw))⟩] }

end Sys2Proof.Machine
end

