-- ==== Sys2Proof/Machine/Merge.lean ====
section
/-! DEFINITION. Merge.lean: how an output header is written: whole, or merged by a locked update (R81, R179). -/

namespace Sys2Proof.Machine

/-- The row that stands at a header's place lets a MERGE with the new header go on: it is all zero, or it passes its HCRC and
agrees in FAMILY, PSID, KTAG, LAYOUT, LEVEL and COUNT (R81). -/
def mergeOk (old new : List Byte) : Bool :=
  let o := Hdr.ofBytes old
  let n := Hdr.ofBytes new
  old.all (· == 0) ||
    (hcrcOk old && o.family == n.family && o.psid == n.psid && o.ktag == n.ktag && o.layout == n.layout && o.level == n.level &&
      o.count == n.count)

/-- The bytes a MERGE leaves: SET's into a zero row; otherwise the stored header with the larger NOISE and a fresh HCRC (R81). -/
def mergeBytes (old new : List Byte) : List Byte :=
  if old.all (· == 0) then new
  else
    let o := Hdr.ofBytes old
    let b := splice old 10 (natLe 2 (max o.noise (Hdr.ofBytes new).noise))
    b.take 60 ++ natLe 4 (crc32c (b.take 60))

/-- Write a pending header; none when the locked update finds a row that no longer agrees, which it leaves unchanged (R81). -/
def Station.putHdr (t : Station) (p : PendHdr) : Option Station :=
  let old := t.rd p.off 64
  if !p.merge then some (t.wr p.off p.bytes)
  else if mergeOk old p.bytes then some (t.wr p.off (mergeBytes old p.bytes))
  else none

/-- Write pending headers in order. -/
def Station.putHdrs (t : Station) : List PendHdr → Option Station
  | [] => some t
  | p :: ps => (t.putHdr p).bind fun t' => Station.putHdrs t' ps

/-- An instruction's results reach their destination: the payload, then the headers (R29, R79, R81). -/
def Station.putOut (t : Station) (e : QEntry) : Option Station := (t.wrAll e.out).putHdrs e.hdrs

end Sys2Proof.Machine
end

