-- ==== Sys2Proof/Machine/Residue.lean ====
section
/-! DEFINITION. Residue.lean: residue words, the modulus table, the transform convention and weight formats (R47 to R65). -/

namespace Sys2Proof.Machine

/-! ## Arithmetic modulo a prime -/

/-- Square and multiply, lowest exponent bit first, with so many bits of the exponent. -/
def powGo (q : Nat) : Nat → Nat → Nat → Nat → Nat
  | 0, _, _, acc => acc
  | n + 1, b, e, acc => powGo q n (b * b % q) (e / 2) (if e % 2 = 1 then acc * b % q else acc)

/-- b^e mod q. -/
def powMod (q b e : Nat) : Nat := powGo q (Nat.log2 e + 1) (b % q) e (1 % q)

/-- b^-1 mod a prime q, by Fermat. -/
def invMod (q b : Nat) : Nat := powMod q b (q - 2)

/-- (a - b) mod q of canonical words. -/
def subMod (q a b : Nat) : Nat := (a + q - b) % q

/-- The centred representative of a residue (R64). -/
def centred (q r : Nat) : Int := if r ≤ (q - 1) / 2 then (r : Int) else (r : Int) - q

/-- A signed number modulo q (R65). -/
def intMod (q : Nat) (w : Int) : Nat := (w % (q : Int)).toNat

/-! ## Modulus-list entries (R48, R50, R51) -/

/-- One Miller-Rabin base passes for q - 1 = d * 2^r: base^d is 1 or q - 1, or becomes q - 1 within r - 1 squarings. -/
def mrSquares (q : Nat) : Nat → Nat → Bool
  | 0, _ => false
  | n + 1, x => x == q - 1 || mrSquares q n (x * x % q)

/-- The odd part of q - 1 and the power of two taken out, with fuel. -/
def oddPart : Nat → Nat → Nat → Nat × Nat
  | 0, d, r => (d, r)
  | n + 1, d, r => if d % 2 = 0 then oddPart n (d / 2) (r + 1) else (d, r)

/-- Deterministic Miller-Rabin with bases 2, 7 and 61: exact below 2^32 (R51). -/
def isPrime32 (q : Nat) : Bool :=
  if q < 2 then false
  else if q = 2 ∨ q = 7 ∨ q = 61 then true
  else if q % 2 = 0 then false
  else
    let dr := oddPart 32 (q - 1) 0
    [2, 7, 61].all fun b =>
      let x := powMod q b dr.1
      b % q == 0 || x == 1 || mrSquares q dr.2 x

/-- How many squarings take ψ to 1: at most `n` are tried (R51). -/
def squaringsToOne (q : Nat) : Nat → Nat → Option Nat
  | 0, x => if x = 1 then some 0 else none
  | n + 1, x => if x = 1 then some 0 else (squaringsToOne q n (x * x % q)).map (· + 1)

/-- Validate a list entry and derive its fields (R48, R51). -/
def deriveMod (q psi : Nat) : Option ModEntry :=
  if psi = 0 ∨ q ≤ psi then none
  else if !isPrime32 q then none
  else
    match squaringsToOne q 18 psi with
    | none => none
    | some sq =>
      let logn := sq - 1
      if sq < 11 ∨ 18 < sq then none
      else if q ≤ 2 ^ 20 ∨ 2 ^ 31 ≤ q ∨ q % 2 ^ (logn + 1) ≠ 1 then none
      else if powMod q psi (2 ^ logn) ≠ q - 1 then none
      else some ⟨q, Nat.log2 q + 1, logn, q % 8191, 2 ^ 72 / q, psi, invMod q psi, invMod q (2 ^ logn), true⟩

/-- The range of the limb primes of a digit set (R24, R48). -/
def digitPrime (q : Nat) : Bool := decide (2 ^ 31 - 2 ^ 24 ≤ q ∧ q < 2 ^ 31)

/-- Validate a list entry; `digit` asks for a digit set's prime as well. -/
def deriveFor (digit : Bool) (q psi : Nat) : Option ModEntry := if digit && !digitPrime q then none else deriveMod q psi

/-- The 64 entries a grant or an MLOAD-free station holds: list entries 0 to 63, others not valid (R51). -/
def modtabOf (l : List ModEntry) : Vector ModEntry 64 := Vector.ofFn fun i => l.getD i.val ModEntry.reset

/-- The entry at an index: one that is not valid when the index is beyond the table (R52). -/
def Station.modAt (t : Station) (i : Nat) : ModEntry := if h : i < 64 then t.modtab[i] else ModEntry.reset

/-- Every one of `n` entries from `first` is there and valid (R52). -/
def Station.modsOk (t : Station) (first n : Nat) : Bool := (List.range n).all fun j => (t.modAt (first + j)).valid

/-- Every one of `n` entries from `first` serves ring degree 2^logn (R52). -/
def Station.modsServe (t : Station) (first n logn : Nat) : Bool :=
  (List.range n).all fun j => decide (logn ≤ (t.modAt (first + j)).logn)

/-! ## Reduction (R54) and the transforms (R62, R63) -/

/-- Barrett reduction as R54 gives it. -/
def barrett (q mu x : Nat) : Nat :=
  let t := x * mu / 2 ^ 72
  let r := (x + 2 ^ 32 * (t * q) - t * q) % 2 ^ 32
  if q ≤ r then r - q else r

/-- Reverse the low `n` bits of i. -/
def brv : Nat → Nat → Nat
  | 0, _ => 0
  | n + 1, i => (i % 2) * 2 ^ n + brv n (i / 2)

/-- The root a transform of degree 2^logn uses under an entry: ψ^(2^LOGN / N') (R52). -/
def rootOf (m : ModEntry) (logn : Nat) : Nat := powMod m.q m.psi (2 ^ (m.logn - logn))

/-- N'^-1 under an entry: NINV × (2^LOGN / N') (R52). -/
def ninvOf (m : ModEntry) (logn : Nat) : Nat := m.ninv * 2 ^ (m.logn - logn) % m.q

/-- The forward transform, natural order in, bit-reversed out: the butterfly of block i of a stage with m blocks uses
ψ^brv(m + i). Each level halves the block, the low half u + v w, the high half u - v w (R62). -/
def nttBlock (q psi logn : Nat) : Nat → Nat → List Nat → List Nat
  | 0, _, a => a
  | k + 1, node, a =>
    let h := 2 ^ k
    let w := powMod q psi (brv logn node)
    let u := a.take h
    let v := (a.drop h).map fun x => x * w % q
    nttBlock q psi logn k (2 * node) (List.zipWith (fun x y => (x + y) % q) u v) ++
      nttBlock q psi logn k (2 * node + 1) (List.zipWith (fun x y => subMod q x y) u v)

/-- forward(a, 2^logn, ψ) of R62. -/
def nttFwd (q psi logn : Nat) (a : List Nat) : List Nat := nttBlock q psi logn logn 1 a

/-- The inverse transform without N^-1: block i of a stage with h blocks uses ψ^-brv(h + i) (R62). -/
def inttBlock (q psiInv logn : Nat) : Nat → Nat → List Nat → List Nat
  | 0, _, a => a
  | k + 1, node, a =>
    let h := 2 ^ k
    let u := inttBlock q psiInv logn k (2 * node) (a.take h)
    let v := inttBlock q psiInv logn k (2 * node + 1) (a.drop h)
    let w := powMod q psiInv (brv logn node)
    List.zipWith (fun x y => (x + y) % q) u v ++ List.zipWith (fun x y => subMod q x y * w % q) u v

/-- inverse(a, 2^logn, ψ^-1, N^-1) of R62: N^-1 is folded into the last stage. -/
def nttInv (q psiInv ninv logn : Nat) (a : List Nat) : List Nat :=
  (inttBlock q psiInv logn logn 1 a).map fun x => x * ninv % q

/-- The forward transform of a limb under an entry. -/
def fwdOf (m : ModEntry) (logn : Nat) (a : List Nat) : List Nat := nttFwd m.q (rootOf m logn) logn a

/-- The inverse transform of a limb under an entry. -/
def invOf (m : ModEntry) (logn : Nat) (a : List Nat) : List Nat :=
  nttInv m.q (invMod m.q (rootOf m logn)) (ninvOf m logn) logn a

/-! ## Single stages (R62, R89) -/

/-- The stage of a forward transform that stands `d` levels below block `node`, which holds 2^k words. -/
def fwdLevel (q psi logn : Nat) : Nat → Nat → Nat → List Nat → List Nat
  | _, 0, _, a => a
  | 0, k + 1, node, a =>
    let w := powMod q psi (brv logn node)
    let u := a.take (2 ^ k)
    let v := (a.drop (2 ^ k)).map fun x => x * w % q
    List.zipWith (fun x y => (x + y) % q) u v ++ List.zipWith (fun x y => subMod q x y) u v
  | d + 1, k + 1, node, a =>
    fwdLevel q psi logn d k (2 * node) (a.take (2 ^ k)) ++ fwdLevel q psi logn d k (2 * node + 1) (a.drop (2 ^ k))

/-- The stage of an inverse transform that stands `d` levels below block `node`. -/
def invLevel (q psiInv logn : Nat) : Nat → Nat → Nat → List Nat → List Nat
  | _, 0, _, a => a
  | 0, k + 1, node, a =>
    let w := powMod q psiInv (brv logn node)
    List.zipWith (fun x y => (x + y) % q) (a.take (2 ^ k)) (a.drop (2 ^ k)) ++
      List.zipWith (fun x y => subMod q x y * w % q) (a.take (2 ^ k)) (a.drop (2 ^ k))
  | d + 1, k + 1, node, a =>
    invLevel q psiInv logn d k (2 * node) (a.take (2 ^ k)) ++ invLevel q psiInv logn d k (2 * node + 1) (a.drop (2 ^ k))

/-- Stage s of a transform of degree 2^logn under an entry. A forward transform starts with the whole limb, an inverse one ends with
it and folds N^-1 into that last stage. -/
def nttStage (m : ModEntry) (inv : Bool) (logn s : Nat) (a : List Nat) : List Nat :=
  if inv then
    let b := invLevel m.q (invMod m.q (rootOf m logn)) logn (logn - 1 - s) logn 1 a
    if s + 1 = logn then b.map fun x => x * ninvOf m logn % m.q else b
  else fwdLevel m.q (rootOf m logn) logn s logn 1 a

/-! ## The check path (R56) -/

/-- The quotient t of a reduction, after its one correction (R54). -/
def barrettQuot (q mu x : Nat) : Nat :=
  let t := x * mu / 2 ^ 72
  if q ≤ (x + 2 ^ 32 * (t * q) - t * q) % 2 ^ 32 then t + 1 else t

/-- The compare of one reduction: the value modulo 8,191 that the operands' residues give, with (t × QCHK + r) modulo 8,191. -/
def checkAgrees (qchk x t r : Nat) : Bool := x % 8191 == (t % 8191 * qchk + r % 8191) % 8191

/-! ## Weight formats (R65) -/

/-- How many bits an element of a format takes: RES32, S16, S8, S4 (Table 3.4). -/
def fmtBits (fmt : Nat) : Nat := if fmt = 0 then 32 else if fmt = 1 then 16 else if fmt = 2 then 8 else 4

/-- Element `i` of a byte list in a format: the raw number for RES32, a signed number otherwise (Table 3.4). -/
def fmtElem (fmt : Nat) (bs : List Byte) (i : Nat) : Int :=
  match fmt with
  | 0 => (field bs (4 * i) 4 : Int)
  | 1 => signedOf 16 (field bs (2 * i) 2)
  | 2 => signedOf 8 (byteAt bs i).toNat
  | _ => signedOf 4 (fld (byteAt bs (i / 2)).toNat (4 * (i % 2)) 4)

end Sys2Proof.Machine
end

