-- ==== Sys2Proof/Machine/Sequencer.lean ====
section
/-! DEFINITION. Sequencer.lean: control operations, dispatch, issue and signals (R221 to R230, R239 to R243, R258). -/

namespace Sys2Proof.Machine

/-! ## The next instruction -/

/-- The instruction at PC, when the station dispatches: a role of a running job is held, END has not dispatched and no CLOAD
holds dispatch (R221, R227). -/
def State.nextInstr (s : State) (st : Fin 16) : Option (BitVec 128) :=
  let t := s.stations[st]
  if s.jobRuns t && t.run && t.load.isNone then t.code[t.pc]? else none

/-- Dispatch continues with the next instruction. -/
def Station.advance (t : Station) : Station := { t with pc := t.pc + 1 }

/-- A control operation executes when it is the next instruction and its wait is satisfied (R221). -/
def State.control (s : State) (st : Fin 16) (op : Nat) : Option (BitVec 128) :=
  (s.nextInstr st).filter fun iw => opOf iw == op && s.stations[st].waitNow iw

/-- A row of the table that is a control operation. -/
def controlRow (st : Fin 16) (op : Nat) (effect : State → Station → BitVec 128 → State) (s : State) :
    Host.Outcome State Fault Refusal :=
  occurs s (s.control st op).isSome fun s =>
    match s.control st op with
    | some iw => effect s s.stations[st] iw
    | none => s

/-- A control operation's effect on the station, then its signal. -/
def State.controlDone (s : State) (st : Fin 16) (iw : BitVec 128) (t : Station) : State :=
  (s.putStn st t.advance).raise st iw

/-! ## Control operations (Table 13.6, R239) -/

/-- NOP: used for its wait or signal. -/
def execNop (st : Fin 16) (s : State) : Host.Outcome State Fault Refusal :=
  controlRow st 0x01 (fun s t iw => s.controlDone st iw t) s

/-- END ends the station's code. -/
def execEndCode (st : Fin 16) (s : State) : Host.Outcome State Fault Refusal :=
  controlRow st 0x02 (fun s t iw => s.controlDone st iw { t with run := false, ended := true }) s

/-- CSET: counter ← VALUE. -/
def execCset (st : Fin 16) (s : State) : Host.Outcome State Fault Refusal :=
  controlRow st 0x03 (fun s t iw => s.controlDone st iw (t.setCtr (modsFld iw 0 5) (BitVec.ofNat 32 (t.param iw 0 32)))) s

/-- The comparator a CMPSET loads: BASE, STEP, CTR (Table 14.2). -/
def Station.cmpOf (t : Station) (iw : BitVec 128) : Cmp :=
  ⟨BitVec.ofNat 32 (t.param iw 0 32), BitVec.ofNat 16 (t.param iw 32 16), BitVec.ofNat 5 (t.param iw 48 5)⟩

/-- CMPSET: comparator ← BASE, STEP, CTR. -/
def execCmpset (st : Fin 16) (s : State) : Host.Outcome State Fault Refusal :=
  controlRow st 0x04 (fun s t iw =>
    s.controlDone st iw { t with cmps := vupdN t.cmps (modsFld iw 0 3) fun _ => t.cmpOf iw }) s

/-- The fault of a narrow access at a window offset, in the order of R45 (R168, R171, R239). -/
def Station.narrowFault (t : Station) (off : Int) : Option Byte :=
  firstFault [(decide (off % 8 ≠ 0), Code.alignFault), (!t.inWin off 8, Code.boundFault),
    (!t.pantry.isDual (t.phys off.toNat), Code.viewFault)]

/-- CLOAD: the 8-byte word at D0 is read with a narrow access; dispatch holds until it arrives. A word that the Pantry's code
cannot correct faults it (R181). -/
def execCload (st : Fin 16) (ecc : EccEvent) (s : State) : Host.Outcome State Fault Refusal :=
  controlRow st 0x05 (fun s t iw =>
    match t.narrowFault (t.ea (d0Of iw)) with
    | some c => s.instrFault st c
    | none =>
      s.eccSeen st 21 ecc fun s1 => s1.updStn st fun t => { t.advance with
        load := some ⟨iw, BitVec.ofNat 5 (modsFld iw 0 5), BitVec.ofNat 64 (leNat (t.rd (t.ea (d0Of iw)).toNat 8))⟩ }) s

/-- CSTORE: the 8-byte word at D0 ← counter, zero-extended; the signal is raised when the write has landed. -/
def execCstore (st : Fin 16) (s : State) : Host.Outcome State Fault Refusal :=
  controlRow st 0x06 (fun s t iw =>
    match t.narrowFault (t.ea (d0Of iw)) with
    | some c => s.instrFault st c
    | none => s.controlDone st iw (t.wr (t.ea (d0Of iw)).toNat (natLe 8 (t.ctr (modsFld iw 0 5)).toNat))) s

/-- The station after LOOP: the counter counts, and dispatch continues at the target unless the incremented counter GE the
comparator as it stood before (R227). -/
def Station.looped (t : Station) (iw : BitVec 128) : Station :=
  let c := modsFld iw 0 5
  let v := t.cmpVal (modsFld iw 5 3)
  let t' := t.setCtr c (t.ctr c + 1)
  if geWord (t.ctr c + 1) v then t'.advance else { t' with pc := dAddr (t.desc (d0Of iw)) }

/-- LOOP, the only branch. -/
def execLoop (st : Fin 16) (s : State) : Host.Outcome State Fault Refusal :=
  controlRow st 0x07 (fun s t iw => (s.putStn st (t.looped iw)).raise st iw) s

/-- The word of a CLOAD arrives: the counter takes its low 32 bits and the CLOAD raises its signal (R226, R239). -/
def execCloadWordArrival (st : Fin 16) (s : State) : Host.Outcome State Fault Refusal :=
  occurs s (s.jobRuns s.stations[st] && s.stations[st].load.isSome) fun s =>
    match s.stations[st].load with
    | some l =>
      (s.putStn st { s.stations[st].setCtr l.ctr.toNat (l.word.setWidth 32) with load := none }).raise st l.iw
    | none => s

/-! ## Dispatch (R221) -/

/-- The opcode is a control operation, executed at dispatch. -/
def isControl (op : Nat) : Bool := 1 ≤ op && op ≤ 7

/-- The queue of the physical engine that serves a virtual unit (R221, R231). -/
def Station.queueOf (t : Station) (iw : BitVec 128) : Fin 22 := t.umap.getD (unitOf iw) 0

/-- The queue entry of an instruction dispatched now: its addresses and comparator values are sampled (R225, R229). -/
def Station.entryOf (t : Station) (iw : BitVec 128) : QEntry where
  iw := iw
  ea0 := t.ea (d0Of iw)
  ea1 := t.ea (d1Of iw)
  ea2 := t.ea (d2Of iw)
  eaX := t.ea (t.xd iw)
  eaE := t.ea (t.xe iw)
  v0 := t.cmpVal (w0iOf iw / 32)
  v1 := t.cmpVal (w1iOf iw / 32)
  phase := .waiting
  left := 0
  done := 0
  hdrs := []
  rows := 0
  xid := t.nextXid
  fetched := 0
  started := 0
  landed := 0
  acc := []
  idx := []
  inp := []
  out := []

/-- Put an instruction at the end of its engine's queue. -/
def Station.enqueue (t : Station) (iw : BitVec 128) : Station :=
  { t with
    queues := vupd t.queues (t.queueOf iw) fun l => l ++ [t.entryOf iw]
    nextXid := t.nextXid + 1 }

/-- The next instruction is one for an engine's queue or the side queue, and that queue has room (R221, R240). -/
def State.dispatchable (s : State) (st : Fin 16) : Option (BitVec 128) :=
  (s.nextInstr st).filter fun iw =>
    !isControl (opOf iw) && decide (s.stations[st].queues[s.stations[st].queueOf iw].length < 16)

/-- DISPATCH: the next instruction enters the queue of its engine. -/
def execDispatch (st : Fin 16) (s : State) : Host.Outcome State Fault Refusal :=
  occurs s (s.dispatchable st).isSome fun s =>
    match s.dispatchable st with
    | some iw => s.putStn st (s.stations[st].enqueue iw).advance
    | none => s

/-! ## Issue (R222) and its hazards (R53, R71, R97, R143) -/

/-- The lowest MODTAB index an instruction names; it names every index from there to 63 (R53). 64 when it names none. -/
def Station.minMod (t : Station) (iw : BitVec 128) : Nat :=
  let op := opOf iw
  if op = 0x08 then t.param iw 0 6
  else if op = 0x18 then ((List.range (t.param iw 0 2 + 1)).map fun p => dMod (t.desc (d1Of iw + p))).foldl min 64
  else if op = 0x21 then min (t.mod0 iw) (t.mod1 iw)
  else if op = 0x49 then min (t.mod0 iw) (dMod2 (t.desc (d0Of iw)))
  else if op = 0x70 then min (min (t.mod0 iw) (t.mod1 iw)) (t.param iw 8 6)
  else if op = 0x71 then min (t.mod0 iw) (t.mod1 iw)
  else if op = 0x0A ∨ op = 0x09 ∨ op = 0x10 ∨ op = 0x11 ∨ op = 0x19 ∨ op = 0x4B ∨ op = 0x60 then 64
  else t.mod0 iw

/-- The highest MODTAB entry an MLOAD writes. -/
def Station.mloadTop (t : Station) (iw : BitVec 128) : Nat := t.param iw 0 6 + t.param iw 13 6

/-- Instructions dispatched before a given one that have not ended. -/
def Station.earlier (t : Station) (e : QEntry) : List QEntry := t.queues.toList.flatten.filter fun x => decide (x.xid < e.xid)

/-- MODTAB hazards, in the order of dispatch: an MLOAD waits for every earlier instruction that names one of its entries; an
instruction that names an entry of an earlier MLOAD waits for it (R53, R184). -/
def Station.modHazard (t : Station) (x : QEntry) : Bool :=
  if opOf x.iw = 0x08 then (t.earlier x).any fun e => decide (t.minMod e.iw ≤ t.mloadTop x.iw)
  else (t.earlier x).any fun e => opOf e.iw == 0x08 && decide (t.minMod x.iw ≤ t.mloadTop e.iw)

/-- The weight slots an instruction of a Griddle names: a GLOAD's slot, a GMAC's chain (R71). -/
def Station.slotsNamed (t : Station) (iw : BitVec 128) : List Nat :=
  if opOf iw = 0x20 then [t.slotOf iw (modsFld iw 0 3)]
  else if opOf iw = 0x21 then (List.range (t.param iw 33 3 + 1)).map fun c => t.slotOf iw (modsFld iw 0 3 + c)
  else []

/-- The cache rows an instruction of a Skillet names (R97). -/
def Station.crowsNamed (t : Station) (iw : BitVec 128) : List Nat :=
  let c := t.crowOf iw (t.param iw 56 7)
  let op := opOf iw
  if op = 0x4B then (List.range (t.param iw 64 7 + 1)).map (c + ·)
  else if op = 0x4A then (List.range (t.param iw 71 3 + 1)).map (c + ·)
  else if op = 0x44 ∨ op = 0x46 ∨ (op = 0x43 ∧ d1Of iw = 0) then [c]
  else []

/-- An instruction loads a stationary operand: GLOAD or SLOAD. -/
def isLoad (op : Nat) : Bool := op == 0x20 || op == 0x4B

/-- An instruction's signal is not held by the instructions ahead of it in its queue: loads, and the operations of the Funnel,
which leads several streams at once (R151). -/
def overtakes (op : Nat) : Bool := isLoad op || op == 0x18 || op == 0x19

/-- The engine can start the instruction behind those ahead of it in its queue. A GLOAD runs while a stream runs through other
slots, and an SLOAD beside an operation on other rows; a GMAC may follow a GMAC; XFERs follow one another once the one ahead has
fetched its list; the Funnel leads several streams (R151); everything else waits for the queue ahead to end (R58, R67, R71, R97, R191, R222, R240, R243). -/
def Station.engineFree (t : Station) (ahead : List QEntry) (iw : BitVec 128) : Bool :=
  let op := opOf iw
  if op = 0x20 then
    ahead.all fun e => opOf e.iw == 0x21 && (t.slotsNamed e.iw).all fun x => !(t.slotsNamed iw).contains x
  else if op = 0x21 then
    ahead.all fun e => opOf e.iw == 0x21 ||
      (opOf e.iw == 0x20 && (t.slotsNamed e.iw).all fun x => !(t.slotsNamed iw).contains x)
  else if op = 0x4B then
    ahead.all fun e => !isLoad (opOf e.iw) && opOf e.iw != 0x0A &&
      (t.crowsNamed e.iw).all fun x => !(t.crowsNamed iw).contains x
  else if 0x40 ≤ op ∧ op ≤ 0x4A then
    ahead.all fun e => opOf e.iw == 0x4B && (t.crowsNamed e.iw).all fun x => !(t.crowsNamed iw).contains x
  else if op = 0x10 ∨ op = 0x11 then ahead.all fun e => opOf e.iw != 0x0A && e.phase == .running && e.left == 0
  else if op = 0x18 ∨ op = 0x19 then ahead.all fun e => opOf e.iw != 0x0A && e.phase == .running
  else ahead.isEmpty

/-- The engines a Blocker instruction borrows, as queues: one Griddle, the enabled Whisks, and Kettles (R143). The translator
chooses the instances; the model takes the first in service of each class. -/
def State.borrowed (s : State) (st : Fin 16) (iw : BitVec 128) : List (Fin 22) :=
  let gs := ((List.ofFn qGriddle).filter (s.unitOn st)).take 1
  let ws := (List.ofFn qWhisk).filter (s.unitOn st)
  let kb := if opOf iw = 0x70 then s.stations[st].param iw 48 3 + 1 else 1
  gs ++ ws ++ ((List.ofFn qKettle).filter (s.unitOn st)).take kb

/-- The queue's engine is borrowed by a Blocker instruction that has issued (R143). -/
def State.isBorrowed (s : State) (st : Fin 16) (q : Fin 22) : Bool :=
  (s.stations[st].queues[qBlocker].filter fun e => e.phase != .waiting && opOf e.iw != 0x0A).any fun e =>
    (s.borrowed st e.iw).contains q

/-- A Whisk is taken by a WNTT of the other Whisk's queue with WSEL BOTH, or takes it (R88). -/
def Station.whiskPair (t : Station) (q : Fin 22) (iw : BitVec 128) : Bool :=
  let other : Fin 22 := if q = qWhisk 0 then qWhisk 1 else qWhisk 0
  let busy := t.queues[other].filter fun e => e.phase != .waiting && opOf e.iw == 0x30
  if q = qWhisk 0 ∨ q = qWhisk 1 then
    if bitAt (modsOf iw) 2 && opOf iw == 0x30 then busy.isEmpty else busy.all fun e => !bitAt (modsOf e.iw) 2
  else true

/-- The next entry of a queue to issue: the first that has not, when its wait is satisfied, its engine is free to start it and no
hazard holds it. -/
def State.issuable (s : State) (st : Fin 16) (q : Fin 22) : Option (Nat × QEntry) :=
  let t := s.stations[st]
  (firstWith (fun e => e.phase == .waiting) t.queues[q]).filter fun ie =>
    t.waitHolds ie.2.iw ie.2.v0 ie.2.v1 && t.engineFree (t.queues[q].take ie.1) ie.2.iw && !t.modHazard ie.2 &&
      !s.isBorrowed st q && t.whiskPair q ie.2.iw &&
      (q != qBlocker || opOf ie.2.iw == 0x0A || (s.borrowed st ie.2.iw).all fun b => t.queues[b].all fun e => e.phase == .waiting)

/-- ENGINE_ISSUE: the engine takes the next instruction of its queue (R222). -/
def execEngineIssue (st : Fin 16) (q : Fin 22) (s : State) : Host.Outcome State Fault Refusal :=
  occurs s (s.jobRuns s.stations[st] && (s.issuable st q).isSome) fun s =>
    match s.issuable st q with
    | some (i, _) => s.updStn st fun t => t.updAt q i fun e => { e with phase := .issued }
    | none => s

/-! ## Signals (R58, R81, R226) -/

/-- The entry of a queue that may raise its signal: it runs, every check unit of it has passed, and it overtakes nothing but
loads, or is one that may overtake (R58). XFER and XGATHER signal by their own row. -/
def Station.signalable (t : Station) (q : Fin 22) : Option (Nat × QEntry) :=
  let l := t.queues[q]
  ((List.range l.length).find? fun i =>
    match l[i]? with
    | none => false
    | some e => e.phase == .running && e.left == 0 && opOf e.iw != 0x10 && opOf e.iw != 0x11 &&
        (overtakes (opOf e.iw) || (l.take i).all fun x => isLoad (opOf x.iw))).bind fun i => (l[i]?).map fun e => (i, e)

/-- What an instruction's end leaves on its engine: a Kettle and a Blocker are idle again; the Blocker releases its engines,
clears its staging buffer, leaves slot 7 of the borrowed Griddle unloaded and counts its elements (R143, R144); a Card counts
the rows it wrote. -/
def Station.endOp (t : Station) (q : Fin 22) (e : QEntry) : Station :=
  let op := opOf e.iw
  if op = 0x50 then
    if h : 5 ≤ q.val ∧ q.val < 13 then
      { t with kettles := vupd t.kettles ⟨q.val - 5, by omega⟩ fun k =>
        { k with phase := .idle, batch := 0, step := 0, elem := 0, pass := 0, refreshes := wrapAdd k.refreshes e.rows } }
    else t
  else if op = 0x70 ∨ op = 0x71 then
    { t with
      blocker := { t.blocker.stop with
        xout := if op = 0x70 then wrapAdd t.blocker.xout e.rows else t.blocker.xout
        pin := if op = 0x71 then wrapAdd t.blocker.pin e.rows else t.blocker.pin }
      griddles := t.unload7 }
  else if op = 0x60 ∨ op = 0x61 ∨ op = 0x62 then { t with cardRows := wrapAdd t.cardRows e.rows }
  else t

/-- The entry ends: its results and its headers are written, its signal is raised and it leaves the queue. A locked update that finds a row that
no longer agrees faults PARAM_MISMATCH and leaves the row unchanged (R81). -/
def State.finishEntry (s : State) (st : Fin 16) (q : Fin 22) (i : Nat) (e : QEntry) : State :=
  match s.stations[st].putOut e with
  | none => s.instrFault st Code.paramMismatch
  | some t => (s.putStn st ((t.dropAt q i).endOp q e)).raise st e.iw

/-- INSTRUCTION_SIGNAL: an instruction whose checks have all passed and whose writes have landed raises its signal. The read of a
locked header update is told with it: a word that the code cannot correct faults the instruction (R81, R181). -/
def execInstructionSignal (st : Fin 16) (q : Fin 22 × EccEvent) (s : State) : Host.Outcome State Fault Refusal :=
  occurs s (s.jobRuns s.stations[st] && (s.stations[st].signalable q.1).isSome) fun s =>
    match s.stations[st].signalable q.1 with
    | some (i, e) => s.eccSeen st (engineIndex q.1) q.2 fun s1 => s1.finishEntry st q.1 i e
    | none => s

/-! ## Messages between stations (R230, R258) -/

/-- A station accepts a message: it holds a role, and the message's session and epoch are those of STN_ROLE (R258). -/
def Station.accepts (t : Station) (ses : BitVec 14) (epoch : BitVec 16) : Bool := t.held && t.ses == ses && t.epoch == epoch

/-- The answer to a message that was dropped: it carries the sender's session and epoch (R258). -/
def NetMsg.answer (m : NetMsg) : NetMsg := ⟨m.dst, m.src, m.ses, m.back, m.back,
  .stale (match m.kind with
    | .paRead e _ idx _ _ _ => some (e, idx)
    | .paWrite e _ idx _ _ _ => some (e, idx)
    | _ => none)⟩

/-- The message is an answer. -/
def NetMsg.isStale (m : NetMsg) : Bool := match m.kind with | .stale _ => true | _ => false

/-- The message is a signal. -/
def NetMsg.isSignal (m : NetMsg) : Bool := match m.kind with | .signal _ _ => true | _ => false

/-- REMOTE_SIGNAL: the oldest signal from one station to another arrives; signals of one pair keep their order (R230). -/
def execRemoteSignal (src dst : Fin 16) (s : State) : Host.Outcome State Fault Refusal :=
  occurs s (firstWith (fun m => m.isSignal && m.src == src && m.dst == dst) s.net).isSome fun s =>
    match firstWith (fun m => m.isSignal && m.src == src && m.dst == dst) s.net with
    | none => s
    | some (i, m) =>
      let s1 := { s with net := s.net.eraseIdx i }
      match m.kind with
      | .signal k x =>
        if s.stations[dst].accepts m.ses m.epoch then s1.updStn dst fun t => t.applySignal k.toNat x.toNat
        else { s1.updStn dst fun t => { t with stale := wrapAdd t.stale 1 } with net := s.net.eraseIdx i ++ [m.answer] }
      | _ => s

/-- The session's STALE count rises (R258): it saturates. -/
def State.countStale (s : State) (ses : Nat) : State :=
  { s with crown := { s.crown with sessions := s.crown.sessions.upd ses fun x => { x with stale := satAdd x.stale 1 } } }

/-- STALE_ANSWER: the answer ROLE_EPOCH_STALE reaches the sender; a job that still runs ends, and an answer to a role that has
itself ended is dropped (R258). -/
def execStaleAnswer (st : Fin 16) (s : State) : Host.Outcome State Fault Refusal :=
  occurs s (firstWith (fun m : NetMsg => m.isStale && m.dst == st) s.net).isSome fun s =>
    match firstWith (fun m : NetMsg => m.isStale && m.dst == st) s.net with
    | none => s
    | some (i, m) =>
      let s1 := { s with net := s.net.eraseIdx i }
      if s.stations[st].accepts m.ses m.epoch && s.jobRuns s.stations[st] then
        match m.kind with
        | .stale (some (e, idx)) => (s1.countStale m.ses.toNat).seFault st e Code.roleEpochStale idx
        | _ => (s1.countStale m.ses.toNat).instrFault st Code.roleEpochStale
      else s1

/-! ## The side queue and ESYNC (R240 to R243) -/

/-- MLOAD: entries LIST on of the session's modulus list go to MODTAB entries FIRST on (R241). -/
def planMload (_ : State) (t : Station) (e : QEntry) : Plan :=
  let first := t.param e.iw 0 6
  let lst := t.param e.iw 6 7
  let n := t.param e.iw 13 6 + 1
  if 64 < first + n ∨ t.modlist.length < lst + n then .fault Code.badOperand
  else .go { t with modtab := Vector.ofFn fun i =>
    if first ≤ i.val ∧ i.val < first + n then t.modlist.getD (lst + (i.val - first)) ModEntry.reset else t.modtab[i] } e

/-- MLOAD. -/
def execMload (st : Fin 16) (s : State) : Host.Outcome State Fault Refusal := opRow st 0 0x08 planMload s

/-- An object whose descriptor states a length is as long as its header's PLEN says; a length of 0 states none (R27; log entry 18). -/
def lenOk (d plen : Nat) : Bool := dKind d != 1 || fld (dBody d) 0 32 == 0 || decide (512 + plen ≤ fld (dBody d) 0 32)

/-- The header bytes of the source that descriptor `d` names pass R29, and the object holds its payload (R27). -/
def Station.srcOk (t : Station) (ks : Option KeySet) (d : Nat) (b : List Byte) : Bool :=
  hdrOk ks b && lenOk (t.desc d) (Hdr.ofBytes b).plen

/-- The tests of AHDR in the order of R45 (R242). -/
def ahdrFault (ks : Option KeySet) (tag : Word) (t : Station) (e : QEntry) : Option Byte :=
  let b := t.rd e.ea0.toNat 64
  let h := Hdr.ofBytes b
  let p := fun lo w => t.param e.iw lo w
  firstFault [(decide (e.ea0 % 512 ≠ 0), Code.alignFault), (!t.inWin e.ea0 512, Code.boundFault),
    (!t.srcOk ks (d0Of e.iw) b, Code.badOperand), (!layoutOfFamily h, Code.badOperand), (p 4 1 == 1 && decide (h.count < p 48 32), Code.badOperand),
    (p 0 1 == 1 && h.family != p 8 2, Code.paramMismatch), (p 1 1 == 1 && h.layout != p 16 3, Code.paramMismatch),
    (tagBad tag h, Code.keyTagMismatch), (p 2 1 == 1 && decide (h.level < p 24 8), Code.levelExhausted),
    (p 3 1 == 1 && decide (p 32 16 < h.noise), Code.noiseBudget)]

/-- AHDR writes nothing. -/
def planAhdr (s : State) (t : Station) (e : QEntry) : Plan :=
  match ahdrFault (s.stnKeySet t) (s.stnTag t) t e with
  | some c => .fault c
  | none => .go t e

/-- AHDR: facts about an object are asserted before the program relies on them. -/
def execAhdr (st : Fin 16) (ecc : EccEvent) (s : State) : Host.Outcome State Fault Refusal := opRead st 0 0x09 ecc planAhdr s

/-- ESYNC issues once every earlier instruction of its queue has ended, and then only signals (R243). -/
def execEsync (st : Fin 16) (q : Fin 22) (s : State) : Host.Outcome State Fault Refusal :=
  opRow st q 0x0A (fun _ t e => .go t e) s

/-! ## The end of a station's part (R227) -/

/-- The station's part is complete: END has dispatched and every queue of the station is empty. -/
def Station.partReady (t : Station) : Bool := t.ended && !t.partDone && t.queues.toList.all List.isEmpty

/-- STATION_PART_COMPLETE. -/
def execStationPartComplete (st : Fin 16) (s : State) : Host.Outcome State Fault Refusal :=
  occurs s (s.jobRuns s.stations[st] && s.stations[st].partReady) fun s => s.updStn st fun t => { t with partDone := true }

end Sys2Proof.Machine
end

