-- ==== Sys2Proof/Machine/Griddle.lean ====
section
/-! DEFINITION. Griddle.lean: GLOAD, GMAC and GKEYDOT, their passes and blocks (R67 to R86). -/

namespace Sys2Proof.Machine

/-! ## Rows -/

/-- The 128 words of a row at a window offset. -/
def Station.row (t : Station) (off : Nat) : List Nat := (wordsOf (t.rd off 512)).map BitVec.toNat

/-- The bytes of words. -/
def rowBytes (ws : List Nat) : List Byte := ws.flatMap (natLe 4)

/-- Every one of the ranges (offset, length) lies in the window (R171). -/
def Station.allIn (t : Station) (rs : List (Int × Nat)) : Bool := rs.all fun r => t.inWin r.1 r.2

/-- The Griddle of a queue. -/
def Station.griddleAt (t : Station) (g : Fin 2) : Griddle := t.griddles[g]

/-- Change one Griddle. -/
def Station.updGriddle (t : Station) (g : Fin 2) (f : Griddle → Griddle) : Station := { t with griddles := vupd t.griddles g f }

/-! ## GLOAD (R69 to R73) -/

/-- The raw weight for input position f and output position i of a tile: the tile line is f as stored NORMAL and i as stored
TRANSPOSED (R69). -/
def tileElem (fmt : Nat) (transposed : Bool) (bs : List Byte) (f i : Nat) : Int :=
  fmtElem fmt bs (if transposed then 128 * i + f else 128 * f + i)

/-- The modulus entry of column i: one for all (UNI), or first + i (PERCOL) (R69). -/
def Station.colMod (t : Station) (percol : Bool) (first i : Nat) : ModEntry := t.modAt (if percol then first + i else first)

/-- A weight is one its column can hold: 0 in a column without a modulus, below q for RES32 (R69). -/
def weightOk (m : ModEntry) (fmt : Nat) (w : Int) : Bool :=
  if m.valid then fmt != 0 || decide (w < m.q) else w == 0

/-- A weight as the slot holds it: modulo its column's q (R65). -/
def weightWord (m : ModEntry) (w : Int) : Nat := if m.valid then intMod m.q w else 0

/-- The bytes a tile takes in a format: 128 lines of 128 elements (Table 4.2). -/
def tileBytes (fmt : Nat) : Nat := 2048 * fmtBits fmt

/-- GLOAD loads one slot and its side sums. -/
def planGload (g : Fin 2) (_ : State) (t : Station) (e : QEntry) : Plan :=
  let slot := t.slotOf e.iw (modsFld e.iw 0 3)
  let fmt := modsFld e.iw 5 3
  let percol := bitAt (modsOf e.iw) 4
  let first := t.mod0 e.iw
  match firstFault [(decide (e.ea0 % 512 ≠ 0), Code.alignFault), (!t.inWin e.ea0 (tileBytes fmt), Code.boundFault),
      (decide (3 < fmt), Code.badOperand), (!percol && !(t.modAt first).valid, Code.badOperand)] with
  | some c => .fault c
  | none =>
    let bs := t.rd e.ea0.toNat (tileBytes fmt)
    let raw := (List.range 128).map fun f => (List.range 128).map fun i => tileElem fmt (bitAt (modsOf e.iw) 3) bs f i
    let mods := (List.range 128).map fun i => t.colMod percol first i
    if raw.all fun r => (List.zipWith (fun m w => weightOk m fmt w) mods r).all id then
      let w := raw.map fun r => List.zipWith weightWord mods r
      let side := (List.range 128).map fun i =>
        (w.map fun r => ((centred (mods.getD i ModEntry.reset).q (r.getD i 0)) ^ 2).toNat).sum
      .go (t.updGriddle g fun gr =>
        let new : Slot := ⟨true, percol, first, w.map fun r => r.map (BitVec.ofNat 32), side, w.map fun r => r.map (· % 8191)⟩
        { gr with slots := gr.slots.setIfInBounds slot new }) e
    else .fault Code.badOperand

/-- GLOAD. -/
def execGload (st : Fin 16) (g : Fin 2) (ecc : EccEvent) (s : State) : Host.Outcome State Fault Refusal :=
  opRead st (qGriddle g) 0x20 ecc (planGload g) s

/-! ## GMAC (R74 to R81) -/

/-- The parameters of a GMAC (Table 4.3), in bytes where they are strides. -/
structure Gmac where
  turn : Bool
  percol : Bool
  merge : Bool
  slot0 : Nat
  c : Nat
  rows : Nat
  items : Nat
  col0 : Nat
  cols : Nat
  inp : Nat
  dlevel : Nat
  dcount : Nat
  sg : Nat
  si : Nat
  dg : Nat
  di : Nat
  imod : Nat
  mod : Nat
  deriving DecidableEq, Repr

/-- The parameters as the instruction gives them (Table 14.1, Table 14.2, R236, R237). -/
def Station.gmacOf (t : Station) (iw : BitVec 128) : Gmac where
  turn := bitAt (modsOf iw) 3
  percol := bitAt (modsOf iw) 4
  merge := bitAt (modsOf iw) 5
  slot0 := modsFld iw 0 3
  c := t.param iw 33 3 + 1
  rows := t.param iw 0 17 + 1
  items := t.param iw 17 16 + 1
  col0 := t.param iw 36 7
  cols := t.param iw 43 7 + 1
  inp := t.param iw 50 7 + 1
  dlevel := t.param iw 57 7
  dcount := t.param iw 64 17 + 1
  sg := t.param2 iw 0 16 * 512
  si := t.param2 iw 16 16 * 512
  dg := t.param2 iw 32 16 * 512
  di := t.param2 iw 48 16 * 512
  imod := t.mod0 iw
  mod := t.mod1 iw

/-- Rows of 512 bytes that one stream of ROWS takes: each output row is one in ROW orientation, 128 coefficients are one in TURN
orientation. -/
def Gmac.streamRows (p : Gmac) : Nat := if p.turn then ceilDiv p.rows 128 else p.rows

/-- The source ranges and the destination ranges of a GMAC, from its header rows on (Table 4.3). -/
def Gmac.ranges (p : Gmac) (src dst : Int) : List (Int × Nat) :=
  let len := p.streamRows * 512
  [(src, 512), (dst, 512)] ++
    (List.range p.items).flatMap fun (t : Nat) =>
      ((List.range (if p.turn then p.inp else p.c)).map fun (k : Nat) => (src + 512 + ((t * p.si + k * p.sg : Nat) : Int), len)) ++
      (if p.turn then (List.range p.cols).map fun (i : Nat) => (dst + 512 + ((t * p.di + i * p.dg : Nat) : Int), len)
       else [(dst + 512 + ((t * p.di : Nat) : Int), len)])

/-- The slots of the chain. -/
def Station.chain (t : Station) (g : Fin 2) (iw : BitVec 128) (p : Gmac) : List Slot :=
  (List.range p.c).map fun c => (t.griddles[g].slots.toList.getD (t.slotOf iw (p.slot0 + c)) Slot.reset)

/-- S_max: the largest column sum of squares over the chain (R80). -/
def sMax (chain : List Slot) (cols : Nat) : Nat :=
  ((List.range cols).map fun i => (chain.map fun s => s.side.getD i 0).sum).foldl max 0

/-- The destination header: copies of the source's fields, COUNT and, with TURN, LEVEL from the parameters; NOISE of the linear
combination with ROW, copied with TURN (R80). -/
def Gmac.outHdr (p : Gmac) (h : Hdr) (chain : List Slot) : Hdr :=
  let noise := if p.turn then h.noise
    else if sMax chain p.cols = 0 then 0 else eAdd h.noise (ceilLog 16 (sMax chain p.cols) : Nat)
  Hdr.sized { h with level := if p.turn then p.dlevel else h.level, noise := noise, count := p.dcount }

/-- The issue-time checks of a GMAC in the order of R45 (Table 4.5). -/
def gmacFault (ks : Option KeySet) (tag : Word) (t : Station) (g : Fin 2) (e : QEntry) : Option Byte :=
  let p := t.gmacOf e.iw
  let hb := t.rd e.ea0.toNat 64
  let h := Hdr.ofBytes hb
  let chain := t.chain g e.iw p
  let out := p.outHdr h chain
  firstFault [
    (decide (e.ea0 % 512 ≠ 0 ∨ e.ea1 % 512 ≠ 0), Code.alignFault),
    (!t.allIn (p.ranges e.ea0 e.ea1), Code.boundFault),
    (!t.srcOk ks (d0Of e.iw) hb, Code.badOperand),
    (p.turn && h.family == 1 && !(h.layout == 0 || h.layout == 1 || h.layout == 4), Code.badOperand),
    (!p.turn && h.family == 0 && h.layout != 3, Code.badOperand),
    (chain.any fun s => !s.loaded, Code.badOperand),
    (decide (8 < p.slot0 + p.c), Code.badOperand),
    (p.turn && p.c != 1, Code.badOperand),
    (decide (128 < p.col0 + p.cols), Code.badOperand),
    (p.turn && p.rows % 128 != 0, Code.badOperand),
    (if p.percol then !t.modsOk p.mod p.cols || !t.modsOk p.imod p.inp else !(t.modAt p.mod).valid, Code.badOperand),
    (p.turn && h.family == 1 && !levelOk ks h.psid p.dlevel, Code.badOperand),
    (h.family != (if p.turn then 1 else 0), Code.paramMismatch),
    (p.percol && !p.turn, Code.paramMismatch),
    (chain.any fun s => s.percol != p.percol || s.mod != p.mod, Code.paramMismatch),
    (p.merge && !mergeOk (t.rd e.ea1.toNat 64) out.bytes, Code.paramMismatch),
    (tagBad tag h, Code.keyTagMismatch),
    (!p.turn && overBudget out, Code.noiseBudget)]

/-- The words of streamed row j of item i of chain input k: a WORD_MAJOR row as stored, or coefficient j of every limb below IN,
positions from IN on streaming as 0 (R75, R77). -/
def Station.streamed (t : Station) (p : Gmac) (src : Nat) (item k j : Nat) : List Nat :=
  if p.turn then
    (List.range 128).map fun f => if f < p.inp then
      leNat (t.rd (src + 512 + item * p.si + f * p.sg + j * 4) 4) else 0
  else t.row (src + 512 + item * p.si + k * p.sg + j * 512)

/-- Every streamed word is canonical: for the output modulus, or with PERCOL for entry IMOD + f (R49, Table 4.3). -/
def Station.streamOk (t : Station) (p : Gmac) (ws : List Nat) : Bool :=
  (List.range 128).all fun f => decide (ws.getD f 0 < (t.modAt (if p.percol then p.imod + f else p.mod)).q ∨
    (p.turn = true ∧ p.inp ≤ f))

/-- The unreduced sum of column i over the chain of weight times streamed word (R76). -/
def macSum (chain : List Slot) (xs : List (List Nat)) (i : Nat) : Nat :=
  (List.zipWith (fun (s : Slot) x => (List.zipWith (fun (r : List Word) v => (r.getD i 0).toNat * v) s.w x).sum) chain xs).sum

/-- The output word of column i: the sum reduced once (R75). -/
def macWord (q : Nat) (chain : List Slot) (xs : List (List Nat)) (i : Nat) : Nat := macSum chain xs i % q

/-- Passes of one item: 128 output rows each, the last one fewer (R76). -/
def Gmac.itemPasses (p : Gmac) : Nat := ceilDiv p.rows 128

/-- Tiles that the translator makes of a GMAC on a Griddle that presents `w` columns: one of w columns and a remainder (Table 13.9);
one tile where the columns fit (log entry 44). -/
def Gmac.tiles (p : Gmac) (w : Nat) : Nat := if w = 0 then 1 else ceilDiv p.cols w

/-- Passes of the whole instruction. -/
def Gmac.passes (p : Gmac) (w : Nat) : Nat := p.tiles w * (p.items * p.itemPasses)

/-- The item of pass number n. -/
def Gmac.itemOf (p : Gmac) (n : Nat) : Nat := n / p.itemPasses % p.items

/-- The output rows of pass number n, as indices within the item. -/
def Gmac.rowsOf (p : Gmac) (n : Nat) : List Nat :=
  let j0 := 128 * (n % p.itemPasses)
  (List.range (min 128 (p.rows - j0))).map (j0 + ·)

/-- The columns of pass number n: those of its tile. -/
def Gmac.colsOf (p : Gmac) (w n : Nat) : List Nat :=
  let tile := n / (p.items * p.itemPasses)
  (List.range p.cols).filter fun i => w == 0 || i / w == tile

/-- The rows that pass number n streams for output row j, one for each chained slot. -/
def Station.passIn (t : Station) (p : Gmac) (src n j : Nat) : List (List Nat) :=
  (List.range p.c).map fun k => t.streamed p src (p.itemOf n) k j

/-- Every word that pass number n streams is canonical (R49). -/
def Station.passOk (t : Station) (p : Gmac) (src n : Nat) : Bool :=
  (p.rowsOf n).all fun j => (t.passIn p src n j).all fun ws => t.streamOk p ws

/-- The results of pass number n, from the output row and its reduced words: the masked words of the row (ROW), or one word of each
output limb (TURN) (R75, R77). -/
def Gmac.place (p : Gmac) (dst n : Nat) (cols : List Nat) (j : Nat) (ws : List Nat) : List (Nat × List Byte) :=
  let base := dst + 512 + p.itemOf n * p.di
  if p.turn then List.zipWith (fun i x => (base + i * p.dg + j * 4, natLe 4 x)) cols ws
  else [(base + j * 512 + (p.col0 + cols.headD 0) * 4, rowBytes ws)]

/-- The reduced words of output row j of pass number n (R75). -/
def Station.passRow (t : Station) (p : Gmac) (chain : List Slot) (src n : Nat) (cols : List Nat) (j : Nat) : List Nat :=
  cols.map fun i => macWord (t.colMod p.percol p.mod i).q chain (t.passIn p src n j) i

/-- What pass number n gives to the instruction's results. -/
def Station.passOut (t : Station) (p : Gmac) (chain : List Slot) (w src dst n : Nat) : List (Nat × List Byte) :=
  let cols := p.colsOf w n
  (p.rowsOf n).flatMap fun j => p.place dst n cols j (t.passRow p chain src n cols j)

/-- The Griddle's buffers after a pass: the sums in the chain buffer's bank of this pass, and with TURN the rows as streamed and as
reduced in the corner-turn buffers (R67, R76, R77). -/
def Griddle.afterPass (gr : Griddle) (p : Gmac) (sums ins outs : List (List Nat)) (n : Nat) : Griddle :=
  { gr with
    chain0 := if n % 2 = 0 then sums else gr.chain0
    chain1 := if n % 2 = 1 then sums else gr.chain1
    turnIn := if p.turn then ins else gr.turnIn
    turnOut := if p.turn then outs else gr.turnOut }

/-- The station after pass number n of a GMAC has streamed: its buffers, and the destination rows, which hold no defined contents
before the signal (R79). -/
def Station.passDone (t : Station) (g : Fin 2) (p : Gmac) (chain : List Slot) (w src dst n fresh : Nat) : Station :=
  let cols := p.colsOf w n
  let rows := p.rowsOf n
  (t.updGriddle g fun gr => gr.afterPass p
    (rows.map fun j => cols.map fun i => macSum chain (t.passIn p src n j) i)
    (rows.map fun j => (t.passIn p src n j).flatten)
    (rows.map fun j => t.passRow p chain src n cols j) n).blur fresh (t.passOut p chain w src dst n)

/-- GMAC: checks at issue; its passes follow one by one by GRIDDLE_PASS, and its results and its header are written by its
signal. -/
def planGmac (g : Fin 2) (s : State) (t : Station) (e : QEntry) : Plan :=
  match gmacFault (s.stnKeySet t) (s.stnTag t) t g e with
  | some c => .fault c
  | none =>
    let p := t.gmacOf e.iw
    let out := p.outHdr (Hdr.ofBytes (t.rd e.ea0.toNat 64)) (t.chain g e.iw p)
    .go t { e with left := p.passes t.griddles[g].width, hdrs := [⟨e.ea1.toNat, out.bytes, p.merge⟩] }

/-- GMAC. -/
def execGmac (st : Fin 16) (g : Fin 2) (ecc : EccEvent) (s : State) : Host.Outcome State Fault Refusal :=
  opRead st (qGriddle g) 0x21 ecc (planGmac g) s

/-- Rows that pass number n of a GMAC streams: C × m, with m at most 128 (R76). -/
def Gmac.passRows (p : Gmac) (n : Nat) : Nat := p.c * (p.rowsOf n).length

/-- The engine index of a Griddle in STN_CHKCNT (R60). -/
def chkGriddle (g : Fin 2) : Fin 12 := ⟨g.val, by omega⟩

/-- A check on an engine that a running Blocker instruction has borrowed (R133, R143). -/
def State.borrowedCheck (s : State) (st : Fin 16) (q : Fin 22) : Option QEntry :=
  if s.isBorrowed st q then (s.stations[st].queues[qBlocker].find? fun e => e.phase == .running) else none

/-- A check of a borrowed engine: the Blocker instruction goes on, or faults (R133). -/
def borrowedRow (st : Fin 16) (q : Fin 22) (chk : Fin 12) (v : Verdict) (s : State) : Host.Outcome State Fault Refusal :=
  occurs s (s.jobRuns s.stations[st] && (s.borrowedCheck st q).isSome) fun s =>
    match s.borrowedCheck st q with
    | some e => s.checked st chk v e.done id
    | none => s

/-- GRIDDLE_PASS: a pass of the running GMAC ends with its compare; a replay streams its rows once more (R56, R57, R76). A word that
is not canonical faults as it enters (R49). GRD_ROWS counts the rows of passes that have ended, a replayed or failed pass twice, and
none of a pass that R58 discards or that the job's end cuts short (DESIGN CHOICE, log entry 45). -/
def execGriddlePass (st : Fin 16) (g : Fin 2) (v : Verdict) (ecc : EccEvent) (s : State) : Host.Outcome State Fault Refusal :=
  if s.isBorrowed st (qGriddle g) then borrowedRow st (qGriddle g) (chkGriddle g) v s
  else
    runRow st (qGriddle g) [0x21] (fun _ _ _ => true) (fun s t i e =>
      let p := t.gmacOf e.iw
      let chain := t.chain g e.iw p
      let w := t.griddles[g].width
      let ws := t.passOut p chain w e.ea0.toNat e.ea1.toNat e.done
      let n := (p.passRows e.done) * (if v = .pass then 1 else 2)
      let s1 := s.updStn st fun t => t.updGriddle g fun x => { x with rows := wrapAdd x.rows n }
      s1.eccSeen st g.val ecc fun s2 =>
        if t.passOk p e.ea0.toNat e.done then
          (s2.updStn st fun t => t.passDone g p chain w e.ea0.toNat e.ea1.toNat e.done s.fresh).tick.checked st (chkGriddle g) v e.done
            fun s3 => s3.updStn st fun t => t.updAt (qGriddle g) i fun e => e.unitOut ws
        else s2.instrFault st Code.badOperand) s

/-! ## GKEYDOT (R82, R83) -/

/-- D, LIMBS and DSTRIDE of a GKEYDOT (Table 14.2). -/
def Station.kdD (t : Station) (iw : BitVec 128) : Nat := t.param iw 24 3 + 1
/-- LIMBS. -/
def Station.kdLimbs (t : Station) (iw : BitVec 128) : Nat := t.param iw 27 7 + 1
/-- DSTRIDE in rows. -/
def Station.kdStride (t : Station) (iw : BitVec 128) : Nat := t.param iw 40 16

/-- The multicast group a consuming instruction names, as a physical group (R156, R231). -/
def Station.grpOf (t : Station) (iw : BitVec 128) : Option (Fin 64) :=
  let op := opOf iw
  let grp := if op = 0x22 then t.param iw 34 6 else if op = 0x50 then t.param iw 63 6
    else if op = 0x70 then t.param iw 56 6 else t.param iw 60 6
  t.gmap[grp]?

/-- Rows that GKEYDOT reads and writes with their headers, for a set of ring degree 2^logn (R82, R237). -/
def Station.kdRanges (t : Station) (e : QEntry) (logn : Nat) : List (Int × Nat) :=
  let n128 := 2 ^ logn / 128
  let limbs := t.kdLimbs e.iw
  let len := limbs * n128 * 512
  ((List.range (t.kdD e.iw)).map fun (d : Nat) => (e.ea0 + 512 + ((d * t.kdStride e.iw * 512 : Nat) : Int), len)) ++
    [(e.ea1 + 512, len), (e.eaX + 512, len)]

/-- The output header of a GKEYDOT: COUNT and NOISE from the digit header, LEVEL LIMBS - 1 (R82, R237). -/
def kdHdr (h : Hdr) (limbs : Nat) : Hdr := Hdr.sized { h with level := limbs - 1 }

/-- The issue-time checks of a GKEYDOT in the order of R45 (Table 4.5). -/
def keydotFault (ks : Option KeySet) (tag : Word) (t : Station) (e : QEntry) : Option Byte :=
  let hb := t.rd e.ea0.toNat 64
  let h := Hdr.ofBytes hb
  let ok := hdrOk ks hb
  firstFault [
    (decide (e.ea0 % 512 ≠ 0 ∨ e.ea1 % 512 ≠ 0 ∨ e.eaX % 512 ≠ 0), Code.alignFault),
    (!t.allIn [(e.ea0, 512), (e.ea1, 512), (e.eaX, 512)], Code.boundFault),
    (ok && !t.allIn (if isPackedSet h.psid then t.kdRanges e (setLogN h.psid) else [(e.ea0 + 512, h.plen)]), Code.boundFault),
    (!t.srcOk ks (d0Of e.iw) hb, Code.badOperand),
    (h.family == 1 && h.layout != 1, Code.badOperand),
    (h.family == 1 && !levelOk ks h.psid (t.kdLimbs e.iw - 1), Code.badOperand),
    (!t.modsOk (t.mod0 e.iw) (t.kdLimbs e.iw), Code.badOperand),
    (h.family != 1, Code.paramMismatch),
    (tagBad tag h, Code.keyTagMismatch)]

/-- GKEYDOT: checks at issue; its blocks follow as key rows arrive. -/
def planGkeydot (s : State) (t : Station) (e : QEntry) : Plan :=
  match keydotFault (s.stnKeySet t) (s.stnTag t) t e with
  | some c => .fault c
  | none =>
    let h := Hdr.ofBytes (t.rd e.ea0.toNat 64)
    let out := (kdHdr h (t.kdLimbs e.iw)).bytes
    .go t { e with left := t.kdLimbs e.iw * (h.n / 128), hdrs := [⟨e.ea1.toNat, out, false⟩, ⟨e.eaX.toNat, out, false⟩] }

/-- GKEYDOT. -/
def execGkeydot (st : Fin 16) (g : Fin 2) (ecc : EccEvent) (s : State) : Host.Outcome State Fault Refusal :=
  opRead st (qGriddle g) 0x22 ecc planGkeydot s

/-- The digit rows of the block now running (R82). -/
def Station.blockDigits (t : Station) (e : QEntry) : List (List Nat) :=
  (List.range (t.kdD e.iw)).map fun k => t.row (e.ea0.toNat + 512 + (k * t.kdStride e.iw + e.done) * 512)

/-- Element-wise a + x × k, unreduced. -/
def mulAcc (a x k : List Nat) : List Nat := List.zipWith (· + ·) a (List.zipWith (· * ·) x k)

/-- The two sums of a block over its digits: each digit takes one body row and one mask row of the key (R82, R152). -/
def kdSums : List (List Nat) → List Nat → List Nat → List Nat → List Nat × List Nat
  | [], _, a0, a1 => (a0, a1)
  | x :: xs, keys, a0, a1 => kdSums xs (keys.drop 256) (mulAcc a0 x (keys.take 128)) (mulAcc a1 x ((keys.drop 128).take 128))

/-- The key words a block needs are in the FIFO. -/
def keydotReady (g : Fin 2) (_ : State) (t : Station) (e : QEntry) : Bool :=
  decide (256 * t.kdD e.iw ≤ t.griddles[g].keyFifo.length)

/-- What a block gives to the instruction's results: a row of each output (R82). -/
def Station.blockOut (t : Station) (g : Fin 2) (e : QEntry) : List (Nat × List Byte) :=
  let h := Hdr.ofBytes ((e.hdrs.headD ⟨0, [], false⟩).bytes)
  let q := (t.modAt (t.mod0 e.iw + e.done / (h.n / 128))).q
  let sums := kdSums (t.blockDigits e) ((t.griddles[g].keyFifo.take (256 * t.kdD e.iw)).map BitVec.toNat) (List.replicate 128 0)
    (List.replicate 128 0)
  [(e.ea1.toNat + 512 + e.done * 512, rowBytes (sums.1.map (· % q))),
   (e.eaX.toNat + 512 + e.done * 512, rowBytes (sums.2.map (· % q)))]

/-- GKEYDOT_BLOCK: one block's digits and key words are multiplied, summed and reduced into a row of each output; a digit word
that is not canonical faults; a replay takes the key rows from the FIFO (R49, R82, R83). The rows hold no defined contents before
the signal (R79, log entry 9). -/
def execGkeydotBlock (st : Fin 16) (g : Fin 2) (v : Verdict × EccEvent) (s : State) : Host.Outcome State Fault Refusal :=
  if s.isBorrowed st (qGriddle g) then borrowedRow st (qGriddle g) (chkGriddle g) v.1 s
  else
    runRow st (qGriddle g) [0x22] (keydotReady g) (fun s t i e =>
      let h := Hdr.ofBytes ((e.hdrs.headD ⟨0, [], false⟩).bytes)
      let q := (t.modAt (t.mod0 e.iw + e.done / (h.n / 128))).q
      let ws := t.blockOut g e
      s.eccSeen st g.val v.2 fun s1 =>
        if (t.blockDigits e).all fun r => r.all fun x => decide (x < q) then
          (s1.updStn st fun t => t.blur s.fresh ws).tick.checked st (chkGriddle g) v.1 e.done fun s2 => s2.updStn st fun t =>
            (t.updGriddle g fun x =>
              { x with keyFifo := x.keyFifo.drop (256 * t.kdD e.iw), krows := wrapAdd x.krows (t.kdD e.iw) }).updAt (qGriddle g) i
                fun e => e.unitOut ws
        else s1.instrFault st Code.badOperand) s

end Sys2Proof.Machine
end

