-- ==== Sys2Proof/Machine/Whisk.lean ====
section
/-! DEFINITION. Whisk.lean: WNTT and its stages (R87 to R92). -/

namespace Sys2Proof.Machine

/-- The parameters of a WNTT (Table 5.1, Table 14.1, Table 14.2). -/
structure Wntt where
  inv : Bool
  batch : Bool
  both : Bool
  limb0 : Nat
  limbs : Nat
  mod : Nat
  deriving DecidableEq, Repr

/-- The parameters as the instruction gives them. -/
def Station.wnttOf (t : Station) (iw : BitVec 128) : Wntt where
  inv := bitAt (modsOf iw) 0
  batch := bitAt (modsOf iw) 1
  both := bitAt (modsOf iw) 2
  limb0 := t.param iw 0 7
  limbs := t.param iw 7 7 + 1
  mod := t.mod0 iw

/-- The output header: LAYOUT EVAL or OUTLAYOUT, LEVEL LIMBS - 1, everything else copied (R90). -/
def Wntt.outHdr (p : Wntt) (h : Hdr) : Hdr :=
  Hdr.sized { h with layout := if p.inv then (if p.batch then 4 else 0) else 1, level := p.limbs - 1 }

/-- Rows of one limb. -/
def Hdr.limbRows (h : Hdr) : Nat := h.n / 128

/-- The source ranges a WNTT reads and the destination range it writes, header rows apart. -/
def Wntt.ranges (p : Wntt) (h : Hdr) (src dst : Int) : List (Int × Nat) :=
  ((List.range h.polys).map fun (k : Nat) =>
    (src + 512 + (((k * h.limbs + p.limb0) * h.limbRows * 512 : Nat) : Int), p.limbs * h.limbRows * 512)) ++
    [(dst + 512, h.polys * p.limbs * h.limbRows * 512)]

/-- Two ranges share a byte. -/
def overlaps (a : Int) (n : Nat) (b : Int) (m : Nat) : Bool := decide (a < b + m ∧ b < a + n ∧ 0 < n ∧ 0 < m)

/-- DST is SRC with the full limb range, or disjoint from it (R88). -/
def Wntt.placeOk (p : Wntt) (h out : Hdr) (src dst : Int) : Bool :=
  if src = dst then p.limb0 == 0 && p.limbs == h.limbs
  else !overlaps src (512 + h.plen) dst (512 + out.plen)

/-- The issue-time checks of a WNTT in the order of R45 (R90, Table 5.4). FWD with OUTLAYOUT BATCH faults BAD_OPERAND: R250 wants the
field 0, Table 5.1 calls it ignored, and neither names a code (DESIGN CHOICE, log entry 43). The MODTAB entries tested are those of
the limbs processed (log entry 41). Of a source of the wrong family the payload is bound-checked by its PLEN (R45). -/
def wnttFault (ks : Option KeySet) (tag : Word) (t : Station) (e : QEntry) : Option Byte :=
  let p := t.wnttOf e.iw
  let hb := t.rd e.ea0.toNat 64
  let h := Hdr.ofBytes hb
  let ok := hdrOk ks hb && h.family != 0
  let out := p.outHdr h
  firstFault [
    (decide (e.ea0 % 512 ≠ 0 ∨ e.ea1 % 512 ≠ 0), Code.alignFault),
    (!t.allIn [(e.ea0, 512), (e.ea1, 512)], Code.boundFault),
    (hdrOk ks hb && !t.allIn (if ok then p.ranges h e.ea0 e.ea1 else [(e.ea0 + 512, h.plen)]), Code.boundFault),
    (!t.srcOk ks (d0Of e.iw) hb, Code.badOperand),
    (ok && (if p.inv then h.layout != 1 else !(h.layout == 0 || h.layout == 4)), Code.badOperand),
    (!p.inv && p.batch, Code.badOperand),
    (ok && decide (h.limbs < p.limb0 + p.limbs), Code.badOperand),
    (ok && !p.placeOk h out e.ea0 e.ea1, Code.badOperand),
    (!t.modsOk (p.mod + p.limb0) p.limbs, Code.badOperand),
    (h.family == 0, Code.paramMismatch),
    (ok && !t.modsServe (p.mod + p.limb0) p.limbs (setLogN h.psid), Code.paramMismatch),
    (tagBad tag h, Code.keyTagMismatch)]

/-- One limb as words. -/
def Station.limbAt (t : Station) (off n : Nat) : List Nat := (wordsOf (t.rd off (4 * n))).map BitVec.toNat

/-- The limbs a WNTT transforms, by polynomial then limb. -/
def Station.wnttIn (t : Station) (p : Wntt) (h : Hdr) (src : Nat) : List (Nat × List Nat) :=
  (List.range h.polys).flatMap fun k => (List.range p.limbs).map fun j =>
    (j, t.limbAt (src + 512 + (k * h.limbs + p.limb0 + j) * h.limbRows * 512) h.n)

/-- A limb transformed whole under entry MOD + LIMB0 + j (R62, R88): what the stages come to. -/
def Station.wnttLimb (t : Station) (p : Wntt) (h : Hdr) (jl : Nat × List Nat) : List Nat :=
  let m := t.modAt (p.mod + p.limb0 + jl.1)
  if p.inv then invOf m (setLogN h.psid) jl.2 else fwdOf m (setLogN h.psid) jl.2

/-- Limbs of the whole instruction that each Whisk takes: all of them with WSEL ONE; with BOTH, W0 takes c0 and W1 takes c1, and
of a plaintext W0 takes the first half (R88). -/
def wnttShare (both : Bool) (h : Hdr) (limbs : Nat) (g : Fin 2) : Nat :=
  if !both then h.polys * limbs
  else if h.family = 2 then (if g = 0 then ceilDiv limbs 2 else limbs - ceilDiv limbs 2)
  else limbs

/-- Limbs transformed side by side: G (R89). -/
def limbGroup (h : Hdr) : Nat := max 1 (2048 / h.n)

/-- Stages of a share of M limbs: ceil(M / G) groups of log2 N stages (R89, R91). -/
def stagesOf (h : Hdr) (m : Nat) : Nat := ceilDiv m (limbGroup h) * setLogN h.psid

/-- The row pieces that a limb's result takes in DST. -/
def limbOut (h : Hdr) (dst : Nat) (k : Nat) (ws : List Nat) : Nat × List Byte := (dst + 512 + k * h.limbRows * 512, rowBytes ws)

/-- WNTT: checks at issue, then the limbs enter; a word that is not canonical faults as it enters (R49). Its stages run one by one
by WHISK_STAGE; until the signal DST holds no defined contents (R92, log entry 9). -/
def planWntt (s : State) (t : Station) (e : QEntry) : Plan :=
  match wnttFault (s.stnKeySet t) (s.stnTag t) t e with
  | some c => .fault c
  | none =>
    let p := t.wnttOf e.iw
    let h := Hdr.ofBytes (t.rd e.ea0.toNat 64)
    let ins := t.wnttIn p h e.ea0.toNat
    if ins.all fun jl => jl.2.all fun x => decide (x < (t.modAt (p.mod + p.limb0 + jl.1)).q) then
      let stages := if p.both then stagesOf h (wnttShare true h p.limbs 0) + stagesOf h (wnttShare true h p.limbs 1)
        else stagesOf h (wnttShare false h p.limbs 0)
      .go (t.blur s.fresh [(e.ea1.toNat + 512, zeros (h.polys * p.limbs * h.limbRows * 512))])
        { e with left := stages, hdrs := [⟨e.ea1.toNat, (p.outHdr h).bytes, false⟩], inp := ins.map Prod.snd }
    else .fault Code.badOperand

/-- WNTT. -/
def execWntt (st : Fin 16) (g : Fin 2) (ecc : EccEvent) (s : State) : Host.Outcome State Fault Refusal := opRead st (qWhisk g) 0x30 ecc planWntt s

/-- The engine index of a Whisk in STN_CHKCNT (R60). -/
def chkWhisk (g : Fin 2) : Fin 12 := ⟨2 + g.val, by omega⟩

/-- The queue whose WNTT a Whisk works on: its own, or the other's with WSEL BOTH. -/
def Station.whiskQueue (t : Station) (g : Fin 2) : Fin 22 :=
  if (t.runningOp (qWhisk g) [0x30]).isSome then qWhisk g else qWhisk (if g = 0 then 1 else 0)

/-- Stages that Whisk g has ended in an entry: W0's of a BOTH in `done`, W1's in `rows`; a ONE's in `done`. -/
def stagesDone (both : Bool) (g : Fin 2) (e : QEntry) : Nat := if both && g == 1 then e.rows else e.done

/-- Whisk g has a stage of this entry still to end. -/
def stageReady (g : Fin 2) (q : Fin 22) (t : Station) (e : QEntry) : Bool :=
  let p := t.wnttOf e.iw
  let h := Hdr.ofBytes (e.hdrs.headD ⟨0, [], false⟩).bytes
  (p.both || q == qWhisk g) && decide (stagesDone p.both g e < stagesOf h (wnttShare p.both h p.limbs g))

/-- The limbs of the instruction, numbered by polynomial then limb, that Whisk g transforms side by side in group k of its share
(R88, R89). -/
def groupLimbs (both : Bool) (h : Hdr) (limbs : Nat) (g : Fin 2) (k : Nat) : List Nat :=
  let first := if both && g == 1 then wnttShare both h limbs 0 else 0
  let share := wnttShare both h limbs g
  (List.range (min (limbGroup h) (share - k * limbGroup h))).map fun x => first + k * limbGroup h + x

/-- The group's limbs at the input of stage number n of Whisk g: as they entered the engine, or what the stage before left. -/
def Station.stageIn (t : Station) (g : Fin 2) (e : QEntry) (ids : List Nat) (s : Nat) : List (List Nat) :=
  if s = 0 then ids.map fun x => e.inp.getD x [] else t.whisks[g].half

/-- Stage s on the limbs of a group, each under the entry MOD + LIMB0 + j of its limb j (R62, R88). -/
def Station.stageOut (t : Station) (p : Wntt) (h : Hdr) (s : Nat) (ids : List Nat) (limbs : List (List Nat)) : List (List Nat) :=
  List.zipWith (fun x a => nttStage (t.modAt (p.mod + p.limb0 + x % p.limbs)) p.inv (setLogN h.psid) s a) ids limbs

/-- A stage of Whisk g ends with its check passed: its output is the next stage's input, its input is no longer kept, and the last
stage of a group gives the group's limbs to the instruction's results and counts them (R89, R92). -/
def Station.stagePassed (t : Station) (g : Fin 2) (q : Fin 22) (i : Nat) (e : QEntry) : Station :=
  let p := t.wnttOf e.iw
  let h := Hdr.ofBytes (e.hdrs.headD ⟨0, [], false⟩).bytes
  let n := stagesDone p.both g e
  let logn := setLogN h.psid
  let ids := groupLimbs p.both h p.limbs g (n / logn)
  let a := t.stageIn g e ids (n % logn)
  let b := t.stageOut p h (n % logn) ids a
  let last := (n + 1) % logn = 0
  let ws := if last then List.zipWith (fun x ws => limbOut h e.ea1.toNat x ws) ids b else []
  { t.updAt q i fun e =>
      if p.both && g == 1 then { e with left := e.left - 1, rows := e.rows + 1, out := e.out ++ ws } else e.unitOut ws with
    whisks := vupd t.whisks g fun w =>
      { w with kept := a, half := b, limbs := wrapAdd w.limbs (if last then ids.length else 0) } }

/-- WHISK_STAGE: a stage ends with its compare (R56, R57, R92). -/
def execWhiskStage (st : Fin 16) (g : Fin 2) (v : Verdict) (s : State) : Host.Outcome State Fault Refusal :=
  if s.isBorrowed st (qWhisk g) then borrowedRow st (qWhisk g) (chkWhisk g) v s
  else
    let q := s.stations[st].whiskQueue g
    runRow st q [0x30] (fun _ t e => stageReady g q t e) (fun s t i e =>
      s.checked st (chkWhisk g) v (stagesDone (t.wnttOf e.iw).both g e) fun s1 => s1.updStn st fun t => t.stagePassed g q i e) s

end Sys2Proof.Machine
end

