-- ==== Sys2Proof/Machine/Kettle.lean ====
section
/-! DEFINITION. Kettle.lean: KREFRESH and its phases (R101 to R116). -/

namespace Sys2Proof.Machine

/-! ## Words with several limbs -/

/-- Numbers as words. -/
def toWords (l : List Nat) : List Word := l.map (BitVec.ofNat 32)
/-- Words as numbers. -/
def ofWords (l : List Word) : List Nat := l.map BitVec.toNat

/-- A GLWE accumulator from the limbs of its two polynomials. -/
def glweOf (a b : List (List Nat)) : Glwe := ⟨a.map toWords, b.map toWords⟩

/-- The product of the moduli of a set's limbs: Q (R24). -/
def modProd (ms : List ModEntry) : Nat := (ms.map (·.q)).prod

/-- The number below Q that has the given residues (CRT): each residue times the other moduli times their inverse (R102). -/
def crt (ms : List ModEntry) (rs : List Nat) : Nat :=
  let q := modProd ms
  ((List.zipWith (fun (m : ModEntry) r => q / m.q * (r * invMod m.q (q / m.q % m.q) % m.q)) ms rs).sum) % q

/-- The moduli of `n` limbs from a MODTAB index. -/
def Station.modsFrom (t : Station) (first n : Nat) : List ModEntry := (List.range n).map fun l => t.modAt (first + l)

/-- decompose(x, β, ℓ) of R103 with base 2^β: the digits, the most significant first; a carry out of digit 0 is dropped. -/
def decomposeGo (beta : Nat) : Nat → Nat → List Int → List Int
  | 0, _, acc => acc
  | l + 1, y, acc =>
    let d := y % 2 ^ beta
    let y' := y / 2 ^ beta
    if 2 ^ (beta - 1) ≤ d then decomposeGo beta l (y' + 1) (((d : Int) - ((2 ^ beta : Nat) : Int)) :: acc)
    else decomposeGo beta l y' ((d : Int) :: acc)

/-- decompose(x, β, ℓ) for x below Q (R103). -/
def decompose (q beta l x : Nat) : List Int := decomposeGo beta l ((x * 2 ^ (beta * l) + q / 2) / q) []

/-- The switch of a word to 2N: floor((2N × a + floor(Q / 2)) / Q) mod 2N (R102). -/
def switchTo (twoN q a : Nat) : Nat := (twoN * a + q / 2) / q % twoN

/-- β of the key-switch decomposition as log2 (Table 6.1). -/
def ksBits (psid : Nat) : Nat := if psid = 3 then 4 else 3

/-- P, the message modulus of a digit set (Table 6.1). -/
def msgMod (psid : Nat) : Nat := if psid = 1 then 4 else if psid = 2 then 16 else 64

/-- The most elements of a batch (Table 6.1). -/
def maxBatch (psid : Nat) : Nat := if psid = 3 then 16 else 32

/-- Words of key material of one blind-rotation step: (k + 1) × ℓ samples of 2N words for each limb (R109, R152). -/
def stepWords (psid : Nat) : Nat := 2 * decLevels psid * digitLimbs psid * 2 * 2 ^ setLogN psid

/-- Words of key-switch key that one round takes: ℓks rows of n + 1 words for each limb (R102). -/
def roundWords (psid : Nat) : Nat := ksLevels psid * digitLimbs psid * lweW psid

/-! ## Parameters and checks (Table 6.2, R107, Table 6.8) -/

/-- The parameters of a KREFRESH. -/
structure Kref where
  elem0 : Nat
  b : Nat
  fCode : Nat
  delem0 : Nat
  merge : Bool
  dcount : Nat
  mod : Nat
  deriving DecidableEq, Repr

/-- The parameters as the instruction gives them (Table 14.2). -/
def Station.krefOf (t : Station) (iw : BitVec 128) : Kref where
  elem0 := t.param iw 24 16
  b := t.param iw 40 5 + 1
  fCode := t.param iw 45 2
  delem0 := t.param iw 47 16
  merge := t.param iw 69 1 == 1
  dcount := t.param iw 70 16
  mod := t.mod0 iw

/-- The LUT descriptor of a KREFRESH: XD (Table 14.2). -/
def Station.lutEa (_ : Station) (e : QEntry) : Int := e.eaX

/-- F. -/
def Kref.f (p : Kref) : Nat := 2 ^ p.fCode

/-- The rows a KREFRESH reads and writes beside the header rows. -/
def Kref.ranges (p : Kref) (h : Hdr) (src dst lut : Int) : List (Int × Nat) :=
  [(src + 512 + ((p.elem0 * lweElemBytes h.psid h.limbs : Nat) : Int), p.b * lweElemBytes h.psid h.limbs),
   (lut, p.f * 512),
   (dst + 512 + ((p.delem0 * lweElemBytes h.psid (digitLimbs h.psid) : Nat) : Int),
     p.b * p.f * lweElemBytes h.psid (digitLimbs h.psid))]

/-- The destination header: LEVEL the set's full level, SCALE 0, NOISE E_fresh + 32 × ceil(log2 F) (R107). -/
def Kref.outHdr (p : Kref) (eFresh : Nat) (h : Hdr) : Hdr :=
  Hdr.sized { h with level := digitLimbs h.psid - 1, scale := 0, noise := eAdd eFresh (32 * p.fCode : Nat), count := p.dcount }

/-- The issue-time checks of a KREFRESH in the order of R45 (Table 6.8). Of a source of the wrong family the payload is
bound-checked by its PLEN, and the table rows, which no header gives, are checked always (R45). -/
def krefFault (ks : Option KeySet) (tag : Word) (t : Station) (e : QEntry) : Option Byte :=
  let p := t.krefOf e.iw
  let hb := t.rd e.ea0.toNat 64
  let h := Hdr.ofBytes hb
  let ok := hdrOk ks hb && h.family == 0
  let out := p.outHdr ((ks.map KeySet.eFresh).getD 0) h
  firstFault [
    (decide (e.ea0 % 512 ≠ 0 ∨ e.ea1 % 512 ≠ 0 ∨ t.lutEa e % 512 ≠ 0), Code.alignFault),
    (!t.allIn [(e.ea0, 512), (e.ea1, 512)], Code.boundFault),
    (hdrOk ks hb && !t.allIn (if ok then p.ranges h e.ea0 e.ea1 (t.lutEa e)
      else [(e.ea0 + 512, h.plen), (t.lutEa e, p.f * 512)]), Code.boundFault),
    (!t.srcOk ks (d0Of e.iw) hb, Code.badOperand),
    (ok && h.layout != 2, Code.badOperand),
    (ok && decide (maxBatch h.psid < p.b), Code.badOperand),
    (ok && decide (p.fCode = 3 ∨ (h.psid = 1 ∧ p.fCode = 2) ∨ 128 < p.b * p.f), Code.badOperand),
    (ok && decide (h.count < p.elem0 + p.b), Code.badOperand),
    (decide (p.dcount < p.delem0 + p.b * p.f), Code.badOperand),
    (ok && !t.modsOk p.mod (digitLimbs h.psid), Code.badOperand),
    (h.family != 0, Code.paramMismatch),
    (ok && !t.modsServe p.mod (digitLimbs h.psid) (setLogN h.psid), Code.paramMismatch),
    (ok && p.merge && !mergeOk (t.rd e.ea1.toNat 64) out.bytes, Code.paramMismatch),
    (tagBad tag h, Code.keyTagMismatch),
    (decide (entryLimit h.psid h.level < h.noise) || decide (noiseMax h.psid (digitLimbs h.psid - 1) < out.noise),
      Code.noiseBudget)]

/-! ## Entry and initialise (R102, R104, R105) -/

/-- The words of limb l of LWE_ROW element x: the w words of its rows, padding left out (R30). -/
def Station.lweWords (t : Station) (h : Hdr) (off x l : Nat) : List Nat :=
  t.limbAt (off + 512 + x * lweElemBytes h.psid h.limbs + l * lweRows h.psid * 512) (lweW h.psid)

/-- Words given for each limb turned into tuples of residues, one tuple for each position. -/
def tuples (limbs : List (List Nat)) (n : Nat) : List (List Nat) := (List.range n).map fun i => limbs.map fun l => l.getD i 0

/-- The switched words of an input: mask, then body, by CRT over the limbs it has (R102). -/
def Station.switched (t : Station) (p : Kref) (h : Hdr) (limbs : List (List Nat)) : List Nat :=
  let ms := t.modsFrom p.mod h.limbs
  (tuples limbs (lweW h.psid)).map fun r => switchTo (2 * h.n) (modProd ms) (crt ms r)

/-- Word m of table row j for limb l: words 0 on for limb 0, words 64 on for limb 1 (R105). -/
def tableWord (rows : List (List Nat)) (l j m : Nat) : Nat := (rows.getD j []).getD (64 * l + m) 0

/-- Word j of the test vector for limb l (R104). -/
def tvWord (psid q fns : Nat) (rows : List (List Nat)) (l j : Nat) : Nat :=
  let pm := msgMod psid
  let h := 2 ^ setLogN psid / (2 * pm)
  let blk := (j + h) / (2 * h)
  if blk < pm then tableWord rows l (blk / (pm / fns)) (blk % (pm / fns)) else (q - tableWord rows l 0 0) % q

/-- X^k × p in Z_q[X]/(X^N + 1), for k below 2N: coefficients move up and are negated where they wrap. -/
def rotPoly (q n k : Nat) (p : List Nat) : List Nat :=
  let neg := fun x => (q - x) % q
  let s := k % n
  let r := (p.drop (n - s)).map neg ++ p.take (n - s)
  if k % (2 * n) < n then r else r.map neg

/-- Every table word that a KREFRESH uses is below its modulus (R49, R105). -/
def tableOk (psid fns : Nat) (ms : List ModEntry) (rows : List (List Nat)) : Bool :=
  rows.all fun _ => (List.range fns).all fun j => (List.range (msgMod psid / fns)).all fun m =>
    (ms.zipIdx).all fun ml => decide (tableWord rows ml.2 j m < ml.1.q)

/-- The Kettle as a KREFRESH finds it: key words of a step 0 that the same group's stream has already delivered stay (R109). -/
def Kettle.carry (k : Kettle) (grp psid : Nat) : Kettle :=
  if k.funcs ≠ 0 ∧ k.grp = grp ∧ k.psid = psid then k else k.stop

/-- KREFRESH: the checks at issue; then the entry phase checks every input and table word, switches the inputs and builds the
test vector, and the initialise phase forms X^-b × tv for each element. Its steps, rounds and exit follow. -/
def planKrefresh (k : Fin 8) (s : State) (t : Station) (e : QEntry) : Plan :=
  match krefFault (s.stnKeySet t) (s.stnTag t) t e with
  | some c => .fault c
  | none =>
    let p := t.krefOf e.iw
    let h := Hdr.ofBytes (t.rd e.ea0.toNat 64)
    let ms := t.modsFrom p.mod (digitLimbs h.psid)
    let ins := (List.range p.b).map fun x => (List.range h.limbs).map fun l => t.lweWords h e.ea0.toNat (p.elem0 + x) l
    let rows := (List.range p.f).map fun j => t.row ((t.lutEa e).toNat + 512 * j)
    if (ins.all fun x => (List.zipWith (fun (m : ModEntry) l => l.all fun w => decide (w < m.q)) ms x).all id) &&
        tableOk h.psid p.f ms rows then
      let entry := ins.map (t.switched p h)
      let tv := ms.zipIdx.map fun ml => (List.range h.n).map (tvWord h.psid ml.1.q p.f rows ml.2)
      let accs := entry.map fun x =>
        glweOf (ms.map fun _ => List.replicate h.n 0)
          (List.zipWith (fun (m : ModEntry) v => rotPoly m.q h.n (2 * h.n - x.getD (lweN h.psid) 0) v) ms tv)
      let out := p.outHdr (((s.stnKeySet t).map KeySet.eFresh).getD 0) h
      let grp := ((t.grpOf e.iw).map Fin.val).getD 64
      .go { t with kettles := vupd t.kettles k fun kt =>
          { kt.carry grp h.psid with
            phase := .initialise
            grp := grp
            psid := h.psid
            mod := p.mod
            step := 0
            elem := 0
            pass := 0
            batch := p.b
            funcs := p.f
            rxPass := 0
            rxKs := 0
            entry := entry
            tv := tv.map toWords
            table := rows
            accs := accs
            run := []
            outs := [] } }
        { e with
          left := p.b * lweN h.psid + p.f * h.n
          hdrs := [⟨e.ea1.toNat, out.bytes, p.merge⟩]
          rows := p.b }
    else .fault Code.badOperand

/-- KREFRESH. -/
def execKrefresh (st : Fin 16) (k : Fin 8) (ecc : EccEvent) (s : State) : Host.Outcome State Fault Refusal :=
  opRead st (qKettle k) 0x50 ecc (planKrefresh k) s

/-! ## Rotation (R102, R109 to R111) -/

/-- Change one Kettle. -/
def Station.updKettle (t : Station) (k : Fin 8) (f : Kettle → Kettle) : Station := { t with kettles := vupd t.kettles k f }

/-- The moduli a running KREFRESH computes under. -/
def Station.ktlMods (t : Station) (k : Fin 8) : List ModEntry := t.modsFrom t.kettles[k].mod (digitLimbs t.kettles[k].psid)

/-- The buffer of step i. -/
def Kettle.kbuf (k : Kettle) (i : Nat) : List Word := if i % 2 = 0 then k.kbuf0 else k.kbuf1

/-- Set the buffer of step i. -/
def Kettle.setKbuf (k : Kettle) (i : Nat) (ws : List Word) : Kettle :=
  if i % 2 = 0 then { k with kbuf0 := ws } else { k with kbuf1 := ws }

/-- Buffer i mod 2 holds the whole of step i. -/
def Kettle.stepHeld (k : Kettle) (i : Nat) : Bool := (k.kbuf i).length == stepWords k.psid

/-- KETTLE_ROTATION_START: initialise has ended and step 0 is buffered; the wait counted in KTL_STALL (R109). -/
def execKettleRotationStart (st : Fin 16) (k : Fin 8) (stall : Nat) (s : State) : Host.Outcome State Fault Refusal :=
  runRow st (qKettle k) [0x50] (fun _ t _ => t.kettles[k].phase == .initialise && t.kettles[k].stepHeld 0)
    (fun s _ _ _ => s.updStn st fun t => t.updKettle k fun x => { x with phase := .rotation, stall := wrapAdd x.stall stall }) s

/-- Element-wise sum of products, unreduced: acc + x × g. -/
def dotAcc (acc x g : List Nat) : List Nat := List.zipWith (· + ·) acc (List.zipWith (· * ·) x g)

/-- The digit polynomials of a polynomial with several limbs: for each of ℓ digits, its coefficients (R102, R103). -/
def digitPolys (ms : List ModEntry) (beta l n : Nat) (d : List (List Nat)) : List (List Int) :=
  let q := modProd ms
  let ds := (tuples d n).map fun r => decompose q beta l (crt ms r)
  (List.range l).map fun j => ds.map fun x => x.getD j 0

/-- extprod(G, d) added to acc, limb by limb: every digit polynomial's forward transform times its GLWE row in EVAL order,
summed over the (k + 1) × ℓ rows and reduced once, then transformed back (R102, R152). -/
def extprod (ms : List ModEntry) (psid : Nat) (g : List Nat) (da db : List (List Nat)) : List (List Nat) × List (List Nat) :=
  let n := 2 ^ setLogN psid
  let logn := setLogN psid
  let l := decLevels psid
  let digits := digitPolys ms (baseBits psid) l n da ++ digitPolys ms (baseBits psid) l n db
  let limb := fun (half : Nat) (ml : ModEntry × Nat) =>
    let sum := digits.zipIdx.foldl (fun acc x =>
      dotAcc acc (fwdOf ml.1 logn (x.1.map (intMod ml.1.q)))
        ((g.drop (((x.2 * ms.length + ml.2) * 2 + half) * n)).take n)) (List.replicate n 0)
    invOf ml.1 logn (sum.map (· % ml.1.q))
  (ms.zipIdx.map (limb 0), ms.zipIdx.map (limb 1))

/-- X^k × p - p for each limb. -/
def rotDiff (ms : List ModEntry) (n k : Nat) (p : List (List Nat)) : List (List Nat) :=
  List.zipWith (fun (m : ModEntry) x => List.zipWith (subMod m.q) (rotPoly m.q n k x) x) ms p

/-- Sum of two polynomials for each limb. -/
def addPolys (ms : List ModEntry) (a b : List (List Nat)) : List (List Nat) :=
  (ms.zip (List.zip a b)).map fun x => List.zipWith (fun u v => (u + v) % x.1.q) x.2.1 x.2.2

/-- Blind-rotation step: acc + extprod(BSK[i], X^at × acc - acc) (R102). -/
def blindStep (ms : List ModEntry) (psid : Nat) (g : List Nat) (at_ : Nat) (acc : Glwe) : Glwe :=
  let n := 2 ^ setLogN psid
  let a := acc.a.map ofWords
  let b := acc.b.map ofWords
  let r := extprod ms psid g (rotDiff ms n at_ a) (rotDiff ms n at_ b)
  glweOf (addPolys ms a r.1) (addPolys ms b r.2)

/-- extract(acc, c): coefficient i of the mask of the LWE ciphertext of dimension N, for each limb (R102). -/
def extractMask (ms : List ModEntry) (n c i : Nat) (a : List (List Nat)) : List Nat :=
  List.zipWith (fun (m : ModEntry) l => if i ≤ c then l.getD (c - i) 0 else (m.q - l.getD (n + c - i) 0) % m.q) ms a

/-- The running words of a key switch when a pass starts: (0, b') for each limb (R102). -/
def switchInit (w : Nat) (body : List Nat) : List (List Nat) := body.map fun b => List.replicate (w - 1) 0 ++ [b]

/-- The running words of every element when pass t starts. -/
def Kettle.passInit (k : Kettle) (t : Nat) : List (List (List Nat)) :=
  let n := 2 ^ setLogN k.psid
  k.accs.map fun x => switchInit (lweW k.psid) (x.b.map fun l => (l.getD (t * n / k.funcs) 0).toNat)

/-- The Kettle after an element-step: the accumulator of the element, then the next element, step or the key switch; a step's
buffer is released when it has passed for all B elements (R109). -/
def Kettle.stepped (k : Kettle) (ms : List ModEntry) : Kettle :=
  let g := ofWords (k.kbuf k.step)
  let x := k.entry.getD k.elem []
  let r := blindStep ms k.psid g (x.getD k.step 0) (k.accs.getD k.elem ⟨[], []⟩)
  let k1 := { k with accs := lupd k.accs k.elem fun _ => r }
  if k.elem + 1 < k.batch then { k1 with elem := k.elem + 1 }
  else
    let k2 := { k1 with elem := 0 }.setKbuf k.step []
    if k.step + 1 < lweN k.psid then { k2 with step := k.step + 1 }
    else { k2 with phase := .keySwitch, step := 0, pass := 0, run := (k2.passInit 0).map fun e => e.map toWords }

/-- ACLK that a Kettle waited for key material, counted in KTL_STALL (R110). -/
def Station.addStall (t : Station) (k : Fin 8) (n : Nat) : Station :=
  t.updKettle k fun x => { x with stall := wrapAdd x.stall n }

/-- KETTLE_ELEMENT_STEP: an element-step ends with its check; the wait for the step's key material before it is told with it (R57,
R110, R111). -/
def execKettleElementStep (st : Fin 16) (k : Fin 8) (v : Verdict × Nat) (s : State) : Host.Outcome State Fault Refusal :=
  runRow st (qKettle k) [0x50] (fun _ t _ => t.kettles[k].phase == .rotation && t.kettles[k].stepHeld t.kettles[k].step)
    (fun s t i e => s.checked st ⟨4 + k.val, by omega⟩ v.1 e.done fun s1 => s1.updStn st fun x =>
      ((x.addStall k v.2).updKettle k fun kt => kt.stepped (t.ktlMods k)).updAt (qKettle k) i QEntry.unitDone) s

/-! ## Key switch and exit (R102, R112, R108) -/

/-- (a, b) - digit × row for one limb. -/
def subScaled (q : Nat) (d : Int) (run row : List Nat) : List Nat :=
  List.zipWith (fun x k => (x + q - intMod q d * k % q) % q) run row

/-- One round of a key switch for one element and limb: ℓks rows of key, each with its digit. The rows lie in the words given,
sample j and limb l at (j × limbs + l) × (n + 1) (R102, R152). -/
def roundLimb (m : ModEntry) (l limbs w : Nat) (digits : List Int) (key : List Nat) (run : List Nat) : List Nat :=
  digits.zipIdx.foldl (fun r x => subScaled m.q x.1 r ((key.drop ((x.2 * limbs + l) * w)).take w)) run

/-- One round of a key switch for one element: the digits of input coefficient `x`, and every limb (R102). -/
def roundElem (ms : List ModEntry) (beta lks w : Nat) (key : List Nat) (x : List Nat) (run : List (List Nat)) : List (List Nat) :=
  let digits := decompose (modProd ms) beta lks (crt ms x)
  (List.zip ms.zipIdx run).map fun r => roundLimb r.1.1 r.1.2 ms.length w digits key r.2

/-- The running words of every element after a round of the current pass. -/
def Kettle.rounded (k : Kettle) (ms : List ModEntry) : List (List (List Word)) :=
  let n := 2 ^ setLogN k.psid
  let key := ofWords (k.ksq.take (roundWords k.psid))
  List.zipWith (fun (acc : Glwe) run =>
    (roundElem ms (ksBits k.psid) (ksLevels k.psid) (lweW k.psid) key
      (extractMask ms n (k.pass * n / k.funcs) k.step (acc.a.map ofWords)) (run.map ofWords)).map toWords) k.accs k.run

/-- The Kettle after a round: the next round, pass, or the exit. -/
def Kettle.nextRound (k : Kettle) (ms : List ModEntry) : Kettle :=
  let k1 := { k with run := k.rounded ms, ksq := k.ksq.drop (roundWords k.psid) }
  if k.step + 1 < 2 ^ setLogN k.psid then { k1 with step := k.step + 1 }
  else
    let k2 := { k1 with outs := k.outs ++ [k1.run], step := 0, run := [] }
    if k.pass + 1 < k.funcs then
      { k2 with pass := k.pass + 1, run := (k2.passInit (k.pass + 1)).map fun e => e.map toWords }
    else { k2 with phase := .exit }

/-- What a KREFRESH writes at its exit: output t of input x is element DELEM0 + x × F + t; each limb starts a new row and is
zero-padded (R30, Table 6.2). -/
def Station.krefWrites (t : Station) (k : Fin 8) (e : QEntry) : List (Nat × List Byte) :=
  let p := t.krefOf e.iw
  let kt := t.kettles[k]
  let eb := lweElemBytes kt.psid (digitLimbs kt.psid)
  kt.outs.zipIdx.flatMap fun o => o.1.zipIdx.flatMap fun x => x.1.zipIdx.map fun l =>
    (e.ea1.toNat + 512 + (p.delem0 + x.2 * p.f + o.2) * eb + l.2 * lweRows kt.psid * 512,
      padTo (lweRows kt.psid * 512) (bytesOf l.1))

/-- The station after a round. Before the last round nothing is written; from then on the destination rows hold no defined contents,
and the signal writes the output rows (R108). R108 leaves the rows undefined from the start: that they stay as they were until
the exit phase is its other sentence, that only the exit phase writes (DESIGN CHOICE, log entry 9). -/
def Station.afterRound (t : Station) (k : Fin 8) (i : Nat) (e : QEntry) (fresh : Nat) : Station :=
  let t1 := (t.updKettle k fun kt => kt.nextRound (t.ktlMods k)).updAt (qKettle k) i QEntry.unitDone
  if t1.kettles[k].phase = .exit then
    (t1.blur fresh (t1.krefWrites k e)).updAt (qKettle k) i fun x => { x with out := t1.krefWrites k e }
  else t1

/-- KEY_SWITCH_ROUND: the wait for the round's key rows is told with it (R110); one input coefficient's key rows are applied to all
B elements, with a check; the round of a Kettle that the Blocker has borrowed is checked the same way (R57, R102, R133). -/
def execKeySwitchRound (st : Fin 16) (k : Fin 8) (v : Verdict × Nat) (s : State) : Host.Outcome State Fault Refusal :=
  if s.isBorrowed st (qKettle k) then borrowedRow st (qKettle k) ⟨4 + k.val, by omega⟩ v.1 s
  else
    runRow st (qKettle k) [0x50]
      (fun _ t _ => t.kettles[k].phase == .keySwitch && decide (roundWords t.kettles[k].psid ≤ t.kettles[k].ksq.length))
      (fun s _ i e => s.checked st ⟨4 + k.val, by omega⟩ v.1 e.done fun s1 =>
        (s1.updStn st fun x => (x.addStall k v.2).afterRound k i e s.fresh).tick) s

/-! ## Key words from the bus (R109, R110, R112, R152) -/

/-- The object whose rows the Kettle takes next: the bootstrapping key until a batch's last step has come, then the LWE
key-switching key, F times. -/
def Kettle.wants (k : Kettle) : Nat × Nat :=
  if k.rxPass < k.funcs ∧ lweN k.psid ≤ k.rxStep then (2, 0) else (1, 0)

/-- The Kettle has room for one more row: in the buffer of the step that comes next, or in its 64 KiB key-switch FIFO. -/
def Kettle.room (k : Kettle) : Bool :=
  if k.wants = (2, 0) then decide (k.ksq.length + 128 ≤ 16384)
  else decide ((k.kbuf k.rxStep).length + 128 ≤ stepWords k.psid)

/-- The Kettle takes a row. -/
def Kettle.take (k : Kettle) (ws : List Word) : Kettle :=
  if k.wants = (2, 0) then
    let k1 := { k with ksq := k.ksq ++ ws, rxKs := k.rxKs + 1 }
    if (k.rxKs + 1) * 128 < 2 ^ setLogN k.psid * roundWords k.psid then k1
    else if k.rxPass + 1 < k.funcs then { k1 with rxKs := 0, rxPass := k.rxPass + 1 }
    else { k1 with rxKs := 0, rxPass := k.rxPass + 1, rxStep := 0 }
  else
    let k1 := k.setKbuf k.rxStep (k.kbuf k.rxStep ++ ws)
    if k1.stepHeld k.rxStep then
      if k.rxStep % 2 = 0 then { k1 with rxStep := k.rxStep + 1, kst0 := k.rxStep } else { k1 with rxStep := k.rxStep + 1, kst1 := k.rxStep }
    else k1

end Sys2Proof.Machine
end

