-- ==== Sys2Proof/Machine/Blocker.lean ====
section
/-! DEFINITION. Blocker.lean: BEXTRACT and BPACK (R133 to R145). -/

namespace Sys2Proof.Machine

/-- The directory of the station's Funnel names an object of a kind and index (R33, R148). -/
def Station.hasObject (t : Station) (kind index : Nat) : Bool := t.funnel.dir.any fun d => d.kind == kind && d.index == index

/-- Change the Blocker. -/
def Station.updBlocker (t : Station) (f : Blocker → Blocker) : Station := { t with blocker := f t.blocker }

/-- σ: 65,536 × (log2 q0 - log2 2P), to 16 fractional bits (R138, R141). -/
def convScale (q0 psid : Nat) : Int := (log2Fix q0 : Int) - ((65536 * Nat.log2 (2 * msgMod psid) : Nat) : Int)

/-- The Blocker takes the engines it borrows: BLK_BORROW (R143). -/
def Blocker.borrow (b : Blocker) (qs : List (Fin 22)) : Blocker :=
  { b with
    griddles := BitVec.ofNat 2 ((List.range 2).map fun i => if qs.any fun q => q.val == 1 + i then 2 ^ i else 0).sum
    whisks := BitVec.ofNat 2 ((List.range 2).map fun i => if qs.any fun q => q.val == 3 + i then 2 ^ i else 0).sum
    kettles := BitVec.ofNat 8 ((List.range 8).map fun i => if qs.any fun q => q.val == 5 + i then 2 ^ i else 0).sum }

/-! ## BEXTRACT (R137 to R139) -/

/-- The parameters of a BEXTRACT (Table 8.2, Table 14.2). -/
structure Bext where
  dps : Nat
  mods : Nat
  elem0 : Nat
  c : Nat
  kb : Nat
  b : Nat
  merge : Bool
  delem0 : Nat
  dcount : Nat
  modp : Nat
  modd : Nat
  deriving DecidableEq, Repr

/-- The parameters as the instruction gives them (R236). -/
def Station.bextOf (t : Station) (iw : BitVec 128) : Bext where
  dps := t.param iw 0 8
  mods := t.param iw 8 6
  elem0 := t.param iw 14 17
  c := t.param iw 31 17 + 1
  kb := t.param iw 48 3 + 1
  b := t.param iw 51 5 + 1
  merge := t.param iw 62 1 == 1
  delem0 := t.param iw 63 24
  dcount := t.param iw 87 24 + 1
  modp := t.mod0 iw
  modd := t.mod1 iw

/-- q0, and Q of the digit set. -/
def Station.bextQ (t : Station) (p : Bext) : Nat × Nat :=
  ((t.modAt p.modp).q, modProd (t.modsFrom p.modd (digitLimbs p.dps)))

/-- The output header of a BEXTRACT (R138). -/
def Station.bextHdr (t : Station) (p : Bext) (eConv : Nat) (h : Hdr) : Hdr :=
  let q := t.bextQ p
  let ek := logadd h.noise eConv
  let eo := logadd (eAdd ek (- floorLogQ 32 q.1 q.2)) (eSwitch (lweN p.dps))
  Hdr.sized { h with
    family := 0
    psid := p.dps
    layout := 2
    level := digitLimbs p.dps - 1
    noise := eo
    scale := 0
    count := p.dcount }

/-- Source rows: limb 0 of each polynomial, or the payload of a source of the wrong family (R45). Destination rows, which DPS gives:
elements DELEM0 to DELEM0 + C - 1. -/
def Bext.ranges (p : Bext) (h : Hdr) (src dst : Int) : List (Int × Nat) :=
  let eb := lweElemBytes p.dps (digitLimbs p.dps)
  (if h.family = 1 then [(src + 512, h.n * 4), (src + 512 + ((h.limbs * h.n * 4 : Nat) : Int), h.n * 4)]
    else [(src + 512, h.plen)]) ++
   (if isDigitSet p.dps then [(dst + 512 + ((p.delem0 * eb : Nat) : Int), p.c * eb)] else [])

/-- The issue-time checks of a BEXTRACT in the order of R45 (Table 8.3). R45 does not place KEY_PAGE_FAULT for an absent key object:
it stands after KEY_TAG_MISMATCH, at KEY_UNVERIFIED's place, and before NOISE_BUDGET (DESIGN CHOICE, log entry 47). -/
def bextFault (ks : Option KeySet) (tag : Word) (t : Station) (e : QEntry) : Option Byte :=
  let p := t.bextOf e.iw
  let hb := t.rd e.ea0.toNat 64
  let h := Hdr.ofBytes hb
  let ok := hdrOk ks hb
  let fit := ok && h.family == 1
  let dig := isDigitSet p.dps
  let k := (ks.map KeySet.limbsK).getD 0
  let out := t.bextHdr p ((ks.map KeySet.eConv).getD 0) h
  let q0 := (t.modAt p.modp).q
  firstFault [
    (decide (e.ea0 % 512 ≠ 0 ∨ e.ea1 % 512 ≠ 0), Code.alignFault),
    (!t.allIn [(e.ea0, 512), (e.ea1, 512)], Code.boundFault),
    (ok && !t.allIn (p.ranges h e.ea0 e.ea1), Code.boundFault),
    (!t.srcOk ks (d0Of e.iw) hb, Code.badOperand),
    (fit && h.layout != 4, Code.badOperand),
    (ok && decide (h.n < p.c ∨ h.count < p.elem0 + p.c), Code.badOperand),
    (decide (p.dcount < p.delem0 + p.c), Code.badOperand),
    (dig && decide (maxBatch p.dps < p.b), Code.badOperand),
    (!t.modsOk p.modp 1 || !t.modsOk p.mods k || (dig && !t.modsOk p.modd (digitLimbs p.dps)), Code.badOperand),
    (ok && dig && overlaps e.ea0 (512 + h.plen) e.ea1 (512 + out.plen), Code.badOperand),
    (h.family != 1, Code.paramMismatch),
    (!dig || ks.all fun x => x.digitPs != p.dps || x.packedPs != h.psid, Code.paramMismatch),
    (fit && !(t.modsServe p.modp 1 (setLogN h.psid) && t.modsServe p.mods k (setLogN h.psid)), Code.paramMismatch),
    (decide (256 < ((h.scale : Int) - convScale q0 p.dps).natAbs), Code.paramMismatch),
    (p.merge && !mergeOk (t.rd e.ea1.toNat 64) out.bytes, Code.paramMismatch),
    (tagBad tag h, Code.keyTagMismatch),
    (!t.hasObject 3 0 || !t.hasObject 6 0, Code.keyPageFault),
    (decide (noiseMax p.dps (digitLimbs p.dps - 1) < out.noise), Code.noiseBudget)]

/-- Passes of the element phase (R139). -/
def Bext.passes (p : Bext) : Nat := ceilDiv p.c (p.kb * p.b)

/-- BEXTRACT: checks at issue, then the engines are borrowed; the ring phase follows when the packing key has come. -/
def planBextract (st : Fin 16) (s : State) (t : Station) (e : QEntry) : Plan :=
  match bextFault (s.stnKeySet t) (s.stnTag t) t e with
  | some c => .fault c
  | none =>
    let p := t.bextOf e.iw
    let h := Hdr.ofBytes (t.rd e.ea0.toNat 64)
    let out := t.bextHdr p (((s.stnKeySet t).map KeySet.eConv).getD 0) h
    .go (t.updBlocker fun b =>
        { b.borrow (s.borrowed st e.iw) with phase := 1, pass := 0, grp := ((t.grpOf e.iw).map Fin.val).getD 64, keys := [] })
      { e with left := p.passes, hdrs := [⟨e.ea1.toNat, out.bytes, p.merge⟩], rows := p.c }

/-- BEXTRACT. -/
def execBextract (st : Fin 16) (ecc : EccEvent) (s : State) : Host.Outcome State Fault Refusal := opRead st qBlocker 0x70 ecc (planBextract st) s

/-- The words of a key limb in rows, body row and mask row by turns: (body, mask) (Table 9.5). -/
def splitRows : Nat → List Nat → List Nat × List Nat
  | 0, _ => ([], [])
  | b + 1, ws =>
    let r := splitRows b (ws.drop 256)
    (ws.take 128 ++ r.1, (ws.drop 128).take 128 ++ r.2)

/-- The return from q0 and the special limbs to q0: the special residues, each taken as the canonical word it is and not centred, are
converted to q0 by one base conversion (the sum of R77), subtracted, and the difference divided by P (R137 step 5; DEDUCED, log
entry 21). -/
def modDown (q0 : Nat) (sp : List ModEntry) (u0 : List Nat) (us : List (List Nat)) : List Nat :=
  let p := modProd sp
  let pinv := invMod q0 (p % q0)
  let conv := fun i =>
    ((List.zipWith (fun (m : ModEntry) u => u.getD i 0 * invMod m.q (p / m.q % m.q) % m.q * (p / m.q % q0)) sp us).sum) % q0
  u0.zipIdx.map fun x => subMod q0 x.1 (conv x.2) * pinv % q0

/-- Hybrid key switch of limb 0 with one digit: c1 is extended to the special limbs by a base conversion, transformed, multiplied
with the packing key, transformed back, and reduced by the special limbs (R137; log entry 21). -/
def hybridSwitch (m0 : ModEntry) (sp : List ModEntry) (logn : Nat) (key : List Nat) (c0 c1 : List Nat) : List Nat × List Nat :=
  let n := 2 ^ logn
  let prods := (m0 :: sp).zipIdx.map fun ml =>
    let x := fwdOf ml.1 logn (c1.map (· % ml.1.q))
    let kk := splitRows (n / 128) ((key.drop (ml.2 * 2 * n)).take (2 * n))
    let mulInv := fun k => invOf ml.1 logn (List.zipWith (fun a b => a * b % ml.1.q) x k)
    (mulInv kk.1, mulInv kk.2)
  let d0 := modDown m0.q sp ((prods.headD ([], [])).1) ((prods.drop 1).map Prod.fst)
  let d1 := modDown m0.q sp ((prods.headD ([], [])).2) ((prods.drop 1).map Prod.snd)
  (List.zipWith (fun a b => (a + b) % m0.q) c0 d0, d1)

/-- Words of packing key a BEXTRACT takes: 2 × (1 + K) × N (Table 8.1). -/
def Station.packWords (ks : Option KeySet) (psid : Nat) : Nat := 2 * (1 + (ks.map KeySet.limbsK).getD 0) * 2 ^ setLogN psid

/-- Words of conversion key 0 that one pass takes: N_d × ℓks × (n + 1) (Table 8.1). -/
def convWords (dps : Nat) : Nat := 2 ^ setLogN dps * ksLevels dps * lweW dps

/-- The ring phase: limb 0 of each source polynomial, checked as it enters, then the hybrid key switch; none where a word is not
canonical (R49, R137). -/
def Station.ringPhase (t : Station) (ks : Option KeySet) (e : QEntry) (key : List Word) : Option (List Nat × List Nat) :=
  let p := t.bextOf e.iw
  let h := Hdr.ofBytes (t.rd e.ea0.toNat 64)
  let m0 := t.modAt p.modp
  let c0 := t.limbAt (e.ea0.toNat + 512) h.n
  let c1 := t.limbAt (e.ea0.toNat + 512 + h.limbs * h.n * 4) h.n
  if (c0 ++ c1).all fun w => decide (w < m0.q) then
    some (hybridSwitch m0 (t.modsFrom p.mods ((ks.map KeySet.limbsK).getD 0)) (setLogN h.psid) (ofWords key) c0 c1)
  else none

/-- Element e of a BEXTRACT: extraction at coefficient ELEM0 + e, key switch with conversion key 0 at q0, and the switch to Q,
split into limbs (R137). -/
def Station.bextElem (t : Station) (p : Bext) (key c0 c1 : List Nat) (x : Nat) : List (List Nat) :=
  let q0 := (t.modAt p.modp).q
  let n := c0.length
  let nd := 2 ^ setLogN p.dps
  let i := p.elem0 + x
  let a := (c1.map fun w => (q0 - w) % q0).toArray
  let w := lweW p.dps
  let coef := fun j => if j ≤ i then a.getD (i - j) 0 else (q0 - a.getD (n + i - j) 0) % q0
  let lks := ksLevels p.dps
  let init := List.replicate (w - 1) 0 ++ [c0.getD i 0]
  let out := (List.range nd).foldl (fun run m =>
    (decompose q0 (ksBits p.dps) lks (coef (m * (n / nd)))).zipIdx.foldl (fun r d =>
      subScaled q0 d.1 r ((key.drop ((m * lks + d.2) * w)).take w)) run) init
  let ms := t.modsFrom p.modd (digitLimbs p.dps)
  let big := modProd ms
  let sw := out.map fun v => (v * big + q0 / 2) / q0 % big
  ms.map fun m => sw.map (· % m.q)

/-- What a pass writes: the rows of its elements (R139, R144). -/
def Station.bextWrites (t : Station) (e : QEntry) (pass : Nat) : List (Nat × List Byte) :=
  let p := t.bextOf e.iw
  let key := ofWords t.blocker.keys
  let c0 := ofWords t.blocker.c0
  let c1 := ofWords t.blocker.c1
  let eb := lweElemBytes p.dps (digitLimbs p.dps)
  ((List.range (p.kb * p.b)).map (pass * (p.kb * p.b) + ·)).flatMap fun x =>
    if x < p.c then
      (t.bextElem p key c0 c1 x).zipIdx.map fun l =>
        (e.ea1.toNat + 512 + (p.delem0 + x) * eb + l.2 * lweRows p.dps * 512, padTo (lweRows p.dps * 512) (rowBytes l.1))
    else []

/-- BEXTRACT_PASS: one pass of the element phase ends and writes its rows (R139). -/
def execBextractPass (st : Fin 16) (s : State) : Host.Outcome State Fault Refusal :=
  runRow st qBlocker [0x70]
    (fun _ t e => t.blocker.phase == 2 && t.blocker.keys.length == convWords (t.bextOf e.iw).dps)
    (fun s _ i e => s.updStn st fun t =>
      ((t.wrAll (t.bextWrites e e.done)).updBlocker fun b => { b with keys := [], pass := b.pass + 1 }).updAt qBlocker i
        QEntry.unitDone) s

/-! ## BPACK (R140 to R142) -/

/-- The parameters of a BPACK (Table 8.2, Table 14.2). -/
structure Bpk where
  pps : Nat
  elem0 : Nat
  c : Nat
  dcoef0 : Nat
  acc : Bool
  dcount : Nat
  modd : Nat
  modp : Nat
  deriving DecidableEq, Repr

/-- The parameters as the instruction gives them (R236). -/
def Station.bpkOf (t : Station) (iw : BitVec 128) : Bpk where
  pps := t.param iw 0 8
  elem0 := t.param iw 8 17
  c := t.param iw 25 17 + 1
  dcoef0 := t.param iw 42 17
  acc := t.param iw 59 1 == 1
  dcount := t.param iw 66 17 + 1
  modd := t.mod0 iw
  modp := t.mod1 iw

/-- The output header of a BPACK before ACC (R141). -/
def Station.bpkHdr0 (t : Station) (p : Bpk) (eConv : Nat) (h : Hdr) : Hdr :=
  let q0 := (t.modAt p.modp).q
  let big := modProd (t.modsFrom p.modd h.limbs)
  let esw := logadd (eAdd h.noise (- floorLogQ 32 big q0)) (eSwitch (lweN h.psid))
  Hdr.sized { h with
    family := 1
    psid := p.pps
    layout := 4
    level := 0
    noise := logadd esw eConv
    scale := (convScale q0 h.psid).toNat
    count := p.dcount }

/-- The output header with ACC: the stored bound is added, and the larger COUNT kept (R141). -/
def Bpk.accHdr (p : Bpk) (o d : Hdr) : Hdr := if p.acc then { o with noise := logadd o.noise d.noise, count := max d.count o.count } else o

/-- The stored DST header agrees with an accumulation (R141). -/
def accAgrees (db : List Byte) (o : Hdr) : Bool :=
  let d := Hdr.ofBytes db
  hcrcOk db && d.family == o.family && d.psid == o.psid && d.ktag == o.ktag && d.layout == o.layout && d.level == o.level &&
    d.scale == o.scale

/-- Source rows of the groups a BPACK reads, or the payload of a source of the wrong family (R45), and the destination's payload,
which PPS gives. -/
def Bpk.ranges (p : Bpk) (h : Hdr) (src dst : Int) : List (Int × Nat) :=
  let gb := h.limbs * lweW h.psid * 512
  (if h.family = 0 then [(src + 512 + ((p.elem0 / 128 * gb : Nat) : Int), ceilDiv p.c 128 * gb)] else [(src + 512, h.plen)]) ++
    (if isPackedSet p.pps then [(dst + 512, 2 * 2 ^ setLogN p.pps * 4)] else [])

/-- The issue-time checks of a BPACK in the order of R45 (Table 8.3). R45 does not place KEY_PAGE_FAULT for an absent key object: it
stands after KEY_TAG_MISMATCH, at KEY_UNVERIFIED's place, and before NOISE_BUDGET (DESIGN CHOICE, log entry 47). -/
def bpkFault (ks : Option KeySet) (tag : Word) (t : Station) (e : QEntry) : Option Byte :=
  let p := t.bpkOf e.iw
  let hb := t.rd e.ea0.toNat 64
  let h := Hdr.ofBytes hb
  let db := t.rd e.ea1.toNat 64
  let ok := hdrOk ks hb
  let fit := ok && h.family == 0
  let pck := isPackedSet p.pps
  let n := 2 ^ setLogN p.pps
  let o := t.bpkHdr0 p ((ks.map KeySet.eConv).getD 0) h
  let out := p.accHdr o (Hdr.ofBytes db)
  firstFault [
    (decide (e.ea0 % 512 ≠ 0 ∨ e.ea1 % 512 ≠ 0), Code.alignFault),
    (!t.allIn [(e.ea0, 512), (e.ea1, 512)], Code.boundFault),
    (ok && !t.allIn (p.ranges h e.ea0 e.ea1), Code.boundFault),
    (!t.srcOk ks (d0Of e.iw) hb, Code.badOperand),
    (fit && h.layout != 3, Code.badOperand),
    (decide (p.elem0 % 128 ≠ 0), Code.badOperand),
    (ok && decide (h.count < p.elem0 + p.c), Code.badOperand),
    (pck && decide (n < p.dcoef0 + p.c), Code.badOperand),
    (decide (p.dcount < p.dcoef0 + p.c), Code.badOperand),
    (!t.modsOk p.modp 1 || (fit && !t.modsOk p.modd h.limbs), Code.badOperand),
    (ok && pck && overlaps e.ea0 (512 + h.plen) e.ea1 (512 + out.plen), Code.badOperand),
    (h.family != 0, Code.paramMismatch),
    (!pck || ks.all fun x => x.packedPs != p.pps || x.digitPs != h.psid, Code.paramMismatch),
    (!t.modsServe p.modp 1 (setLogN p.pps), Code.paramMismatch),
    (p.acc && !accAgrees db o, Code.paramMismatch),
    (tagBad tag h, Code.keyTagMismatch),
    (!t.hasObject 6 1, Code.keyPageFault),
    (overBudget out, Code.noiseBudget)]

/-- BPACK: checks at issue, then the engines are borrowed; its terms follow as conversion key 1 comes. -/
def planBpack (st : Fin 16) (s : State) (t : Station) (e : QEntry) : Plan :=
  match bpkFault (s.stnKeySet t) (s.stnTag t) t e with
  | some c => .fault c
  | none =>
    let p := t.bpkOf e.iw
    let h := Hdr.ofBytes (t.rd e.ea0.toNat 64)
    let o := t.bpkHdr0 p (((s.stnKeySet t).map KeySet.eConv).getD 0) h
    let out := p.accHdr o (Hdr.ofBytes (t.rd e.ea1.toNat 64))
    let zero : List Word := List.replicate (2 ^ setLogN p.pps) 0
    .go (t.updBlocker fun b =>
        { b.borrow (s.borrowed st e.iw) with
          phase := 1
          pass := 0
          grp := ((t.grpOf e.iw).map Fin.val).getD 64
          keys := []
          c0 := zero
          c1 := zero })
      { e with left := 3 * lweN h.psid, hdrs := [⟨e.ea1.toNat, out.bytes, false⟩], rows := p.c }

/-- BPACK. -/
def execBpack (st : Fin 16) (ecc : EccEvent) (s : State) : Host.Outcome State Fault Refusal := opRead st qBlocker 0x71 ecc (planBpack st) s

/-- Word i of source element ELEM0 + e at q0: every limb's word as it enters, switched; none where a word is not canonical
(R49, R140; a PS-T3 source takes Q from the limbs it has, as in R102). -/
def Station.bpkWord (t : Station) (p : Bpk) (h : Hdr) (src x i : Nat) : Option Nat :=
  let ms := t.modsFrom p.modd h.limbs
  let ws := (List.range h.limbs).map fun l =>
    leNat (t.rd (src + 512 + (((p.elem0 + x) / 128 * h.limbs + l) * lweW h.psid + i) * 512 + 4 * ((p.elem0 + x) % 128)) 4)
  let big := modProd ms
  let q0 := (t.modAt p.modp).q
  if (List.zipWith (fun (m : ModEntry) w => decide (w < m.q)) ms ws).all id then some ((crt ms ws * q0 + big / 2) / big % q0)
  else none

/-- Word i of every element, in order. -/
def Station.bpkWords (t : Station) (p : Bpk) (h : Hdr) (src i : Nat) : Option (List Nat) :=
  allSome ((List.range p.c).map fun x => t.bpkWord p h src x i)

/-- A polynomial with the given coefficients from DCOEF0 on. -/
def atCoef (n d : Nat) (l : List Nat) : List Nat := List.replicate d 0 ++ l ++ List.replicate (n - d - l.length) 0

/-- Term (i, j): digit j of every element's word i, transformed and multiplied with its key row, added to acc0 and acc1 (R140). -/
def Station.bpkTerm (t : Station) (e : QEntry) : Option Station :=
  let p := t.bpkOf e.iw
  let h := Hdr.ofBytes (t.rd e.ea0.toNat 64)
  let m := t.modAt p.modp
  let logn := setLogN p.pps
  (t.bpkWords p h e.ea0.toNat (e.done / 3)).map fun ws =>
    let digits := ws.map fun a => intMod m.q ((decompose m.q 10 3 a).getD (e.done % 3) 0)
    let dh := fwdOf m logn (atCoef (2 ^ logn) p.dcoef0 digits)
    let kk := splitRows (2 ^ logn / 128) (ofWords t.blocker.keys)
    let acc := fun (a : List Word) k => toWords ((List.zipWith (fun x y => (x + y % m.q) % m.q) (ofWords a)
      (List.zipWith (· * ·) dh k)))
    t.updBlocker fun b => { b with c0 := acc b.c0 kk.1, c1 := acc b.c1 kk.2, keys := [], pass := b.pass + 1 }

/-- What a BPACK writes after its last term: out, and with ACC the sum with what DST holds; none where a word of the source or
of DST is not canonical (R140, R144). -/
def Station.bpkOut (t : Station) (e : QEntry) : Option (List Byte) :=
  let p := t.bpkOf e.iw
  let h := Hdr.ofBytes (t.rd e.ea0.toNat 64)
  let m := t.modAt p.modp
  let logn := setLogN p.pps
  let n := 2 ^ logn
  let dst := t.limbAt (e.ea1.toNat + 512) n ++ t.limbAt (e.ea1.toNat + 512 + 4 * n) n
  (t.bpkWords p h e.ea0.toNat (lweN h.psid)).bind fun bs =>
    let o0 := List.zipWith (subMod m.q) (atCoef n p.dcoef0 bs) (invOf m logn (ofWords t.blocker.c0))
    let o1 := (invOf m logn (ofWords t.blocker.c1)).map fun x => (m.q - x) % m.q
    if !p.acc then some (rowBytes (o0 ++ o1))
    else if dst.all fun w => decide (w < m.q) then some (rowBytes (List.zipWith (fun a b => (a + b) % m.q) (o0 ++ o1) dst))
    else none

/-! ## Key words from the bus (R135, R152, R157) -/

/-- The Blocker instruction that runs and takes key words. -/
def Station.blkEntry (t : Station) : Option (Nat × QEntry) := t.runningOp qBlocker [0x70, 0x71]

/-- The object whose rows it takes next. -/
def Station.blkWants (t : Station) (e : QEntry) : Nat × Nat :=
  if opOf e.iw = 0x71 then (6, 1) else if t.blocker.phase = 1 then (3, 0) else (6, 0)

/-- Words of that object which it collects before it works on them. -/
def Station.blkNeeds (t : Station) (ks : Option KeySet) (e : QEntry) : Nat :=
  if opOf e.iw = 0x71 then 2 * 2 ^ setLogN (t.bpkOf e.iw).pps
  else if t.blocker.phase = 1 then Station.packWords ks (Hdr.ofBytes (t.rd e.ea0.toNat 64)).psid
  else convWords (t.bextOf e.iw).dps

/-- The borrowed engines have room for one more row. -/
def Station.blkRoom (t : Station) (ks : Option KeySet) (e : QEntry) : Bool :=
  decide (t.blocker.keys.length + 128 ≤ t.blkNeeds ks e)

/-- The Blocker takes a row: a BEXTRACT's ring phase ends with the packing key's last row, a BPACK's term with its last row, and
its output is written after the last term. None where a word of an operand is not canonical. -/
def Station.blkTake (t : Station) (ks : Option KeySet) (i : Nat) (e : QEntry) (ws : List Word) : Option Station :=
  let t1 := t.updBlocker fun b => { b with keys := b.keys ++ ws }
  if t1.blocker.keys.length < t.blkNeeds ks e then some t1
  else if opOf e.iw = 0x71 then
    (t1.bpkTerm e).bind fun t2 =>
      let t3 := t2.updAt qBlocker i QEntry.unitDone
      if e.left = 1 then (t3.bpkOut e).map fun bs => (t3.wr (e.ea1.toNat + 512) bs).updBlocker fun b => { b with phase := 3 }
      else some t3
  else if t1.blocker.phase = 1 then
    (t1.ringPhase ks e t1.blocker.keys).map fun c =>
      t1.updBlocker fun b => { b with phase := 2, keys := [], c0 := toWords c.1, c1 := toWords c.2 }
  else some t1

end Sys2Proof.Machine
end

