-- ==== Sys2Proof/Machine/FabOps.lean ====
section
/-! DEFINITION. FabOps.lean: frames and flits as a module sends them, routes, and what a lost link does (R299 to R303, R308, R312 to
R314). -/

namespace Sys2Proof.Machine

/-! ## Frames (R303, Table 17.4, Table 17.5) -/

/-- The fields of a frame header that differ from frame to frame. -/
structure FrameHdr where
  ftype : Nat
  dmod : Nat
  ktag : Nat := 0
  dses : Nat := 0
  depoch : Nat := 0
  sses : Nat := 0
  sepoch : Nat := 0
  dstn : Nat := 0
  sstn : Nat := 0
  slot : Nat := 0
  status : Nat := 0
  seq : Nat := 0
  len : Nat := 0
  offset : Nat := 0
  expo : Nat := 0
  deriving DecidableEq, Repr

/-- A frame: header with HOPS 1, payload, CRC-32C over both. -/
def mkFrame (fver smod : Nat) (h : FrameHdr) (payload : List Byte) : List Byte :=
  let b := natLe 1 fver ++ natLe 1 h.ftype ++ natLe 1 1 ++ zeros 1 ++ natLe 2 h.dmod ++ natLe 2 smod ++ natLe 4 h.ktag ++
    natLe 2 h.dses ++ natLe 2 h.depoch ++ natLe 2 h.sses ++ natLe 2 h.sepoch ++ natLe 1 (h.dstn + 16 * h.sstn) ++
    natLe 1 h.slot ++ natLe 1 h.status ++ zeros 1 ++ natLe 4 h.seq ++ natLe 4 h.len ++ natLe 8 h.offset ++ natLe 2 h.expo ++
    zeros 22 ++ payload
  b ++ natLe 4 (crc32c b)

/-- The header fields of a received frame. -/
def frameHdr (b : List Byte) : FrameHdr where
  ftype := field b 1 1
  dmod := fld (field b 4 2) 0 10
  ktag := field b 8 4
  dses := fld (field b 12 2) 0 14
  depoch := field b 14 2
  sses := fld (field b 16 2) 0 14
  sepoch := field b 18 2
  dstn := fld (field b 20 1) 0 4
  sstn := fld (field b 20 1) 4 4
  slot := fld (field b 21 1) 0 3
  status := field b 22 1
  seq := field b 24 4
  len := field b 28 4
  offset := field b 32 8
  expo := field b 40 2

/-- SMOD of a frame. -/
def frameSmod (b : List Byte) : Nat := fld (field b 6 2) 0 10

/-- HOPS of a frame. -/
def frameHops (b : List Byte) : Nat := field b 2 1

/-- Payload bytes that a frame carries: a READ carries none, LEN is the bytes it asks. -/
def framePayloadLen (h : FrameHdr) : Nat := if h.ftype = 5 then 0 else h.len

/-- The payload of a frame. -/
def framePayload (b : List Byte) : List Byte := slice b 64 (framePayloadLen (frameHdr b))

/-- A frame passes the checks of R303: CRC, FVER major, FTYPE, reserved bytes. -/
def frameOk (major : Nat) (b : List Byte) : Bool :=
  let h := frameHdr b
  let n := 64 + framePayloadLen h
  b.length == n + 4 && field b n 4 == crc32c (b.take n) && field b 0 1 / 16 == major && decide (1 ≤ h.ftype ∧ h.ftype ≤ 8) &&
    zeroAt b 3 1 && zeroAt b 23 1 && zeroAt b 42 22

/-- The class of a frame type (Table 17.5). -/
def classOfType (ftype : Nat) : Nat := if ftype = 1 then 3 else if ftype = 5 then 1 else if ftype = 6 then 2 else 0

/-! ## The module's own identity (R298, R299, R314) -/

/-- The module's protocol version: FABVER of the running image's header (Table 20.3). -/
def State.fabVer (s : State) : Nat := field s.boot.header 0x10 1

/-- The firmware version: VERSION of the running image's header; 0 in recovery, which has none (Table 20.3). -/
def State.fwVersion (s : State) : Nat := field s.boot.header 8 4

/-- The module's own capability record. -/
def State.ownCap (s : State) : CapRecord :=
  ⟨s.fab.modid, BitVec.ofNat 8 s.fabVer, Config.fabFeatures s.boot.header, BitVec.ofNat 32 s.fwVersion⟩

/-- The capability record as the payload of a CAP frame (its layout is log entry 23). -/
def capBytes (r : CapRecord) : List Byte :=
  natLe 2 r.modid.toNat ++ natLe 1 r.ver.toNat ++ zeros 1 ++ natLe 4 r.fwver.toNat ++ natLe 8 r.feat.toNat

/-- A capability record from the payload of a CAP frame. -/
def capOfBytes (b : List Byte) : CapRecord :=
  ⟨BitVec.ofNat 10 (field b 0 2), BitVec.ofNat 8 (field b 2 1), BitVec.ofNat 64 (field b 8 8), BitVec.ofNat 32 (field b 4 4)⟩

/-! ## Ports and routes (R296, R312) -/

/-- The I/O die of a port (Table 17.1). -/
def portDie (p : Fin 14) : Nat := if p.val < 2 then 0 else (p.val + 2) / 4

/-- The port is present: its I/O die is (Table 17.1, R12). -/
def State.portPresent (s : State) (p : Fin 14) : Bool := bitAt s.grade.iodies.toNat (portDie p)

/-- Change one port. -/
def State.updPort (s : State) (p : Fin 14) (f : Port → Port) : State :=
  { s with fab := { s.fab with ports := vupd s.fab.ports p f } }

/-- Frames are carried on the port. -/
def Port.isUp (p : Port) : Bool := p.state == .up

/-- The pairs of a local port and a remote port by which ETHERNET ports reach a module, lowest-numbered first (R313). -/
def State.ethPairs (s : State) (m : BitVec 10) : List (Fin 14 × Nat) :=
  (List.finRange 14).flatMap fun p =>
    let x := s.fab.ports[p]
    if x.isUp && x.eth then ((List.range 256).filter fun q => x.pairs.contains (m, q)).map fun q => (p, q) else []

/-- The pairs in use: those of the same port number where one exists, and otherwise the lowest-numbered pair (R313). -/
def State.ethUsed (s : State) (m : BitVec 10) : List (Fin 14 × Nat) :=
  let l := s.ethPairs m
  if l.any fun x => x.1.val == x.2 then l.filter fun x => x.1.val == x.2 else l.take 1

/-- UP ports that reach a module directly: every FABRIC port that leads to it (R312), and the ETHERNET ports of the pairs in use
(R313). -/
def State.directPorts (s : State) (m : BitVec 10) : List (Fin 14) :=
  (List.finRange 14).filter fun p => (s.fab.ports[p].isUp && !s.fab.ports[p].eth && s.fab.ports[p].peers.any fun r => r.modid == m) ||
    (s.ethUsed m).any fun x => x.1 == p

/-- Neighbours that report a module as their own neighbour, lowest-numbered first. -/
def State.relaysTo (s : State) (m : BitVec 10) : List (BitVec 10) :=
  ((List.range 1024).map (BitVec.ofNat 10)).filter fun n => s.fab.relayed.any fun x => x.1 == n && x.2.modid == m

/-- Ports that route to a module: every direct one; otherwise those of the lowest-numbered neighbour that reports it (R312). -/
def State.routes (s : State) (m : BitVec 10) : List (Fin 14) :=
  if (s.directPorts m).isEmpty then ((s.relaysTo m).map s.directPorts).find? (fun l => !l.isEmpty) |>.getD []
  else s.directPorts m

/-- The port of all frames of one bound direction, by hash over the ports that route to the module (R308). -/
def State.hashPort (s : State) (smod dmod : BitVec 10) (ses slot : Nat) : Option (Fin 14) :=
  let l := s.routes dmod
  l[Config.portHash smod.toNat dmod.toNat ses slot % l.length]?

/-- The version that a module announced. -/
def State.versionOf (s : State) (m : BitVec 10) : Option Nat :=
  (((s.fab.ports.toList.flatMap fun p => if p.isUp then p.peers else []) ++ s.fab.relayed.map Prod.snd).find? fun r =>
    r.modid == m).map fun r => r.ver.toNat

/-- The pod floor: the lowest version announced by any module that the route table reaches, the module's own where it reaches none
(R314, FAB_VER.FLOOR). -/
def State.podFloor (s : State) : Nat :=
  (((List.range 1024).map (BitVec.ofNat 10)).filterMap fun m => if (s.routes m).isEmpty then none else s.versionOf m).foldl min s.fabVer

/-- FVER of a frame to a module: the lower of the two versions (R314). -/
def State.fverTo (s : State) (m : BitVec 10) : Nat := min s.fabVer ((s.versionOf m).getD s.fabVer)

/-! ## Sending (R300, R301, R313) -/

/-- A class with credits to return, when there is one. -/
def Port.owing (p : Port) : Option (Fin 8) := (List.finRange 8).find? fun c => decide (0 < p.owed[c])

/-- The 128 bits of a flit header (Table 17.3). -/
def Flit.header (f : Flit) : Nat :=
  f.fseq.toNat + 2 ^ 12 * (f.ack.getD 0).toNat + 2 ^ 24 * b2n f.ack.isSome + 2 ^ 25 * b2n f.sof + 2 ^ 26 * b2n f.eof +
    2 ^ 27 * f.cls.toNat + 2 ^ 30 * f.kind.toNat + 2 ^ 32 * f.payload.length + 2 ^ 48 * f.crcls.toNat + 2 ^ 51 * f.crn.toNat

/-- The 512 bytes of a flit: header, 488 payload bytes, CRC-64 over both (R300, Table 18.2). -/
def Flit.wire (f : Flit) : List Byte :=
  let b := natLe 16 f.header ++ padTo 488 f.payload
  b ++ natLe 8 (crc64 b)

/-- Credits that the next flit returns: a class and their number. -/
def Port.returns (p : Port) : Fin 8 × Nat := (p.owing.getD 0, min p.owed[p.owing.getD 0] 8191)

/-- A flit with the port's next FSEQ, the ACK in force and credits to return. -/
def Port.dress (p : Port) (f : Flit) : Flit :=
  { f with fseq := p.fseq, ack := p.rxLast, crcls := BitVec.ofNat 3 p.returns.1.val, crn := BitVec.ofNat 13 p.returns.2 }

/-- The credits that a flit carried are no longer owed. -/
def Port.returned (p : Port) : Port := { p with owed := vupd p.owed p.returns.1 fun x => x - p.returns.2 }

/-- A DATA or LINKCTL flit leaves: it takes the next FSEQ, stays in the replay buffer, and a DATA flit uses a credit of its class
(R300, R301). -/
def Port.emit (p : Port) (f : Flit) : Port :=
  let c : Fin 8 := f.cls.toFin
  { p.returned with
    fseq := p.fseq + 1
    unacked := p.unacked ++ [p.dress f]
    sent := p.sent ++ [(p.dress f).wire]
    credits := if f.kind = 1 then vupd p.credits c fun x => x - 1 else p.credits }

/-- An IDLE flit: not numbered, it carries the next unused FSEQ, the ACK in force and credits to return (R300). -/
def Port.idle (p : Port) : Port := { p.returned with sent := p.sent ++ [(p.dress ⟨0, 0, 0, false, false, [], none, 0, 0⟩).wire] }

/-- What a port has to tell its neighbour goes out with the flits it sent since `old`, or else with an IDLE flit (log entry 25). -/
def Port.tell (old new : Port) : Port := if new.fseq = old.fseq then new.idle else new

/-- Send the flits that credit and the replay buffer of 1,024 allow, in order within a class; the others wait. -/
def Port.pump (p : Port) : Port :=
  p.waiting.foldl (fun x f =>
    let c : Fin 8 := f.cls.toFin
    if 0 < x.credits[c] ∧ x.unacked.length < 1024 then x.emit f else { x with waiting := x.waiting ++ [f] }) { p with waiting := [] }

/-- A frame cut into flits of one class, from SOF to EOF. -/
def flitsOf (cls : Nat) (frame : List Byte) : List Flit :=
  let n := ceilDiv frame.length 488
  (chunked 488 n frame).zipIdx.map fun x =>
    ⟨1, 0, BitVec.ofNat 3 cls, x.2 == 0, x.2 + 1 == n, x.1, none, 0, 0⟩

/-- The PCP of a class in ETHERNET mode (FAB_ETH, FAB_ETHPCP). -/
def Port.pcp (p : Port) (cls : Nat) : Nat :=
  (if cls = 3 then p.pcp3 else if cls = 2 then p.pcp2 else if cls = 1 then p.pcp1 else p.pcp0).toNat % 8

/-- A class is held by PFC, or an earlier frame of it is. -/
def Port.held (p : Port) (cls : Nat) : Bool := bitAt p.paused.toNat (p.pcp cls) || p.heldFrames.any fun x => x.1 == cls

/-- The MAC address of a port: 02:00:5D:PP:MM:MM, PP the port number, MM:MM the MODID (R313). -/
def macOf (port : Nat) (modid : BitVec 10) : List Byte := [0x02, 0x00, 0x5D, BitVec.ofNat 8 port] ++ natBe 2 modid.toNat

/-- The broadcast address. -/
def macAll : List Byte := List.replicate 6 0xFF

/-- An Ethernet frame: addresses, 802.1Q tag, EtherType, the device frame, FCS (R313; IEEE 802.3's layout, log entry 49). -/
def ethFrame (dst src : List Byte) (pcp vid etype : Nat) (dev : List Byte) : List Byte :=
  let b := dst ++ src ++ natBe 2 0x8100 ++ natBe 2 (2 ^ 13 * pcp + vid) ++ natBe 2 etype ++ dev
  b ++ natLe 4 (crc32 b)

/-- The device frame in what a port received: an Ethernet frame carries it after its addresses, tag and EtherType. -/
def Port.dev (p : Port) (b : List Byte) : List Byte := if p.eth then slice b 18 (b.length - 22) else b

/-- An Ethernet frame leaves, or waits while its priority is paused. -/
def Port.put (p : Port) (cls : Nat) (b : List Byte) : Port :=
  if p.held cls then { p with heldFrames := p.heldFrames ++ [(cls, b)] } else { p with sentFrames := p.sentFrames ++ [b] }

/-- The port sends a device frame from one address to another: as flits, or in ETHERNET mode as one Ethernet frame (R300, R313). -/
def Port.send (p : Port) (src dst frame : List Byte) : Port :=
  let cls := classOfType (field frame 1 1)
  if p.eth then p.put cls (ethFrame dst src (p.pcp cls) p.vid.toNat p.etype.toNat frame)
  else { p with waiting := p.waiting ++ flitsOf cls frame }.pump

/-- The neighbour that a frame to a module goes to next: the module itself where a port reaches it, or its relay (R312). -/
def State.nextHop (s : State) (m : BitVec 10) : BitVec 10 :=
  if (s.directPorts m).isEmpty then ((s.relaysTo m).find? fun n => !(s.directPorts n).isEmpty).getD m else m

/-- The MAC address that a port sends frames for a module to: that of the remote port of the pair in use (R313). -/
def State.macTo (s : State) (p : Fin 14) (m : BitVec 10) : List Byte :=
  let n := s.nextHop m
  match (s.ethUsed n).find? fun x => x.1 == p with
  | some x => macOf x.2 n
  | none => match (s.ethPairs n).find? fun x => x.1 == p with
    | some x => macOf x.2 n
    | none => macAll

/-- A frame for a module leaves by a port. -/
def State.portSend (s : State) (p : Fin 14) (m : BitVec 10) (frame : List Byte) : State :=
  s.updPort p fun x => x.send (macOf p.val s.fab.modid) (s.macTo p m) frame

/-- Send a frame to a module by one port. -/
def State.sendBy (s : State) (p : Fin 14) (h : FrameHdr) (payload : List Byte) : State :=
  s.portSend p (BitVec.ofNat 10 h.dmod) (mkFrame (s.fverTo (BitVec.ofNat 10 h.dmod)) s.fab.modid.toNat h payload)

/-- Send a frame to a module by some port that routes to it; nothing where none does. -/
def State.sendTo (s : State) (h : FrameHdr) (payload : List Byte) : State :=
  match s.pick (s.routes (BitVec.ofNat 10 h.dmod)) with
  | some p => (s.sendBy p h payload).tick
  | none => s

/-! ## Faults of a stream engine's transfer (R195, R196) -/

/-- A transfer faults with an event that the error log takes (Table 22.3). -/
def State.seLogged (s : State) (st : Fin 16) (e : Fin 4) (code : Byte) (idx : Nat) : State :=
  (s.logEvt (s.jobEvt st (17 + e.val) code [])).seFault st e code idx

/-! ## Link loss (R302) -/

/-- The chunk of a READ still waits for its bytes: its tag has not been released (R197). -/
def State.readOpen (s : State) (r : PeerRead) : Bool :=
  s.stations[r.stn].ses4[r.e].chunks.any fun c => c.xid == r.xid && c.idx == r.idx && c.off == r.off && c.data.isNone

/-- The oldest unacknowledged frame of each stream engine that has one on the slot: its transfer is lost with the link (R302). -/
def StreamSlot.lost (x : StreamSlot) : List SentFrame :=
  (List.finRange 4).filterMap fun e => x.unacked.find? fun f => f.e == e

/-- Every transfer with a frame on the port that is not acknowledged, or a READ not answered, faults LINK_LOST (R302). -/
def State.linkLost (s : State) (p : Fin 14) : State :=
  let reads := s.fab.reads.filter fun r => r.port == p && s.readOpen r
  let s1 := { s with fab := { s.fab with reads := s.fab.reads.filter fun r => r.port != p } }
  let s2 := reads.foldl (fun s r => s.seLogged r.stn r.e Code.linkLost r.idx) s1
  let slots := s2.crown.sessions.flatMap fun x => x.2.slots.toList.filter fun y => y.txPort == some p
  slots.foldl (fun s y => match y.txStn with
    | some st => y.lost.foldl (fun s f => s.seLogged st f.e Code.linkLost f.idx) s
    | none => s) s2

/-- Slots bound to a port take a new one when their next descriptor starts (R302, R308). -/
def State.unbindPort (s : State) (p : Fin 14) : State :=
  { s with crown := { s.crown with sessions := s.crown.sessions.map fun x =>
    (x.1, { x.2 with slots := x.2.slots.map fun y =>
      { y with
        txPort := if y.txPort = some p then none else y.txPort
        rxPort := if y.rxPort = some p then none else y.rxPort } }) } }

/-- The link layer of a port starts again: no neighbour, nothing in flight, full credit. -/
def Port.clearLink (p : Port) (st : PState) : Port :=
  { p with
    state := st
    peers := []
    ver := 0
    feat := 0
    fseq := 0
    unacked := []
    waiting := []
    credits := Vector.replicate 8 256
    owed := Vector.replicate 8 0
    rxLast := none
    tries := 0
    part := Vector.replicate 8 (0, [])
    inbox := []
    pairs := []
    paused := 0
    heldFrames := [] }

/-- Records that a neighbour no longer reached had reported go with it (R312). -/
def State.pruneRelayed (s : State) : State :=
  { s with fab := { s.fab with relayed := s.fab.relayed.filter fun x => !(s.directPorts x.1).isEmpty } }

/-- A port leaves UP: its traffic is lost and its routes go. -/
def State.dropPort (s : State) (p : Fin 14) (st : PState) : State :=
  (((s.linkLost p).unbindPort p).updPort p fun x => x.clearLink st).pruneRelayed

/-- Retrain a port (R301, R302): the event is counted, and the port trains again. A port that is absent, disabled or without
signal does not. -/
def State.retrain (s : State) (p : Fin 14) : State :=
  if s.fab.ports[p].state = .disabled ∨ s.fab.ports[p].state = .down then s
  else
    let old := s.fab.ports[p].retrain
    ((s.dropPort p .train).updPort p fun x => { x with retrain := satAdd x.retrain 1 }).noteIf (justSat old (satAdd old 1))
      (satKey 5 p.val 1) 3 (BitVec.ofNat 8 p.val) 0xFF (0x404 + 0x40 * p.val)

/-- A frame is dropped and counted in FAB_FRMCNT.DROP. -/
def State.dropFrame (s : State) (p : Fin 14) : State :=
  let old := s.fab.ports[p].drop
  (s.updPort p fun x => { x with drop := satAdd x.drop 1 }).noteIf (justSat old (satAdd old 1))
    (satKey 6 p.val 0) 3 (BitVec.ofNat 8 p.val) 0xFF (0x408 + 0x40 * p.val)

end Sys2Proof.Machine
end

