-- ==== Sys2Proof/Machine/Hash.lean ====
section
/-! DEFINITION. Hash.lean: the hash functions the manual names: SHA-256, SHA-384 and SHA-512 (FIPS 180-4) and SHAKE128
(FIPS 202), written from the standards. PRESUMED: the standards, not the manual, give their rounds (log entry 8). -/

namespace Sys2Proof.Machine

/-! ## SHA-2 -/

/-- Rotate an `n`-bit word right. -/
def rotr (n x r : Nat) : Nat := x / 2 ^ r ||| (x * 2 ^ (n - r)) % 2 ^ n

/-- The primes that the SHA-2 constants come from, in order: the least primes. -/
def primesFrom : Nat → Nat → List Nat
  | 0, _ => []
  | fuel + 1, p => if (List.range p).all (fun d => d < 2 || p % d != 0) then p :: primesFrom fuel (p + 1) else primesFrom fuel (p + 1)

/-- The first 80 primes, 2 to 409. -/
def shaPrimes : List Nat := primesFrom 408 2

/-- Bits of an integer root found from the highest bit down: the largest r below 2^n with r^k at most x. -/
def rootBits (k x : Nat) : Nat → Nat → Nat
  | 0, r => r
  | n + 1, r => if (r + 2 ^ n) ^ k ≤ x then rootBits k x n (r + 2 ^ n) else rootBits k x n r

/-- The first `w` fractional bits of the k-th root of p. -/
def rootFrac (k p w : Nat) : Nat := rootBits k (p * 2 ^ (k * w)) (w + 8) 0 % 2 ^ w

/-- The parameters of a SHA-2 function: word width, rounds, and its rotation amounts. -/
structure Sha2 where
  w : Nat
  rounds : Nat
  s0 : Nat × Nat × Nat
  s1 : Nat × Nat × Nat
  e0 : Nat × Nat × Nat
  e1 : Nat × Nat × Nat

/-- SHA-256's rounds. -/
def sha2of32 : Sha2 := ⟨32, 64, (7, 18, 3), (17, 19, 10), (2, 13, 22), (6, 11, 25)⟩

/-- The rounds of SHA-384 and SHA-512. -/
def sha2of64 : Sha2 := ⟨64, 80, (1, 8, 7), (19, 61, 6), (28, 34, 39), (14, 18, 41)⟩

/-- A small sigma: two rotations and a shift. -/
def sigS (n : Nat) (t : Nat × Nat × Nat) (x : Nat) : Nat := rotr n x t.1 ^^^ rotr n x t.2.1 ^^^ x / 2 ^ t.2.2

/-- A big sigma: three rotations. -/
def sigB (n : Nat) (t : Nat × Nat × Nat) (x : Nat) : Nat := rotr n x t.1 ^^^ rotr n x t.2.1 ^^^ rotr n x t.2.2

/-- The message schedule, newest word first, extended by so many words. -/
def shaSchedule (p : Sha2) : Nat → List Nat → List Nat
  | 0, ws => ws
  | n + 1, ws =>
    shaSchedule p n ((sigS p.w p.s1 (ws.getD 1 0) + ws.getD 6 0 + sigS p.w p.s0 (ws.getD 14 0) + ws.getD 15 0) % 2 ^ p.w :: ws)

/-- The eight working words after one round, with round constant plus schedule word `kw`. -/
def shaRound (p : Sha2) (v : List Nat) (kw : Nat) : List Nat :=
  match v with
  | [a, b, c, d, e, f, g, h] =>
    let t1 := h + sigB p.w p.e1 e + ((e &&& f) ^^^ ((2 ^ p.w - 1 - e) &&& g)) + kw
    let t2 := sigB p.w p.e0 a + ((a &&& b) ^^^ (a &&& c) ^^^ (b &&& c))
    [(t1 + t2) % 2 ^ p.w, a, b, c, (d + t1) % 2 ^ p.w, e, f, g]
  | _ => v

/-- The chaining words after one block. -/
def shaBlock (p : Sha2) (ks : List Nat) (h : List Nat) (block : List Byte) : List Nat :=
  let ws := (chunked (p.w / 8) 16 block).map beNat
  let sched := (shaSchedule p (p.rounds - 16) ws.reverse).reverse
  let v := (List.zipWith (fun k w => (k + w) % 2 ^ p.w) ks sched).foldl (shaRound p) h
  List.zipWith (fun x y => (x + y) % 2 ^ p.w) h v

/-- The message with its padding: a 1 bit, zeros, and the bit length. -/
def shaPad (p : Sha2) (m : List Byte) : List Byte :=
  let lenBytes := p.w / 4
  let blk := 2 * p.w
  let z := (blk - (m.length + 1 + lenBytes) % blk) % blk
  m ++ [0x80] ++ zeros z ++ natBe lenBytes (8 * m.length)

/-- A SHA-2 hash, all eight words. -/
def sha2 (p : Sha2) (ks h0 : List Nat) (m : List Byte) : List Byte :=
  let padded := shaPad p m
  ((chunked (2 * p.w) (padded.length / (2 * p.w)) padded).foldl (shaBlock p ks) h0).flatMap (natBe (p.w / 8))

/-- SHA-256. -/
def sha256 (m : List Byte) : List Byte :=
  sha2 sha2of32 ((shaPrimes.take 64).map fun p => rootFrac 3 p 32) ((shaPrimes.take 8).map fun p => rootFrac 2 p 32) m

/-- SHA-512. -/
def sha512 (m : List Byte) : List Byte :=
  sha2 sha2of64 (shaPrimes.map fun p => rootFrac 3 p 64) ((shaPrimes.take 8).map fun p => rootFrac 2 p 64) m

/-- SHA-384: starts from the ninth to sixteenth primes and keeps 48 bytes. -/
def sha384 (m : List Byte) : List Byte :=
  (sha2 sha2of64 (shaPrimes.map fun p => rootFrac 3 p 64) (((shaPrimes.drop 8).take 8).map fun p => rootFrac 2 p 64) m).take 48

/-! ## SHAKE128 -/

/-- Rotate a 64-bit lane left. -/
def rol64 (x r : Nat) : Nat := (x * 2 ^ (r % 64)) % 2 ^ 64 ||| x / 2 ^ (64 - r % 64)

/-- Lane (x, y) of a state of 25 lanes. -/
def lane (a : List Nat) (x y : Nat) : Nat := a.getD (x % 5 + 5 * (y % 5)) 0

/-- Lanes made from a function of (x, y). -/
def lanes (f : Nat → Nat → Nat) : List Nat := (List.range 25).map fun i => f (i % 5) (i / 5)

/-- The rho offsets, as triangular numbers along the pi orbit. -/
def rhoOffsets : Nat → Nat → Nat → Nat → List (Nat × Nat × Nat)
  | 0, _, _, _ => []
  | n + 1, t, x, y => (x, y, (t + 1) * (t + 2) / 2 % 64) :: rhoOffsets n (t + 1) y ((2 * x + 3 * y) % 5)

/-- The rho offset of lane (x, y). -/
def rhoOf (x y : Nat) : Nat := (((rhoOffsets 24 0 1 0).find? fun e => e.1 == x && e.2.1 == y).map fun e => e.2.2).getD 0

/-- The bits of the round-constant register: an 8-bit LFSR. -/
def rcLfsr : Nat → Nat → List Bool
  | 0, _ => []
  | n + 1, r => (r % 2 == 1) :: rcLfsr n (if r / 128 % 2 = 1 then (2 * r % 256) ^^^ 0x71 else 2 * r % 256)

/-- The round constant: bit 2^j - 1 is bit j + 7 * round of the LFSR. -/
def roundConst (bits : List Bool) (round : Nat) : Nat :=
  ((List.range 7).map fun j => if bits.getD (j + 7 * round) false then 2 ^ (2 ^ j - 1) else 0).sum

/-- One round of Keccak-f[1600]. -/
def keccakRound (a : List Nat) (rc : Nat) : List Nat :=
  let c := (List.range 5).map fun x => lane a x 0 ^^^ lane a x 1 ^^^ lane a x 2 ^^^ lane a x 3 ^^^ lane a x 4
  let d := (List.range 5).map fun x => c.getD ((x + 4) % 5) 0 ^^^ rol64 (c.getD ((x + 1) % 5) 0) 1
  let th := lanes fun x y => lane a x y ^^^ d.getD x 0
  let b := lanes fun x y => let sx := (x + 3 * y) % 5; rol64 (lane th sx x) (rhoOf sx x)
  let ch := lanes fun x y => lane b x y ^^^ ((2 ^ 64 - 1 - lane b (x + 1) y) &&& lane b (x + 2) y)
  ch.set 0 (lane ch 0 0 ^^^ rc)

/-- Keccak-f[1600]. -/
def keccakF (a : List Nat) : List Nat :=
  let bits := rcLfsr 168 1
  (List.range 24).foldl (fun a r => keccakRound a (roundConst bits r)) a

/-- Absorb whole blocks of `rate` bytes. -/
def absorb (rate : Nat) (blocks : List (List Byte)) : List Nat :=
  blocks.foldl (fun a blk => keccakF (List.zipWith (· ^^^ ·) a ((chunked 8 25 (padTo 200 (blk.take rate))).map leNat)))
    (List.replicate 25 0)

/-- Squeeze so many blocks. -/
def squeeze (rate : Nat) : Nat → List Nat → List Byte
  | 0, _ => []
  | n + 1, a => (a.flatMap (natLe 8)).take rate ++ squeeze rate n (keccakF a)

/-- SHAKE128: the first `n` bytes of its output. -/
def shake128 (m : List Byte) (n : Nat) : List Byte :=
  let rate := 168
  let k := m.length / rate + 1
  let body := padTo (k * rate) (m ++ [0x1F])
  let padded := body.set (k * rate - 1) ((body.getD (k * rate - 1) 0) ||| 0x80)
  (squeeze rate (n / rate + 1) (absorb rate (chunked rate k padded))).take n

end Sys2Proof.Machine
end

