-- ==== Sys2Proof/Machine/Ec.lean ====
section
/-! DEFINITION. Ec.lean: the arithmetic of the signature schemes that R332 names: ECDSA over P-256 and P-384 (FIPS 186-5), Ed25519 (RFC
8032) and RSA-PSS (RFC 8017); log entry 8. -/

namespace Sys2Proof.Machine

/-! ## Short Weierstrass curves with a = -3 -/

/-- A curve: its field, its coefficient b, its order and base point. -/
structure Curve where
  p : Nat
  b : Nat
  n : Nat
  gx : Nat
  gy : Nat
  deriving DecidableEq, Repr

/-- P-256. -/
def p256 : Curve where
  p := 0xffffffff00000001000000000000000000000000ffffffffffffffffffffffff
  b := 0x5ac635d8aa3a93e7b3ebbd55769886bc651d06b0cc53b0f63bce3c3e27d2604b
  n := 0xffffffff00000000ffffffffffffffffbce6faada7179e84f3b9cac2fc632551
  gx := 0x6b17d1f2e12c4247f8bce6e563a440f277037d812deb33a0f4a13945d898c296
  gy := 0x4fe342e2fe1a7f9b8ee7eb4a7c0f9e162bce33576b315ececbb6406837bf51f5

/-- P-384. -/
def p384 : Curve where
  p := 0xfffffffffffffffffffffffffffffffffffffffffffffffffffffffffffffffeffffffff0000000000000000ffffffff
  b := 0xb3312fa7e23ee7e4988e056be3f82d19181d9c6efe8141120314088f5013875ac656398d8a2ed19d2a85c8edd3ec2aef
  n := 0xffffffffffffffffffffffffffffffffffffffffffffffffc7634d81f4372ddf581a0db248b0a77aecec196accc52973
  gx := 0xaa87ca22be8b05378eb1c71ef320ad746e1d3b628ba79b9859f741e082542a385502f25dbf55296c3a545e3872760ab7
  gy := 0x3617de4a96262c6f5d9e98bf9292dc29f8f41dbd289a147ce9da3113b5f0b8c00a60b1ce1d7e819d7a431d7c90ea0e5f

/-- An affine point; none is the point at infinity. -/
abbrev Pt := Option (Nat × Nat)

/-- The point lies on the curve: y² = x³ - 3x + b. -/
def Curve.on (c : Curve) (x y : Nat) : Bool := y * y % c.p == (x * x % c.p * x + (c.p - 3) * x + c.b) % c.p

/-- Addition of points. -/
def Curve.add (c : Curve) : Pt → Pt → Pt
  | none, q => q
  | p, none => p
  | some (x1, y1), some (x2, y2) =>
    if x1 = x2 ∧ (y1 + y2) % c.p = 0 then none
    else
      let l := if x1 = x2 then (3 * x1 * x1 + (c.p - 3)) % c.p * invMod c.p (2 * y1 % c.p) % c.p
        else subMod c.p y2 y1 * invMod c.p (subMod c.p x2 x1) % c.p
      let x3 := (l * l + 2 * c.p - x1 - x2) % c.p
      some (x3, (l * subMod c.p x1 x3 + c.p - y1) % c.p)

/-- Double and add over the low `n` bits of k, lowest first. -/
def Curve.mulGo (c : Curve) : Nat → Nat → Pt → Pt → Pt
  | 0, _, _, acc => acc
  | n + 1, k, q, acc => c.mulGo n (k / 2) (c.add q q) (if k % 2 = 1 then c.add acc q else acc)

/-- k times a point. -/
def Curve.mul (c : Curve) (k : Nat) (q : Pt) : Pt := c.mulGo (Nat.log2 k + 1) k q none

/-- The ECDSA equation on checked inputs: x of u1·G + u2·Q mod n is r (R334). `e` is the digest as a number, no longer than n. -/
def ecdsaVerify (c : Curve) (qx qy r s e : Nat) : Bool :=
  let w := invMod c.n s
  match c.add (c.mul (e * w % c.n) (some (c.gx, c.gy))) (c.mul (r * w % c.n) (some (qx, qy))) with
  | none => false
  | some (x, _) => x % c.n == r

/-! ## Ed25519 -/

/-- The field of edwards25519. -/
def edP : Nat := 2 ^ 255 - 19
/-- The order of its base point. -/
def edL : Nat := 2 ^ 252 + 27742317777372353535851937790883648493
/-- The curve constant d = -121665 / 121666. -/
def edD : Nat := (edP - 121665) * invMod edP 121666 % edP

/-- The even or odd root of a square modulo the field; none when there is no root, or x = 0 is asked to be odd (RFC 8032). -/
def edRoot (x2 : Nat) (odd : Bool) : Option Nat :=
  let r := powMod edP x2 ((edP + 3) / 8)
  let x := if r * r % edP = x2 then some r
    else
      let r' := r * powMod edP 2 ((edP - 1) / 4) % edP
      if r' * r' % edP = x2 then some r' else none
  x.bind fun x =>
    if x = 0 then (if odd then none else some 0) else if (x % 2 == 1) == odd then some x else some (edP - x)

/-- A point from its 32-byte encoding as a number; none where R333 finds it invalid: y too large, no root, or the identity. -/
def edDecode (v : Nat) : Option (Nat × Nat) :=
  let y := v % 2 ^ 255 + v / 2 ^ 256 * 2 ^ 256
  if edP ≤ y then none
  else
    let y2 := y * y % edP
    (edRoot ((y2 + edP - 1) * invMod edP (edD * y2 + 1) % edP) (bitAt v 255)).bind fun x =>
      if x = 0 ∧ y = 1 then none else some (x, y)

/-- Addition on the twisted Edwards curve. -/
def edAdd (a b : Nat × Nat) : Nat × Nat :=
  let t := edD * (a.1 * b.1 % edP) % edP * (a.2 * b.2 % edP) % edP
  ((a.1 * b.2 + a.2 * b.1) % edP * invMod edP (1 + t) % edP, (a.2 * b.2 + a.1 * b.1) % edP * invMod edP (1 + edP - t) % edP)

/-- Double and add. -/
def edMulGo : Nat → Nat → Nat × Nat → Nat × Nat → Nat × Nat
  | 0, _, _, acc => acc
  | n + 1, k, q, acc => edMulGo n (k / 2) (edAdd q q) (if k % 2 = 1 then edAdd acc q else acc)

/-- k times a point. -/
def edMul (k : Nat) (q : Nat × Nat) : Nat × Nat := edMulGo (Nat.log2 k + 1) k q (0, 1)

/-- The base point: y = 4/5, x even. -/
def edBase : Nat × Nat :=
  let y := 4 * invMod edP 5 % edP
  ((edRoot ((y * y + edP - 1) % edP * invMod edP (edD * (y * y) + 1) % edP) false).getD 0, y)

/-- The cofactored equation (Table 19.3) on checked inputs: encodings of A and R, S, the message. -/
def edVerify (av rv sv : Nat) (msg : List Byte) : Bool :=
  match edDecode av, edDecode rv with
  | some a, some r =>
    let k := leNat (sha512 (natLe 32 rv ++ natLe 32 av ++ msg)) % edL
    edMul 8 (edMul sv edBase) == edAdd (edMul 8 r) (edMul 8 (edMul k a))
  | _, _ => false

/-! ## RSA-PSS -/

/-- MGF1 with SHA-256. -/
def mgf1 (seed : List Byte) (n : Nat) : List Byte :=
  ((List.range (n / 32 + 1)).flatMap fun i => sha256 (seed ++ natBe 4 i)).take n

/-- EMSA-PSS verification of RFC 8017 with SHA-256, a 32-byte salt and trailer 0xBC. -/
def pssOk (msg em : List Byte) (emBits : Nat) : Bool :=
  let dbLen := em.length - 33
  let db0 := em.take dbLen
  let h := slice em dbLen 32
  let free := 8 * em.length - emBits
  let db := List.zipWith (· ^^^ ·) db0 (mgf1 h dbLen)
  let db' := (byteAt db 0 &&& BitVec.ofNat 8 (2 ^ (8 - free) - 1)) :: db.tail
  decide (66 ≤ em.length) && em.getLast? == some 0xBC && decide ((byteAt db0 0).toNat < 2 ^ (8 - free)) &&
    zeroAt db' 0 (dbLen - 33) && byteAt db' (dbLen - 33) == 0x01 &&
    sha256 (zeros 8 ++ sha256 msg ++ db'.drop (dbLen - 32)) == h

/-- RSA-PSS verification on checked inputs; emBits = k - 1 with k the length of n. -/
def rsaPssVerify (n e sig : Nat) (msg : List Byte) : Bool :=
  let emBits := Nat.log2 n
  let m := powMod n sig e
  decide (m < 2 ^ (8 * ceilDiv emBits 8)) && pssOk msg (natBe (ceilDiv emBits 8) m) emBits

end Sys2Proof.Machine
end

