-- ==== Sys2Proof/Machine/Mortar.lean ====
section
/-! DEFINITION. Mortar.lean: slots, descriptors, verifications, raw operations, scheduling and results (R326 to R339), and the
verifications that Crown asks for (R290, R332). -/

namespace Sys2Proof.Machine

/-- Change Mortar. -/
def State.updMortar (s : State) (f : Mortar → Mortar) : State := { s with mortar := f s.mortar }

/-! ## Slots (R328, R329) -/

/-- A word of operand memory. -/
def Mortar.word (m : Mortar) (i : Nat) : Dword := m.mem.getD i 0

/-- The integer in a slot, least significant word first. -/
def Mortar.value (m : Mortar) (i : Nat) : Nat :=
  let x := m.slot i
  (List.range x.len.toNat).foldr (fun k acc => (m.word (x.base.toNat + k)).toNat + 2 ^ 64 * acc) 0

/-- The first `n` bytes of a slot. -/
def Mortar.bytes (m : Mortar) (i n : Nat) : List Byte := natLe n (m.value i)

/-- An integer written into a slot, zero-extended. -/
def Mortar.store (m : Mortar) (i v : Nat) : Mortar :=
  let x := m.slot i
  { m with mem := (List.range x.len.toNat).foldl (fun t k =>
      Tab.put t (x.base.toNat + k) (BitVec.ofNat 64 (v / 2 ^ (64 * k)))) m.mem }

/-! ## Operations (Table 19.2) -/

/-- The operation is one of Table 19.2. -/
def mopKnown (op : Nat) : Bool := (1 ≤ op && op ≤ 4) || (0x10 ≤ op && op ≤ 0x14)

/-- The operation's class. -/
def mopClass (op : Nat) : Nat := match op with | 1 => 2 | 2 => 3 | 3 => 2 | 4 => 1 | 0x14 => 1 | _ => 0

/-- Input slots of a job. -/
def MJob.inputs (j : MJob) : List Nat :=
  let a := j.sa.toNat; let b := j.sb.toNat; let c := j.sc.toNat; let d := j.sd.toNat; let e := j.se.toNat; let m := j.sm.toNat
  match j.op.toNat with
  | 1 => [a, b, c, d, e]
  | 2 => [a, b, c, d, e]
  | 3 => [a, b, c, e]
  | 4 => [a, b, c, e]
  | 0x13 => [a, m]
  | _ => [a, b, m]

/-- The slot fields that an operation does not use. -/
def MJob.unused (j : MJob) : List Byte :=
  match j.op.toNat with
  | 1 => [j.sm, j.so]
  | 2 => [j.sm, j.so]
  | 3 => [j.sd, j.sm, j.so]
  | 4 => [j.sd, j.sm, j.so]
  | 0x13 => [j.sb, j.sc, j.sd, j.se]
  | 0x14 => [j.sc, j.sd, j.se]
  | _ => [j.sc, j.sd, j.se, j.sw]

/-- The output slot of a raw operation. -/
def MJob.outs (j : MJob) : List Nat := if 0x10 ≤ j.op.toNat then [j.so.toNat] else []

/-- Every slot a job names. -/
def MJob.slots (j : MJob) : List Nat := j.inputs ++ j.works ++ j.outs

/-- The size in words that a work slot needs. -/
def Mortar.workSize (m : Mortar) (j : MJob) : Nat :=
  match j.op.toNat with
  | 1 => 4
  | 2 => 6
  | 3 => 4
  | 4 => (m.slot j.sa.toNat).len.toNat
  | _ => (m.slot j.sm.toNat).len.toNat

/-- The jobs that are queued, running or suspended. -/
def Mortar.live (m : Mortar) : List MJob := m.queue ++ (m.running.toList ++ m.saved).map (·.job)

/-- A slot is a valid one: VALID is set, LEN is 4 to 128 words, and it lies within the memory and overlaps no other slot that is
VALID (R328; that one which breaks this is not a valid slot is log entry 52). -/
def Mortar.slotOk (m : Mortar) (i : Nat) : Bool :=
  let x := m.slot i
  decide (i < 64) && x.valid && decide (4 ≤ x.len.toNat ∧ x.len.toNat ≤ 128 ∧ x.base.toNat + x.len.toNat ≤ 8192) &&
    (List.range 64).all fun k => k == i || !(m.slot k).valid ||
      decide (x.base.toNat + x.len.toNat ≤ (m.slot k).base.toNat ∨ (m.slot k).base.toNat + (m.slot k).len.toNat ≤ x.base.toNat)

/-- A slot is active while a job that names it is (R329). -/
def Mortar.slotActive (m : Mortar) (i : Nat) : Bool := m.live.any fun j => j.slots.contains i

/-- The program of an operation is loaded. -/
def Mortar.loaded (m : Mortar) (op : Nat) : Bool := bitAt m.prog.toNat (if op < 0x10 then op - 1 else op - 0x10 + 4)

/-- The checks of a descriptor at enqueue (R331): true where the job completes BAD_OPERAND. The modulus slot is read only when
the program is loaded (R327). -/
def Mortar.badJob (m : Mortar) (j : MJob) : Bool :=
  let op := j.op.toNat
  !mopKnown op || j.rsvd.any (· != 0) || j.unused.any (· != 0) ||
    j.slots.any (fun i => !m.slotOk i) ||
    j.works.any (fun i => decide ((m.slot i).len.toNat < m.workSize j)) ||
    j.outs.any (fun i => decide ((m.slot i).len.toNat < (m.slot j.sm.toNat).len.toNat)) ||
    (decide (op < 0x10) && decide (8 * (m.slot j.se.toNat).len.toNat < j.mlen.toNat)) ||
    (j.works ++ j.outs).any (fun i => m.slotActive i || j.inputs.contains i) ||
    (decide (0x10 ≤ op) && m.loaded op && (m.value j.sm.toNat % 2 == 0 || decide (m.value j.sm.toNat < 3)))

/-- A descriptor is enqueued: refused by a full queue, completed at once with BAD_OPERAND, or queued. -/
def Mortar.enqueue (m : Mortar) (j : MJob) : Mortar :=
  if 16 ≤ m.queue.length then { m with qOvf := true }
  else if m.badJob j then m.finish j.tag Code.badOperand
  else { m with queue := m.queue ++ [j] }

/-- A descriptor from its 32 bytes (Table 19.1). -/
def MJob.ofBytes (b : List Byte) : MJob where
  op := byteAt b 0
  tag := BitVec.ofNat 16 (field b 2 2)
  sa := byteAt b 4
  sb := byteAt b 5
  sc := byteAt b 6
  sd := byteAt b 7
  se := byteAt b 8
  sm := byteAt b 9
  so := byteAt b 10
  sw := byteAt b 11
  mlen := BitVec.ofNat 16 (field b 12 2)
  rsvd := byteAt b 1 :: slice b 14 18

/-! ## The check phase (R333, R335) -/

/-- The first check of ECDSA inputs that fails. -/
def ecdsaCheck (c : Curve) (qx qy r s : Nat) : Option Byte :=
  firstFault [(decide (c.p ≤ qx ∨ c.p ≤ qy) || !c.on qx qy, Code.mrtInvalidPoint),
    (decide (r = 0 ∨ c.n ≤ r ∨ s = 0 ∨ c.n ≤ s), Code.mrtInvalidScalar)]

/-- The outcome of a job's check phase: none where it passes. -/
def Mortar.checkPhase (m : Mortar) (j : MJob) : Option Byte :=
  let a := m.value j.sa.toNat
  let b := m.value j.sb.toNat
  let c := m.value j.sc.toNat
  let d := m.value j.sd.toNat
  let n := m.value j.sm.toNat
  match j.op.toNat with
  | 1 => ecdsaCheck p256 a b c d
  | 2 => ecdsaCheck p384 a b c d
  | 3 => firstFault [((edDecode a).isNone || (edDecode b).isNone, Code.mrtInvalidPoint), (decide (edL ≤ c), Code.mrtInvalidScalar)]
  | 4 => firstFault [(decide (a ≤ c), Code.mrtRange)]
  | 0x13 => firstFault [(decide (n ≤ a), Code.mrtRange)]
  | 0x14 => firstFault [(decide (n ≤ a), Code.mrtRange)]
  | _ => firstFault [(decide (n ≤ a ∨ n ≤ b), Code.mrtRange)]

/-! ## Results (R334, R335) -/

/-- Extended Euclid: the inverse of a modulo n, when they share no factor. -/
def invEuclid : Nat → Int → Int → Int → Int → Option Int
  | 0, _, _, _, _ => none
  | k + 1, r0, r1, t0, t1 => if r1 = 0 then (if r0 = 1 then some t0 else none) else invEuclid k r1 (r0 % r1) t1 (t0 - r0 / r1 * t1)

/-- a^-1 mod n; none where a is 0 or shares a factor with n. -/
def invOrNone (n a : Nat) : Option Nat := (invEuclid (2 * (Nat.log2 n + 2)) n a 0 1).map fun t => (t % (n : Int)).toNat

/-- What a job that passed its check phase ends with: its status, and the value that slot O takes. -/
def Mortar.outcome (m : Mortar) (j : MJob) : Byte × Option Nat :=
  let a := m.value j.sa.toNat
  let b := m.value j.sb.toNat
  let c := m.value j.sc.toNat
  let d := m.value j.sd.toNat
  let n := m.value j.sm.toNat
  let msg := m.bytes j.se.toNat j.mlen.toNat
  let verdict := fun (ok : Bool) => (if ok then Code.ok else Code.mrtSigFail, (none : Option Nat))
  match j.op.toNat with
  | 1 => verdict (ecdsaVerify p256 a b c d (beNat (sha256 msg)))
  | 2 => verdict (ecdsaVerify p384 a b c d (beNat (sha384 msg)))
  | 3 => verdict (edVerify a b c msg)
  | 4 => verdict (rsaPssVerify a b c msg)
  | 0x10 => (Code.ok, some ((a + b) % n))
  | 0x11 => (Code.ok, some (subMod n a b))
  | 0x12 => (Code.ok, some (a * b % n))
  | 0x13 =>
    match invOrNone n a with
    | some v => (Code.ok, some v)
    | none => (Code.mrtNoInverse, none)
  | _ => (Code.ok, some (powMod n a b))

/-! ## Scheduling (R336) -/

/-- A job's class. -/
def MJob.cls (j : MJob) : Nat := mopClass j.op.toNat

/-- The next job: the lowest class; within it a suspended job before a queued one, queued jobs in order. -/
def Mortar.next (m : Mortar) : Option (MRun × Bool) :=
  let lowest := ((m.saved.map fun r => r.job.cls) ++ m.queue.map MJob.cls).foldl min 4
  match m.saved.find? fun r => r.job.cls == lowest with
  | some r => some (r, true)
  | none => (m.queue.find? fun j => j.cls == lowest).map fun j => (⟨j, true, none, none⟩, false)

/-- MORTAR_JOB_START: the next job starts or resumes. A job whose program is not loaded ends without reading a slot (R327). -/
def Mortar.start (m : Mortar) : Mortar :=
  match m.next with
  | none => m
  | some (r, true) => { m with running := some r, saved := m.saved.filter fun x => x.job.tag != r.job.tag || x.job != r.job }
  | some (r, false) =>
    let run : MRun := if m.loaded r.job.op.toNat then r else { r with checking := false, result := some Code.mrtProgramUnsigned }
    { m with running := some run, queue := m.queue.erase r.job }

/-- MORTAR_JOB_START. -/
def execMortarJobStart (s : State) : Host.Outcome State Fault Refusal :=
  occurs s (s.mortar.running.isNone && s.mortar.next.isSome) fun s => s.updMortar Mortar.start

/-- MORTAR_CHECK_PHASE_END: the first failed check is the job's result. -/
def execMortarCheckPhaseEnd (s : State) : Host.Outcome State Fault Refusal :=
  occurs s ((s.mortar.running.map fun r => r.checking).getD false) fun s => s.updMortar fun m =>
    { m with running := m.running.map fun r => { r with checking := false, result := m.checkPhase r.job } }

/-- Modular multiplications of a job that yields after every 64 of them. -/
def Mortar.mults (m : Mortar) (j : MJob) : Nat :=
  let e := m.value j.sb.toNat
  Nat.log2 e + 1 + popCount (Nat.log2 e + 1) e - 2

/-- The running job has yield points. -/
def Mortar.canYield (m : Mortar) (r : MRun) : Bool :=
  !r.checking && r.result.isNone &&
    (decide (2 ≤ r.job.cls) || (r.job.cls == 1 && decide (64 ≤ m.mults r.job)))

/-- MORTAR_YIELD_POINT: the running job is suspended when the queue holds a job of a lower class. -/
def execMortarYieldPoint (s : State) : Host.Outcome State Fault Refusal :=
  occurs s ((s.mortar.running.map fun r => s.mortar.canYield r).getD false) fun s => s.updMortar fun m =>
    match m.running with
    | none => m
    | some r =>
      if m.queue.any fun j => decide (j.cls < r.job.cls) then
        { m with running := none, saved := m.saved ++ [r], yields := wrapAdd m.yields 1 }
      else m

/-- The running job ends: its status, and slot O when the status is OK; its work slots hold unspecified contents then, drawn at the
model's counter `n` (R334). -/
def Mortar.endJob (m : Mortar) (n : Nat) : Mortar :=
  match m.running with
  | none => m
  | some r =>
    match r.result with
    | some c => { m.spoil n r.job with running := none }.finish r.job.tag c
    | none =>
      let x := m.outcome r.job
      let m1 := match x.2 with
        | some v => (m.spoil n r.job).store r.job.so.toNat v
        | none => m.spoil n r.job
      { m1 with running := none }.finish r.job.tag x.1

/-- MORTAR_JOB_END: a job places its result; with a full FIFO it holds (R337). -/
def execMortarJobEnd (s : State) : Host.Outcome State Fault Refusal :=
  occurs s ((s.mortar.running.map fun r => !r.checking).getD false && decide (s.mortar.results.length < 32)) fun s =>
    (s.updMortar fun m => m.endJob s.fresh).tick

/-! ## Verifications that Crown asks for (R290, R332) -/

/-- The operands of a verification from a signature bundle, by Table 19.3; none where the bundle does not fit it. `msg` is the
signed message. -/
def bundleSlots (bundle msg : List Byte) : Option (Byte × List (List Byte × Nat) × Nat × Nat) :=
  let alg := field bundle 0 1
  let klen := field bundle 2 2
  let slen := field bundle 4 2
  let key := slice bundle 6 klen
  let sig := slice bundle (6 + klen) slen
  let le := fun (b : List Byte) => b.reverse
  let msgSlot := (msg, max 4 (ceilDiv msg.length 8))
  let ec := fun (w : Nat) (op : Byte) =>
    let pt := if klen = 1 ∧ byteAt key 0 = 0 then some (zeros (8 * w), zeros (8 * w))
      else if klen = 1 + 16 * w ∧ byteAt key 0 = 4 then some (le (slice key 1 (8 * w)), le (slice key (1 + 8 * w) (8 * w)))
      else none
    if slen = 16 * w then pt.map fun q =>
      (op, [(q.1, w), (q.2, w), (le (sig.take (8 * w)), w), (le (sig.drop (8 * w)), w), msgSlot], 8, w)
    else none
  if bundle.length ≠ 6 + klen + slen ∨ byteAt bundle 1 ≠ 0 then none
  else
    match alg with
    | 1 => ec 4 1
    | 2 => ec 6 2
    | 3 => if klen = 32 ∧ slen = 64 then some (3, [(key, 4), (sig.take 32, 4), (sig.drop 32, 4), msgSlot], 8, 4) else none
    | 4 =>
      let n := key.drop 4
      let k := 8 * n.length
      let e := beNat (key.take 4)
      if 4 < klen ∧ 2048 ≤ k ∧ k ≤ 4096 ∧ k % 64 = 0 ∧ slen = n.length ∧ e % 2 = 1 ∧ 3 ≤ e ∧ 0x80 ≤ (byteAt n 0).toNat ∧
          beNat n % 2 = 1 then
        some (4, [(le n, k / 64), (le (key.take 4), 4), (le sig, k / 64), msgSlot], 4, k / 64)
      else none
    | _ => none

/-- The key bytes of a bundle. -/
def bundleKey (bundle : List Byte) : List Byte := slice bundle 6 (field bundle 2 2)

/-- The lowest run of `n` slots that are not defined. -/
def Mortar.freeSlots (m : Mortar) (n : Nat) : Option Nat :=
  (List.range 64).find? fun i => decide (i + n ≤ 64) && (List.range n).all fun k => !(m.slot (i + k)).valid

/-- No defined slot holds a word of a range. -/
def Mortar.freeWords (m : Mortar) (base n : Nat) : Bool :=
  decide (base + n ≤ 8192) && m.slots.toList.all fun x =>
    !x.valid || decide (base + n ≤ x.base.toNat ∨ x.base.toNat + x.len.toNat ≤ base)

/-- The lowest area of `n` words outside every defined slot: it begins at 0 or where a slot ends. -/
def Mortar.freeArea (m : Mortar) (n : Nat) : Option Nat :=
  (0 :: (m.slots.toList.filter (·.valid)).map fun x => x.base.toNat + x.len.toNat).filter (fun b => m.freeWords b n) |>.min?

/-- Define consecutive slots from index i and word b, writing their contents. -/
def Mortar.define : Nat → Nat → List (List Byte × Nat) → Mortar → Mortar
  | _, _, [], m => m
  | i, b, (x, n) :: t, m =>
    let m1 := { m with slots := vupdN m.slots i fun _ => ⟨true, BitVec.ofNat 8 n, BitVec.ofNat 13 b⟩ }
    Mortar.define (i + 1) (b + n) t (m1.store i (leNat x))

/-- Crown submits a verification when the queue has room and slots and words are free: input slots, then work slots. -/
def Mortar.submitVerify (m : Mortar) (w : WaitVerify) : Option (Mortar × List Nat) :=
  let defs := w.slots ++ List.replicate w.nw ([], w.wsize)
  let words := (defs.map Prod.snd).sum
  match m.freeSlots defs.length, m.freeArea words with
  | some i, some b =>
    if 16 ≤ m.queue.length then none
    else
      let n := w.slots.length
      let at' := fun k => BitVec.ofNat 8 (i + k)
      let five := n == 5
      let j : MJob := {
        op := w.op
        tag := w.mtag
        sa := at' 0
        sb := at' 1
        sc := at' 2
        sd := if five then at' 3 else 0
        se := at' (n - 1)
        sm := 0
        so := 0
        sw := at' n
        mlen := BitVec.ofNat 16 w.mlen
        rsvd := zeros 19 }
      some ((m.define i b defs).enqueue j, (List.range defs.length).map (i + ·))
  | _, _ => none

/-- Submit the verifications that wait, in order, as far as Mortar takes them. -/
def State.feedGo : Nat → State → State
  | 0, s => s
  | n + 1, s =>
    match s.crown.waits with
    | [] => s
    | w :: rest =>
      match s.mortar.submitVerify w with
      | none => s
      | some (m, sl) => State.feedGo n { s with
          mortar := m
          crown := { s.crown with
            waits := rest
            verifies := s.crown.verifies.map fun v => if v.mtag = w.mtag then { v with slots := sl } else v } }

/-- Submit what waits. -/
def State.feed (s : State) : State := State.feedGo s.crown.waits.length s

/-- Crown asks for a verification: of a key set or of a job's ticket. It takes the next TAG; the request waits for room. -/
def State.askVerify (s : State) (ref : Option (ReqRef × Word)) (job : Nat) (x : Byte × List (List Byte × Nat) × Nat × Nat)
    (mlen : Nat) : State × BitVec 16 :=
  let tag := s.crown.nextMtag
  let v : VerifyReq := ⟨ref, job, tag, []⟩
  let w : WaitVerify := ⟨tag, x.1, x.2.1, x.2.2.1, x.2.2.2, mlen⟩
  (({ s with crown := { s.crown with nextMtag := tag + 1, verifies := s.crown.verifies ++ [v], waits := s.crown.waits ++ [w] } }).feed,
    tag)

/-- Crown gives back the slots of a verification that has ended. -/
def Mortar.release (m : Mortar) (sl : List Nat) : Mortar :=
  { m with slots := sl.foldl (fun v i => vupdN v i fun x => { x with valid := false }) m.slots }

/-- The policy of the session that holds a key set demands a signature (R37, KSIG). -/
def State.ksigOf (s : State) (ktag : Word) : Bool :=
  ((s.crown.keysets.get? ktag.toNat).map fun k => bitAt (s.session k.ses).body.policy.toNat 0).getD false

/-- Crown forwards a status: the completion of KEYSET_VERIFY, whose key set becomes VERIFIED on OK, or the ticket's verdict
(R290, R265, R37). -/
def State.forward (s : State) (v : VerifyReq) (code : Byte) : State :=
  match v.ref with
  | some (ref, ktag) =>
    (if code = Code.ok ∧ s.ksigOf ktag = true then
      { s with crown := { s.crown with keysets := s.crown.keysets.upd ktag.toNat fun k =>
        if k.state = .registered then k.commit { k.body with state := .verified } else k } }
    else s).complete ref code
  | none =>
    s.updJob v.job fun j => if j.mtag = some v.mtag ∧ j.state = .admitting then { j with ticket := some code, mtag := none } else j

/-- MRT_RESULT_READ: the oldest entry leaves the FIFO, a job that holds places its own, and Crown forwards the status (R337). -/
def execMrtResultRead (s : State) : Host.Outcome State Fault Refusal :=
  occurs s (!s.mortar.results.isEmpty) fun s =>
    match s.mortar.results with
    | [] => s
    | (tag, code) :: rest =>
      let m := { s.mortar with results := rest }
      let m1 := match m.held with
        | [] => m
        | (t, c) :: hs => { m with held := hs }.finish t c
      let s1 := { s with mortar := m1 }
      match s.crown.verifies.find? fun v => v.mtag == tag with
      | none => s1.feed
      | some v =>
        let s2 := { s1 with
          mortar := m1.release v.slots
          crown := { s1.crown with verifies := s1.crown.verifies.filter fun x => x.mtag != tag } }
        (s2.forward v code).feed

/-! ## Crown's registers (R329, R330, R338) -/

/-- MRT_SUBMIT: the write to MRT_SUBMIT7 enqueues the descriptor. -/
def execMrtSubmit (val : Word) (s : State) : Host.Outcome State Fault Refusal :=
  occurs s (s.boot.state != .off) fun s => s.updMortar fun m =>
    let sub := m.submit.set 7 val
    { m with submit := sub }.enqueue (MJob.ofBytes (bytesOf sub.toList))

/-- MRT_CANCEL. -/
def execMrtCancel (val : Word) (s : State) : Host.Outcome State Fault Refusal :=
  occurs s (s.boot.state != .off) fun s => (s.updMortar fun m => m.cancel s.fresh (val.setWidth 16)).tick

/-- MRT_SLOT_WRITE: ignored, with CFGERR, for a slot that is valid and active. -/
def execMrtSlotWrite (i : Fin 64) (val : Word) (s : State) : Host.Outcome State Fault Refusal :=
  occurs s (s.boot.state != .off) fun s => s.updMortar fun m =>
    if m.slots[i].valid && m.slotActive i.val then { m with cfgErr := true }
    else
      let v := val.toNat
      { m with slots := m.slots.set i ⟨bitAt v 31, BitVec.ofNat 8 (fld v 13 8), BitVec.ofNat 13 (fld v 0 13)⟩ }

/-- MRT_MEM_WRITE: ignored, with CFGERR, for a word of an active slot. -/
def execMrtMemWrite (w : Fin 8192) (val : Dword) (s : State) : Host.Outcome State Fault Refusal :=
  occurs s (s.boot.state != .off) fun s => s.updMortar fun m =>
    if (List.range 64).any fun i => m.slotActive i &&
        decide ((m.slot i).base.toNat ≤ w.val ∧ w.val < (m.slot i).base.toNat + (m.slot i).len.toNat) then
      { m with cfgErr := true }
    else { m with mem := m.mem.put w.val val }

/-- Mortar holds no job: the queue, the sequencer and the save area are empty (R327). -/
def Mortar.idle (m : Mortar) : Bool := m.queue.isEmpty && m.running.isNone && m.saved.isEmpty

/-- The requested load is made: the programs are in the store, and MRT_PROG tells which (R327). -/
def Mortar.loadNow (m : Mortar) : Mortar :=
  match m.load with
  | none => m
  | some x => { m with prog := x.1, progs := x.2, load := none }

/-- MORTAR_PROGRAM_LOAD: a requested load is made once Mortar holds no job (R327); a boot waits for it (R345). -/
def execMortarProgramLoad (s : State) : Host.Outcome State Fault Refusal :=
  occurs s (s.mortar.load.isSome && s.mortar.idle) fun s => (s.updMortar Mortar.loadNow).tryReady

end Sys2Proof.Machine
end

