-- ==== Sys2Proof/Machine/Image.lean ====
section
/-! DEFINITION. Image.lean: the Phoid image and what its translation refuses (R217 to R220, R223, R228, R233 to R237, R248 to
R251). Where several records are malformed, the one reported is the first in section order (log entry 10). -/

namespace Sys2Proof.Machine

/-! ## The header and the section table (Tables 13.1 and 13.2) -/

/-- A section-table entry. -/
structure Sect where
  ty : Nat
  vst : Nat
  rsvd : Nat
  count : Nat
  off : Nat
  len : Nat
  deriving DecidableEq, Repr

/-- Entry `i` of the section table. -/
def sectAt (b : List Byte) (i : Nat) : Sect :=
  let e := slice b (64 + 16 * i) 16
  ⟨field e 0 2, field e 2 1, field e 3 1, field e 4 4, field e 8 4, field e 12 4⟩

/-- Bytes of a record of a section type; 0 for a reserved type. -/
def recBytes (ty : Nat) : Nat := if ty = 1 then 16 else if ty = 2 then 32 else if ty = 3 then 32 else if ty = 4 then 16 else 0

/-- An image: its bytes, and its section table as far as the bytes go. -/
structure Img where
  b : List Byte
  sects : List Sect
  deriving DecidableEq, Repr

/-- MINOR. -/
def Img.minor (m : Img) : Nat := field m.b 4 1
/-- MAJOR. -/
def Img.major (m : Img) : Nat := field m.b 5 1
/-- FLAGS. -/
def Img.flags (m : Img) : Nat := field m.b 6 2
/-- TIMED. -/
def Img.timed (m : Img) : Bool := bitAt m.flags 0
/-- A PVI 1.x image. -/
def Img.old (m : Img) : Bool := m.major == 1
/-- NVST. -/
def Img.nvst (m : Img) : Nat := field m.b 8 1
/-- NGRP. -/
def Img.ngrp (m : Img) : Nat := field m.b 9 1
/-- DIGIT_PS. -/
def Img.digitPs (m : Img) : Nat := field m.b 10 1
/-- PACKED_PS. -/
def Img.packedPs (m : Img) : Nat := field m.b 11 1
/-- NDESC. -/
def Img.ndesc (m : Img) : Nat := field m.b 12 4
/-- NSECT. -/
def Img.nsect (m : Img) : Nat := field m.b 16 4

/-- The image that bytes spell. -/
def Img.of (b : List Byte) : Img := ⟨b, (List.range (min (field b 16 4) (b.length / 16))).map (sectAt b)⟩

/-- MAGIC and HCRC hold (R219). -/
def Img.headOk (m : Img) : Bool := field m.b 0 4 == 0x494F4850 && field m.b 60 4 == crc32c (m.b.take 60)

/-- The records of a section, each as a number, as far as the bytes go. -/
def Img.recs (m : Img) (x : Sect) : List Nat :=
  let n := recBytes x.ty
  if n = 0 then [] else (chunked n (min x.count (m.b.length / n)) (m.b.drop x.off)).map leNat

/-- The sections of a type, with their indices. -/
def Img.sectsOf (m : Img) (ty : Nat) : List (Sect × Nat) := m.sects.zipIdx.filter fun x => x.1.ty == ty

/-- The descriptors: the records of the first DESC section. -/
def Img.descs (m : Img) : List Nat := ((m.sectsOf 2).head?.map fun x => m.recs x.1).getD []

/-- The virtual-station records. -/
def Img.vsts (m : Img) : List Nat := ((m.sectsOf 3).head?.map fun x => m.recs x.1).getD []

/-- The GROUP records. -/
def Img.groups (m : Img) : List Nat := ((m.sectsOf 4).head?.map fun x => m.recs x.1).getD []

/-- The code of a virtual station. -/
def Img.code (m : Img) (v : Nat) : List (BitVec 128) :=
  (((m.sectsOf 1).find? fun x => x.1.vst == v).map fun x => (m.recs x.1).map (BitVec.ofNat 128)).getD []

/-! ## The operations (Table 14.1) and their PARAM fields (Table 14.2) -/

/-- A row of Table 14.1: the units, the descriptor kinds of D0 to D2, the MODS bits, and the PARAM bits the operation uses, as
(lowest bit, width). -/
structure OpInfo where
  ulo : Nat
  uhi : Nat
  k0 : List Nat
  k1 : List Nat
  k2 : List Nat
  mods : Nat
  param : List (Nat × Nat)
  deriving DecidableEq, Repr

/-- The row of a Skillet operation (Table 14.3): XD, ROW0, ROWS and MERGE, and the further fields it uses. -/
def skilletRow (k1 : List Nat) (more : List (Nat × Nat)) : OpInfo := ⟨13, 14, [1], k1, [3], 0, [(0, 56), (63, 1)] ++ more⟩

/-- CROW of a Skillet operation's PARAM. -/
def fCrow : Nat × Nat := (56, 7)
/-- INTER. -/
def fInter : Nat × Nat := (76, 1)

/-- Rows of the sequencer, the stream engines and the Funnel. -/
def opInfoMove (op : Nat) : Option OpInfo :=
  match op with
  | 0x01 => some ⟨0, 0, [0], [0], [0], 0, []⟩
  | 0x02 => some ⟨0, 0, [0], [0], [0], 0, []⟩
  | 0x03 => some ⟨0, 0, [0], [0], [3], 0x1F, [(0, 32)]⟩
  | 0x04 => some ⟨0, 0, [0], [0], [3], 0x07, [(0, 53)]⟩
  | 0x05 => some ⟨0, 0, [2], [0], [0], 0x1F, []⟩
  | 0x06 => some ⟨0, 0, [2], [0], [0], 0x1F, []⟩
  | 0x07 => some ⟨0, 0, [5], [0], [0], 0xFF, []⟩
  | 0x08 => some ⟨0, 0, [0], [0], [3], 0, [(0, 19)]⟩
  | 0x09 => some ⟨0, 0, [1], [0], [3], 0, [(0, 5), (8, 2), (16, 3), (24, 56)]⟩
  | 0x0A => some ⟨1, 21, [0], [0], [0], 0, []⟩
  | 0x10 => some ⟨18, 21, [2, 4], [0], [3], 0, [(0, 56)]⟩
  | 0x11 => some ⟨18, 21, [2], [4], [3], 0, [(0, 40)]⟩
  | 0x18 => some ⟨17, 17, [6], [7], [3], 0, [(0, 50)]⟩
  | 0x19 => some ⟨17, 17, [6], [0], [0], 0, []⟩
  | _ => none

/-- Rows of the other engines. -/
def opInfoEngine (op : Nat) : Option OpInfo :=
  match op with
  | 0x20 => some ⟨1, 2, [2], [0], [0], 0xFF, []⟩
  | 0x21 => some ⟨1, 2, [1], [1], [3], 0x3F, [(0, 81)]⟩
  | 0x22 => some ⟨1, 2, [1], [1], [3], 0, [(0, 56)]⟩
  | 0x30 => some ⟨3, 4, [1], [1], [3], 0x07, [(0, 14)]⟩
  | 0x40 => some (skilletRow [1] [(78, 26)])
  | 0x41 => some (skilletRow [1] [])
  | 0x42 => some (skilletRow [0] [])
  | 0x43 => some (skilletRow [0, 1] [fCrow, (74, 1)])
  | 0x44 => some (skilletRow [0] [fCrow])
  | 0x45 => some (skilletRow [1] [fInter])
  | 0x46 => some (skilletRow [0] [fCrow, (75, 1), fInter])
  | 0x47 => some (skilletRow [1] [fInter])
  | 0x48 => some (skilletRow [0] [])
  | 0x49 => some (skilletRow [0] [])
  | 0x4A => some (skilletRow [0] [fCrow, (71, 3)])
  | 0x4B => some ⟨13, 14, [2], [0], [3], 0, [fCrow, (64, 7), (77, 1)]⟩
  | 0x50 => some ⟨5, 12, [1], [1], [3], 0, [(0, 86)]⟩
  | 0x60 => some ⟨15, 15, [1], [1], [3], 0x0F, [(0, 62)]⟩
  | 0x61 => some ⟨15, 15, [1], [1], [3], 0, [(0, 19)]⟩
  | 0x62 => some ⟨15, 15, [1], [1], [2], 0x01, []⟩
  | 0x70 => some ⟨16, 16, [1], [1], [3], 0, [(0, 111)]⟩
  | 0x71 => some ⟨16, 16, [1], [1], [3], 0, [(0, 83)]⟩
  | _ => none

/-- The row of an opcode; none for a reserved one. -/
def opInfo (op : Nat) : Option OpInfo := (opInfoMove op).orElse fun _ => opInfoEngine op

/-- The bits of a number that no field covers are 0. -/
def onlyBits (fields : List (Nat × Nat)) (v : Nat) : Bool :=
  (bitsSet 128 v).all fun i => fields.any fun f => decide (f.1 ≤ i ∧ i < f.1 + f.2)

/-! ## One instruction -/

/-- Descriptor `i` of an image; 0 beyond its table. -/
def Img.desc (m : Img) (i : Nat) : Nat := m.descs.getD i 0

/-- The PARAM body that D2 names. -/
def Img.param (m : Img) (iw : BitVec 128) : Nat := dBody (m.desc (d2Of iw))

/-- An operand index names a descriptor of one of these kinds; kind 0 stands for an unused operand, which names descriptor 0
(R223, R235). -/
def Img.kindOk (m : Img) (i : Nat) (ks : List Nat) : Bool :=
  decide (i < m.ndesc) && ((ks.contains 0 && i == 0) || (dKind (m.desc i) != 0 && ks.contains (dKind (m.desc i))))

/-- A wait selector is well formed: FLAG has bit 7 clear; in a 1.x image flags end at 63, counters at 15, comparators at 3. -/
def waitOk (old : Bool) (k i : Nat) : Bool :=
  if k = 0 then true
  else if k = 1 then decide (i < 128) && (!old || decide (i < 64))
  else !old || decide (fld i 0 5 < 16 ∧ fld i 5 3 < 4)

/-- A signal is well formed (Table 13.5, R230, Table 13.11). -/
def signalOk (old : Bool) (nvst : Nat) (iw : BitVec 128) : Bool :=
  (sgkOf iw != 3 || decide (sgiOf iw < if old then 16 else 32)) &&
    (!old || sgkOf iw == 0 || sgkOf iw == 3 || decide (sgiOf iw < 64)) &&
    (if sgrOf iw then decide (sgsOf iw < nvst) && (!old || decide (sgsOf iw < 8)) else sgsOf iw == 0)

/-- Counter and comparator of a 1.x control operation; STEP of a 1.x CMPSET is 0 (Table 13.11). -/
def Img.oldOk (m : Img) (iw : BitVec 128) : Bool :=
  let op := opOf iw
  !m.old || ((!([0x03, 0x05, 0x06, 0x07].contains op) || decide (modsFld iw 0 5 < 16)) &&
    (op != 0x07 || decide (modsFld iw 5 3 < 4)) &&
    (op != 0x04 || (decide (modsFld iw 0 3 < 4) && fld (m.param iw) 32 16 == 0 && decide (fld (m.param iw) 48 5 < 16))))

/-- The virtual group that an operation's PARAM names, where it has the field. -/
def Img.grpField (m : Img) (iw : BitVec 128) : Option Nat :=
  match opOf iw with
  | 0x22 => some (fld (m.param iw) 34 6)
  | 0x50 => some (fld (m.param iw) 63 6)
  | 0x70 => some (fld (m.param iw) 56 6)
  | 0x71 => some (fld (m.param iw) 60 6)
  | _ => none

/-- What an operation asks of its PARAM and of the descriptors it names beside D0 to D2 (R235, R237, R245, R247, R248). -/
def Img.paramOk (m : Img) (iw : BitVec 128) : Bool :=
  let p := m.param iw
  let op := opOf iw
  if op = 0x09 then fld p 8 2 != 3 && decide (fld p 16 3 ≤ 4)
  else if op = 0x10 then dKind (m.desc (d0Of iw)) == 4 || fld p 16 40 == 0
  else if op = 0x11 then m.kindOk (fld p 0 24) [2]
  else if op = 0x18 then
    ((List.range (fld p 0 2 + 1)).all fun i => m.kindOk (d1Of iw + i) [7]) &&
      (List.range 4).all fun i => decide (i ≤ fld p 0 2) || fld p (2 + 8 * i) 8 == 0
  else if op = 0x21 then
    m.kindOk (d2Of iw + 1) [3] && onlyBits [(0, 64)] (dBody (m.desc (d2Of iw + 1))) &&
      (bitAt (modsOf iw) 3 || (fld p 50 7 == 0 && fld p 57 7 == 0))
  else if op = 0x22 then m.kindOk (fld p 0 24) [1]
  else if op = 0x50 then m.kindOk (fld p 0 24) [2] && fld p 45 2 != 3
  else if 0x40 ≤ op ∧ op ≤ 0x4A then
    m.kindOk (fld p 0 24) [1] &&
      (if op = 0x40 then
        fld p 78 2 != 3 && (if fld p 78 2 = 2 then m.kindOk (fld p 80 24) [1] else fld p 80 24 == 0)
      else if op = 0x43 then d1Of iw == 0 || fld p 56 7 == 0
      else if op = 0x47 then bitAt p 76
      else true)
  else true

/-- An instruction of a virtual station whose code has `count` records is well formed (R219, R234 to R237). -/
def Img.instrOk (m : Img) (count : Nat) (iw : BitVec 128) : Bool :=
  match opInfo (opOf iw) with
  | none => false
  | some o =>
    decide (o.ulo ≤ unitOf iw ∧ unitOf iw ≤ o.uhi) && (bitsSet 8 (modsOf iw)).all (bitAt o.mods) &&
      m.kindOk (d0Of iw) o.k0 && m.kindOk (d1Of iw) o.k1 && m.kindOk (d2Of iw) o.k2 &&
      waitOk m.old (w0kOf iw) (w0iOf iw) && waitOk m.old (w1kOf iw) (w1iOf iw) && signalOk m.old m.nvst iw && m.oldOk iw &&
      (!o.k2.contains 3 || onlyBits o.param (m.param iw)) && m.paramOk iw &&
      ((m.grpField iw).map fun g => decide (g < m.ngrp)).getD true &&
      (opOf iw != 0x07 || decide (dAddr (m.desc (d0Of iw)) < count))

/-- An operation or modifier that PVI 1.x lacks (R251). -/
def Img.newOp (m : Img) (iw : BitVec 128) : Bool :=
  let op := opOf iw
  [0x22, 0x70, 0x71].contains op ||
    (decide (d2Of iw < m.ndesc) && ((op == 0x18 && fld (m.param iw) 0 2 != 0) || (op == 0x50 && fld (m.param iw) 45 2 != 0)))

/-! ## The other records -/

/-- A descriptor is well formed (Table 13.7). -/
def descOk (old : Bool) (ngrp d : Nat) : Bool :=
  let k := dKind d
  decide (k ≤ 7) && fld d 14 2 == 0 && decide (dIwrap d ≤ 16) && fld d 21 3 == 0 && fld d 24 8 == 0 && fld d 38 2 == 0 &&
    fld d 46 2 == 0 && fld d 48 16 == 0 && (!(old && dIen d) || decide (dIctr d < 16)) &&
    (!(k == 1 || k == 2) || fld d 96 32 % 512 == 0) && (k != 4 || fld d 80 16 == 0) &&
    (k != 6 || (fld d 70 26 == 0 && decide (fld d 64 6 < ngrp))) &&
    (if k = 3 then true else if k = 1 ∨ k = 2 ∨ k = 4 then fld d 160 96 == 0 else dBody d == 0)

/-- WIN of a virtual-station record. -/
def vWin (v : Nat) : Nat := fld v 0 16
/-- DUALOFF. -/
def vDualOff (v : Nat) : Nat := fld v 16 16
/-- DUALLEN. -/
def vDualLen (v : Nat) : Nat := fld v 32 16
/-- UNITS. -/
def vUnits (v : Nat) : Nat := fld v 64 22
/-- GSLOT0 and GSLOT1. -/
def vGslot (v g : Nat) : Nat := fld v (96 + 8 * g) 8
/-- CROW0 and CROW1. -/
def vCrow (v g : Nat) : Nat := fld v (112 + 8 * g) 8

/-- A virtual-station record is well formed (Table 13.3, R219). -/
def vstOk (v : Nat) : Bool :=
  decide (1 ≤ vWin v ∧ vWin v ≤ 512 ∧ vDualOff v + vDualLen v ≤ vWin v) && fld v 48 16 == 0 && fld v 86 10 == 0 &&
    decide (vCrow v 0 ≤ 128 ∧ vCrow v 1 ≤ 128) && fld v 128 128 == 0

/-- Virtual group of a GROUP record. -/
def gGroup (g : Nat) : Nat := fld g 0 8
/-- SEEDED. -/
def gSeeded (g : Nat) : Bool := bitAt g 8
/-- Member virtual stations. -/
def gMembers (g : Nat) : Nat := fld g 16 16

/-- GROUP record `i` is well formed: its group is below NGRP and no earlier record's (R218). -/
def Img.groupOk (m : Img) (gs : List Nat) (i : Nat) : Bool :=
  let g := gs.getD i 0
  decide (gGroup g < m.ngrp) && ((gs.take i).all fun x => gGroup x != gGroup g) && fld g 9 7 == 0 && fld g 32 96 == 0 &&
    gMembers g / 2 ^ m.nvst == 0

/-! ## The checks of R219, in order -/

/-- A refusal: its code, and the section and record it names. -/
structure ImgErr where
  code : Byte
  sect : Nat
  record : Nat
  deriving DecidableEq, Repr

/-- The version and the TIMED flag are accepted (R233). -/
def Img.versionOk (m : Img) (pvi2max : Nat) : Bool :=
  if m.major = 2 then decide (m.minor ≤ pvi2max) && !m.timed else m.major == 1 && decide (4 ≤ m.minor ∧ m.minor ≤ 9)

/-- Step 1: IMAGE_VERSION. -/
def Img.versionErr (m : Img) (pvi2max : Nat) : Option ImgErr :=
  if !m.versionOk pvi2max then some ⟨Code.imageVersion, 0, 0⟩
  else if m.old then
    (m.sectsOf 1).findSome? fun x =>
      ((m.recs x.1).findIdx? fun r => m.newOp (BitVec.ofNat 128 r)).map fun i => ⟨Code.imageVersion, x.2, i⟩
  else none

/-- The header's fields are in range and its reserved bytes 0 (Table 13.1). -/
def Img.headFields (m : Img) (len : Nat) : Bool :=
  fld m.flags 1 15 == 0 && decide (1 ≤ m.nvst ∧ m.nvst ≤ if m.old then 8 else 16) &&
    decide (1 ≤ m.ndesc ∧ m.ndesc ≤ 1048576) && zeroAt m.b 0x14 4 && field m.b 0x18 8 == len && zeroAt m.b 0x20 28 &&
    decide (64 + 16 * m.nsect ≤ len)

/-- Section `i` is in place: of a known type, at its place in the image, clear of the header, the table and every other
section, with the length its records take (R217, R218). -/
def Img.sectOk (m : Img) (i : Nat) (x : Sect) : Bool :=
  recBytes x.ty != 0 && x.rsvd == 0 && x.off % 16 == 0 && x.len == x.count * recBytes x.ty &&
    decide (64 + 16 * m.nsect ≤ x.off ∧ x.off + x.len ≤ m.b.length) &&
    (if x.ty = 1 then decide (x.vst < m.nvst ∧ 0 < x.count) else x.vst == 0xFF) &&
    (x.ty != 2 || x.count == m.ndesc) && (x.ty != 3 || x.count == m.nvst) &&
    (m.sects.take i).all fun y => decide (x.off + x.len ≤ y.off ∨ y.off + y.len ≤ x.off)

/-- Exactly one DESC and one VST section, one CODE section for each virtual station, and a GROUP section when there is a group
(R218). -/
def Img.sectsOk (m : Img) : Bool :=
  (m.sectsOf 2).length == 1 && (m.sectsOf 3).length == 1 && (m.sectsOf 4).length == (if m.ngrp = 0 then 0 else 1) &&
    (m.sectsOf 1).length == m.nvst &&
    (List.range m.nvst).all fun v => ((m.sectsOf 1).filter fun x => x.1.vst == v).length == 1

/-- The first malformed record of a section: descriptor 0 is NULL (R223), the code ends in END (R219), and every group has a
record (R218; a missing one is reported as record 0). -/
def Img.badRec (m : Img) (x : Sect) : Option Nat :=
  let rs := m.recs x
  if x.ty = 1 then
    (rs.findIdx? fun r => !m.instrOk x.count (BitVec.ofNat 128 r)).orElse fun _ =>
      if (rs.getLast?.map fun r => opOf (BitVec.ofNat 128 r) == 2).getD false then none else some (x.count - 1)
  else if x.ty = 2 then
    if (rs.head?.map dKind).getD 0 = 0 then rs.findIdx? fun d => !descOk m.old m.ngrp d else some 0
  else if x.ty = 3 then rs.findIdx? fun v => !vstOk v
  else ((List.range rs.length).find? fun i => !m.groupOk rs i).orElse fun _ => if rs.length < m.ngrp then some 0 else none

/-- Step 2: BAD_OPERAND, for an image that is malformed. -/
def Img.formErr (m : Img) (len : Nat) : Option ImgErr :=
  if !m.headFields len then some ⟨Code.badOperand, 0, 0⟩
  else
    match m.sects.zipIdx.find? fun x => !m.sectOk x.2 x.1 with
    | some x => some ⟨Code.badOperand, x.2, 0⟩
    | none =>
      if !m.sectsOk then some ⟨Code.badOperand, 0, 0⟩
      else m.sects.zipIdx.findSome? fun x => (m.badRec x.1).map fun i => ⟨Code.badOperand, x.2, i⟩

/-- Step 3: PARAM_MISMATCH (R219, Table 13.11). -/
def Img.paramErr (m : Img) (digit packed : Nat) : Option ImgErr :=
  let bad := (m.digitPs != 0 && m.digitPs != digit) || (m.packedPs != 0 && m.packedPs != packed) ||
    (m.old && (!([0, 1, 2].contains m.digitPs) || !([0, 0x11, 0x12].contains m.packedPs)))
  if bad then some ⟨Code.paramMismatch, 0, 0⟩ else none

/-- The checks of R219 before placement. -/
def Img.check (m : Img) (pvi2max digit packed : Nat) : Option ImgErr :=
  if !m.headOk then some ⟨Code.badOperand, 0, 0⟩
  else (m.versionErr pvi2max).orElse fun _ => (m.formErr m.b.length).orElse fun _ => m.paramErr digit packed

end Sys2Proof.Machine
end

