-- ==== Sys2Proof/Machine/Place.lean ====
section
/-! DEFINITION. Place.lean: how the translator places an image: virtual stations on granted stations, virtual units on engines,
windows in Pantries (R143, R155, R169, R170, R176, R220, R231, R232, Tables 13.9 and 13.10; log entry 10). -/

namespace Sys2Proof.Machine

/-! ## Engine classes (Tables 1.3 and 13.4) -/

/-- First unit and number of units of the class of a unit. -/
def unitClass (u : Nat) : Nat × Nat :=
  if u = 0 then (0, 1) else if u ≤ 2 then (1, 2) else if u ≤ 4 then (3, 2) else if u ≤ 12 then (5, 8) else if u ≤ 14 then (13, 2)
  else if u ≤ 17 then (u, 1) else (18, 4)

/-- Home quadrant of a physical unit (Table 1.3). -/
def homeQuad (p : Nat) : Nat :=
  if p = 0 ∨ p = 15 then 2 else if p = 16 ∨ p = 17 then 3 else if p ≤ 4 then (p - 1) % 2 else if p ≤ 12 then (p - 5) / 2
  else if p ≤ 14 then p - 13 else p - 18

/-- The physical units of a class that are in service on a station. -/
def State.serving (s : State) (st : Fin 16) (c : Nat × Nat) : List Nat :=
  (List.finRange 22).filterMap fun u => if c.1 ≤ u.val ∧ u.val < c.1 + c.2 ∧ s.unitOn st u = true then some u.val else none

/-! ## Windows (R170) -/

/-- A window of `win` units of 64 KiB at base `b` overlaps no valid window (R170). -/
def Pantry.baseFree (p : Pantry) (win b : Nat) : Bool :=
  p.wins.toList.all fun w => !w.valid || decide (b + win ≤ w.base.toNat ∨ w.base.toNat + w.size.toNat ≤ b)

/-- The first window register that is not in use. -/
def Pantry.freeWin (p : Pantry) : Option (Fin 4) := (List.finRange 4).find? fun w => !p.wins[w].valid

/-! ## What a virtual station needs -/

/-- The virtual units a virtual station uses: those of its record, those its code names, and the sequencer. -/
def Img.unitsUsed (m : Img) (v : Nat) : List Nat :=
  let code := m.code v
  (List.range 22).filter fun u => u == 0 || bitAt (vUnits (m.vsts.getD v 0)) u || code.any fun iw => unitOf iw == u

/-- Weight slots that a virtual Griddle uses: those of the record, and those a GLOAD or a GMAC chain names. -/
def Img.slotsUsed (m : Img) (v g : Nat) : List Nat :=
  let code := (m.code v).filter fun iw => unitOf iw == 1 + g
  (List.range 8).filter fun k => bitAt (vGslot (m.vsts.getD v 0) g) k || code.any fun iw =>
    (opOf iw == 0x20 && modsFld iw 0 3 == k) ||
      (opOf iw == 0x21 && decide (modsFld iw 0 3 ≤ k ∧ k ≤ modsFld iw 0 3 + fld (m.param iw) 33 3))

/-- Slots that a virtual Griddle takes on a Griddle of this width: a slot that some GMAC reads at more columns takes a second one
for the remainder tile (Table 13.9). -/
def Img.slotNeed (m : Img) (v g width : Nat) : Nat :=
  let code := (m.code v).filter fun iw => unitOf iw == 1 + g && opOf iw == 0x21
  let wide := (m.slotsUsed v g).filter fun k => code.any fun iw =>
    decide (modsFld iw 0 3 ≤ k ∧ k ≤ modsFld iw 0 3 + fld (m.param iw) 33 3 ∧ width < fld (m.param iw) 43 7 + 1)
  (m.slotsUsed v g).length + wide.length

/-- Presented widths of the enabled Griddles of a station. -/
def State.widths (s : State) (st : Fin 16) : List Nat :=
  ((List.finRange 2).filter (s.griddleOn st)).map fun g => s.stations[st].griddles[g].width

/-- Slots that a virtual Griddle takes on a Griddle of this width, none where it is not used. -/
def Img.slotUse (m : Img) (v g width : Nat) : Nat := if (m.unitsUsed v).contains (1 + g) then m.slotNeed v g width else 0

/-- The slots of both virtual Griddles fit Griddles of these widths, one each. -/
def Img.slotPair (m : Img) (v w0 w1 : Nat) : Bool := decide (m.slotUse v 0 w0 ≤ 8 ∧ m.slotUse v 1 w1 ≤ 8)

/-- The Griddles of a station hold the slots: each virtual Griddle on one of its own, either way round, or both on one. -/
def State.slotsFit (s : State) (m : Img) (v : Nat) (st : Fin 16) : Bool :=
  match s.widths st with
  | [w0, w1] => m.slotPair v w0 w1 || m.slotPair v w1 w0
  | [w] => decide (m.slotUse v 0 w + m.slotUse v 1 w ≤ 8)
  | _ => true

/-- The translated code of a virtual station fits: a GLOAD or a GMAC of more columns than the narrowest Griddle presents becomes two
(Tables 13.9 and 13.10). -/
def State.codeFits (s : State) (m : Img) (v : Nat) (st : Fin 16) : Bool :=
  let w := (s.widths st).foldl min 128
  let split := (m.code v).filter fun iw =>
    (opOf iw == 0x20 || opOf iw == 0x21) && (m.slotsUsed v (unitOf iw - 1)).any fun k => (m.code v).any fun x =>
      unitOf x == unitOf iw && opOf x == 0x21 && decide (w < fld (m.param x) 43 7 + 1) &&
        decide (modsFld x 0 3 ≤ k ∧ k ≤ modsFld x 0 3 + fld (m.param x) 33 3) && (x == iw || modsFld iw 0 3 == k)
  decide ((m.code v).length + split.length ≤ 65536)

/-- Virtual Skillets that share one fit its 128 cache rows. -/
def State.rowsFit (s : State) (m : Img) (v : Nat) (st : Fin 16) : Bool :=
  let used := m.unitsUsed v
  let r := m.vsts.getD v 0
  decide (2 ≤ (s.serving st (13, 2)).length) || !(used.contains 13 && used.contains 14) || decide (vCrow r 0 + vCrow r 1 ≤ 128)

/-- The engines a Blocker conversion borrows are in service (R143). -/
def State.blockFits (s : State) (m : Img) (v : Nat) (st : Fin 16) : Bool :=
  (m.code v).all fun iw =>
    let kb := if opOf iw = 0x70 then fld (m.param iw) 48 3 + 1 else 1
    !(opOf iw == 0x70 || opOf iw == 0x71) ||
      (!(s.serving st (1, 2)).isEmpty && !(s.serving st (3, 2)).isEmpty && decide (kb ≤ (s.serving st (5, 8)).length))

/-- A virtual station can be placed on a station. -/
def State.fits (s : State) (m : Img) (v : Nat) (st : Fin 16) : Bool :=
  ((m.unitsUsed v).all fun u => !(s.serving st (unitClass u)).isEmpty) && s.slotsFit m v st && s.codeFits m v st &&
    s.rowsFit m v st && s.blockFits m v st

/-- Every unit it uses has its own instance there. -/
def State.fitsFull (s : State) (m : Img) (v : Nat) (st : Fin 16) : Bool :=
  let used := m.unitsUsed v
  used.all fun u => decide ((used.filter fun x => unitClass x == unitClass u).length ≤ (s.serving st (unitClass u)).length)

/-! ## Virtual stations on stations (Table 13.9) -/

/-- Place virtual stations from `v` on, in ascending order, each on the first free station that fits, one with an instance for
every unit first. The number of the first that cannot be placed, or the stations. -/
def State.placeGo (s : State) (m : Img) : Nat → Nat → List (Fin 16) → Nat ⊕ List (Fin 16)
  | 0, _, _ => .inr []
  | n + 1, v, free =>
    let ok := free.filter (s.fits m v)
    match ((ok.filter (s.fitsFull m v)) ++ ok).head? with
    | none => .inl v
    | some st =>
      match State.placeGo s m n (v + 1) (free.filter (· != st)) with
      | .inl e => .inl e
      | .inr l => .inr (st :: l)

/-- The first virtual group that is SEEDED and has a member on a die with no enabled Funnel (R155). -/
def State.seedErr (s : State) (m : Img) (stns : List (Fin 16)) : Option Nat :=
  m.groups.findIdx? fun g => gSeeded g && (bitsSet 16 (gMembers g)).any fun v =>
    (stns[v]?.map fun st => (List.finRange 16).all fun x => x.val / 4 != st.val / 4 || !s.unitOn x qFunnel).getD false

/-- Descriptors that an instruction names (R235, R245). -/
def Img.refs (m : Img) (iw : BitVec 128) : List Nat :=
  let op := opOf iw
  let p := m.param iw
  [d0Of iw, d1Of iw, d2Of iw] ++ (if op = 0x21 then [d2Of iw + 1] else []) ++
    (if op = 0x18 then (List.range (fld p 0 2)).map fun i => d1Of iw + 1 + i else []) ++
    (if hasXD op then [fld p 0 24] else []) ++ (if hasXE op then [fld p 80 24] else [])

/-- A virtual station whose code is too long, or names too many descriptors (Table 13.10). -/
def Img.codeErr (m : Img) : Option Nat :=
  (List.range m.nvst).find? fun v =>
    decide (65536 < (m.code v).length) || decide (65536 < (((m.code v).flatMap m.refs).eraseDups).length)

/-- Section index of a type's first section, or of a virtual station's code. -/
def Img.sectIx (m : Img) (ty : Nat) : Nat := ((m.sectsOf ty).head?.map Prod.snd).getD 0
/-- Section index of a virtual station's code. -/
def Img.codeIx (m : Img) (v : Nat) : Nat := (((m.sectsOf 1).find? fun x => x.1.vst == v).map Prod.snd).getD 0

/-- Step 4: the stations of an image among those that may be granted, or IMAGE_RESOURCE (Table 13.10). -/
def State.resourceErr (s : State) (m : Img) (granted : List (Fin 16)) : ImgErr ⊕ List (Fin 16) :=
  if 64 < m.ngrp ∨ granted.length < m.nvst then .inl ⟨Code.imageResource, 0, 0⟩
  else
    match m.codeErr with
    | some v => .inl ⟨Code.imageResource, m.codeIx v, 0⟩
    | none =>
      match s.placeGo m m.nvst 0 granted with
      | .inl v => .inl ⟨Code.imageResource, m.sectIx 3, v⟩
      | .inr stns =>
        match s.seedErr m stns with
        | some g => .inl ⟨Code.imageResource, m.sectIx 4, g⟩
        | none => .inr stns

/-- Enable and width state of stations' engines (R232). -/
def State.widthState (s : State) (stns : List (Fin 16)) : List Nat :=
  stns.flatMap fun st =>
    ((List.finRange 22).map fun u => b2n (s.unitOn st u)) ++ (List.finRange 2).map fun g => s.stations[st].griddles[g].width

/-- A choice of the placement, which the image, the stations and the state of their engines fix (R232). -/
def State.placeNo (s : State) (m : Img) (stns : List (Fin 16)) (k : Nat) : Nat :=
  Config.placement m.b (stns.map Fin.val) (s.widthState stns) k

/-- The stations that a job gets now: all the free ones may be granted, or fewer (log entry 10). -/
def State.placeNow (s : State) (m : Img) (free : List (Fin 16)) : Option (List (Fin 16)) :=
  let mask := s.placeNo m free 0
  let some' := free.filter fun st => bitAt mask st.val
  let try' := fun (l : List (Fin 16)) => match s.resourceErr m l with
    | .inr stns => some stns
    | .inl _ => none
  if free.length = m.nvst then try' free else (try' some').orElse fun _ => try' free

/-! ## Views and timing (R169, R176) -/

/-- The regions, of 4 MiB, that an area of 64 KiB units touches, as bits. -/
def regionBits (base len : Nat) : Byte :=
  if len = 0 then 0
  else BitVec.ofNat 8 (((List.range 8).filter fun r => decide (r * 64 < base + len ∧ base < r * 64 + 64)).map (2 ^ ·)).sum

/-- The window is granted: its register, and the views and the timing of its image in the regions it touches: in one that no other
window holds they are the image's alone, in another they are added (R169, R176). -/
def Pantry.grant (p : Pantry) (w : Fin 4) (base win dualOff dualLen : Nat) (timed : Bool) : Pantry :=
  let all := regionBits base win
  let other := (p.wins.toList.filter (·.valid)).foldl (fun m x => m ||| regionBits x.base.toNat x.size.toNat) 0
  { p with
    dual := (p.dual &&& ~~~(all &&& ~~~other)) ||| regionBits (base + dualOff) dualLen
    timed := (p.timed &&& ~~~(all &&& ~~~other)) ||| (if timed then all else 0)
    wins := p.wins.set w ⟨true, BitVec.ofNat 10 win, BitVec.ofNat 9 base⟩ }

/-! ## Virtual units on engines (R14, R231) -/

/-- How many of a virtual unit's descriptors lie in a quadrant, for a window base in bytes. -/
def Img.quadCount (m : Img) (v u base quad : Nat) : Nat :=
  let ds := (((m.code v).filter fun iw => unitOf iw == u).flatMap m.refs).eraseDups
  (ds.filter fun d => (dKind (m.desc d) == 1 || dKind (m.desc d) == 2) && fld (base + dAddr (m.desc d)) 23 2 == quad).length

/-- Assign the virtual units of a list, in order: each to the instance, not yet taken while one is left, whose home quadrant holds
most of its descriptors; a tie keeps the unit's own number, and then the lowest. -/
def assignGo (count : Nat → Nat → Nat) (insts : List Nat) : List Nat → List Nat → List (Nat × Nat)
  | _, [] => []
  | taken, u :: us =>
    let open' := insts.filter fun p => !taken.contains p
    let pool := if open'.isEmpty then insts else open'
    let best := (pool.map fun p => count u (homeQuad p)).foldl max 0
    let top := pool.filter fun p => count u (homeQuad p) == best
    let p := if top.contains u then u else top.headD u
    (u, p) :: assignGo count insts (p :: taken) us

/-- Two virtual Griddles change places where their slots do not fit the Griddles that their home quadrants give them (Table 13.10). -/
def State.griddleSwap (s : State) (m : Img) (v : Nat) (st : Fin 16) (pairs : List (Nat × Nat)) : List (Nat × Nat) :=
  let width := fun p => if p = 2 then s.stations[st].griddles[1].width else s.stations[st].griddles[0].width
  match s.widths st with
  | [_, _] =>
    if pairs.all fun x => decide (m.slotUse v (x.1 - 1) (width x.2) ≤ 8) then pairs else pairs.map fun x => (x.1, 3 - x.2)
  | _ => pairs

/-- The physical unit of each virtual unit of a virtual station (Table 13.9); a unit that is not used keeps its number. -/
def State.unitMap (s : State) (m : Img) (v : Nat) (st : Fin 16) (base : Nat) : List (Fin 22) :=
  let used := m.unitsUsed v
  let pairs := [0, 1, 3, 5, 13, 15, 16, 17, 18].flatMap fun c =>
    let l := assignGo (fun u q => m.quadCount v u base q) (s.serving st (unitClass c)) []
      (used.filter fun u => unitClass u == unitClass c)
    if c = 1 then s.griddleSwap m v st l else l
  (List.finRange 22).map fun u =>
    match pairs.find? fun x => x.1 == u.val with
    | some x => if h : x.2 < 22 then ⟨x.2, h⟩ else u
    | none => u

/-- Where the slots of the two virtual Griddles go when they share one: those of Griddle 0 first, each in ascending order. -/
def Img.slotMap (m : Img) (v : Nat) : List Nat :=
  let a := m.slotsUsed v 0
  let b := m.slotsUsed v 1
  (List.range 16).map fun i =>
    if i < 8 then (if a.contains i then a.findIdx (· == i) else i)
    else if b.contains (i - 8) then a.length + b.findIdx (· == i - 8) else i - 8

end Sys2Proof.Machine
end

