-- ==== Sys2Proof/Machine/Jobs.lean ====
section
/-! DEFINITION. Jobs.lean: JOB_SUBMIT, admission and its grant, the commit point, aborts and their clean-up (R252 to R272,
R292). -/

namespace Sys2Proof.Machine

/-! ## Clearing a station's engines (R73, R97, R116, R144, R164, R197) -/

/-- A Kettle's stores are cleared. -/
def Kettle.clear (k : Kettle) : Kettle :=
  { Kettle.reset with
    grp := k.grp
    stall := k.stall
    refreshes := k.refreshes }

/-- The engines' stores are cleared, where R73 clears Griddle slots: at a grant, a station reset and a warm reset (R97, R116, R131,
R144). -/
def Station.clearEngines (t : Station) : Station :=
  let t1 := t.stop
  { t1 with
    griddles := t1.griddles.map fun g => { g with slots := Vector.replicate 8 Slot.reset }
    skillets := t1.skillets.map fun v => { v with cache := [] }
    kettles := t1.kettles.map Kettle.clear
    funnel := { t1.funnel with dir := [] }
    cardBuf := []
    cardRoute := []
    jobStns := [] }

/-! ## Ending roles (R172, R256, R267, R268, R304) -/

/-- A job's role on a station ends: its window is being zeroed until it is marked invalid. -/
def Station.endRole (t : Station) : Station :=
  { t.stop with
    held := false
    job := none
    ses4 := t.stop.ses4.map fun e => { e with faulted := false }
    pantry := { t.pantry with zwin := t.pantry.zwin ||| BitVec.ofNat 4 (2 ^ t.win.val) } }

/-- What a job bound on a session's slot is released: stations, credit in both directions, frames not acknowledged (R304). -/
def StreamSlot.release (x : StreamSlot) (stns : List (Fin 16)) : StreamSlot :=
  let tx := (x.txStn.map fun st => stns.contains st).getD false
  let rx := (x.rxStn.map fun st => stns.contains st).getD false
  { x with
    txStn := if tx then none else x.txStn
    credit := if tx then [] else x.credit
    unacked := if tx then [] else x.unacked
    rxStn := if rx then none else x.rxStn
    rxq := if rx then [] else x.rxq
    acks := if rx then [] else x.acks }

/-- A job's streams close, its groups are released, its bindings end and its roles end. -/
def State.releaseJob (s : State) (j : Nat) : State :=
  let stns := ((s.crown.jobs.get? j).map (·.stns)).getD []
  let ses := ((s.crown.jobs.get? j).map (·.ses)).getD 0
  let s1 := (s.mapStns (s.holds j) Station.endRole).updSession ses fun x =>
    { x with slots := x.slots.map fun y => y.release stns }
  { s1 with crown := { s1.crown with groups := s1.crown.groups.filter fun g => g.2.job != j } }

/-! ## Submission (R263, R264, R292) -/

/-- The entry a submission takes: a FREE one, by choice, or else that of the job that ended least recently (R263). -/
def State.freeEntry (s : State) : Option Nat :=
  match s.pick ((List.range 4096).filter fun j => (s.jobAt j).state == .free) with
  | some j => some j
  | none => s.crown.endOrder.head?

/-- The next generation of an entry (R263). -/
def nextGen (g : BitVec 20) : BitVec 20 := if g = 0xFFFFF then 1 else g + 1

/-- The fields of JOB_SUBMIT (Table 16.7). -/
def submitFields : List (Nat × Nat) := [(0, 8), (8, 4), (0xC, 4), (0x10, 8), (0x18, 2), (0x1A, 1), (0x20, 8), (0x28, 2)]

/-- The checks of a submission on its own fields (R292). -/
def submitOk (jsig : Bool) (b : List Byte) : Bool :=
  let vec := pay b 0x1A 1
  decide (pay b 0x18 2 ≤ 1024) && (vec == 0 || decide (3 ≤ vec ∧ vec ≤ 31)) &&
    (jsig || (pay b 0x20 8 == 0 && pay b 0x28 2 == 0))

/-- The entry of a new job (R263). -/
def newJob (old : Job) (x : SesBody) (r : ReqRef) (b : List Byte) : Job :=
  { Job.reset with
    gen := nextGen old.gen
    state := .admitting
    ses := reqSession b
    func := x.func
    ref := r
    imgLen := pay b 8 4
    nbuf := pay b 0x18 2
    vec := pay b 0x1A 1
    ticketLen := pay b 0x28 2
    limit := if pay b 0xC 4 = 0 then x.deflimit else BitVec.ofNat 32 (pay b 0xC 4) }

/-- A drain or margin mode admits no job (R214, R293). -/
def State.noJobs (s : State) : Bool := s.crown.activation.isSome || s.mem.margin

/-- A submission that its fields allow: BUSY, or a job in ADMITTING and its ID. -/
def State.submit (s : State) (r : ReqRef) (b : List Byte) : State :=
  match (if s.noJobs then none else s.freeEntry) with
  | none => s.reply r Code.busy
  | some j =>
    let x := newJob (s.jobAt j) (s.session (reqSession b)).body r b
    ({ s with crown := { s.crown with
      jobs := s.crown.jobs.put j x
      endOrder := s.crown.endOrder.filter (· != j) } }.reply r Code.accepted (natLe 4 (jobId j x.gen).toNat)).tick

/-- JOB_SUBMIT. -/
def execJobSubmit (f : Fin 64) (s : State) : Host.Outcome State Fault Refusal :=
  cmdRow f 0x40 submitFields false true (fun s r b =>
    if submitOk (bitAt (s.session (reqSession b)).body.policy.toNat 1) b then s.submit r b else s.reply r Code.badOperand) s

/-! ## The buffer table (R260, R261) -/

/-- An entry of a job buffer table. -/
structure BtEntry where
  buf : Nat
  out : Bool
  rsvd : Nat
  deriving DecidableEq, Repr

/-- The entries that bytes spell (R292). -/
def btEntries (n : Nat) (b : List Byte) : List BtEntry :=
  (chunked 8 n b).map fun e => ⟨field e 0 4, bitAt (field e 4 4) 0, field e 4 4 / 2⟩

/-- The table is valid for a session (R260). -/
def State.btOk (s : State) (ses : Nat) (es : List BtEntry) : Bool :=
  (es.all fun e => e.rsvd == 0 && ((s.crown.buffers.get? e.buf).map fun b => b.ses == ses).getD false) &&
    decide ((es.filter (·.out)).length ≤ 256) && decide (es.eraseDups.length = es.length)

/-- The handle of an entry: IN reads the committed version, OUT has the other one. -/
def State.handleOfEntry (s : State) (e : BtEntry) : Handle :=
  match s.crown.buffers.get? e.buf with
  | some b => ⟨e.buf, e.out, if b.cv != e.out then b.v1 else b.v0, b.len⟩
  | none => ⟨e.buf, e.out, 0, 0⟩

/-- A buffer is held as OUT by a job that has not ended. -/
def State.heldOut (s : State) (buf : Nat) : Bool :=
  s.crown.jobs.any fun j => !j.2.state.ended && j.2.handles.any fun h => h.out && h.buf == buf

/-- Pins of the version that is not committed. -/
def Buffer.pinsOther (b : Buffer) : Nat := if b.cv then b.pin0 else b.pin1

/-- A buffer has an export. -/
def State.exported (s : State) (buf : Nat) : Bool := s.crown.exports.any fun e => e.2.buf == buf

/-- The version that is not committed may not be written or committed now (R261, R262, R310). -/
def State.bufBusy (s : State) (buf : Nat) : Bool :=
  s.heldOut buf || decide (0 < ((s.crown.buffers.get? buf).map Buffer.pinsOther).getD 0) || s.exported buf

/-! ## Admission (R265) -/

/-- Admission fails with an error. -/
def State.failJob (s : State) (j : Nat) (e : ImgErr) : State := s.refuseJob j e.code e.sect e.record

/-- Stations that may be granted to a session: its mask, less those withdrawn (R252, R385). -/
def State.grantable (s : State) (x : SesBody) : List (Fin 16) :=
  (List.finRange 16).filter fun st => bitAt x.stmask.toNat st.val && !bitAt s.crown.withdrawn.toNat st.val

/-- Physical groups that no job holds, lowest first. -/
def State.freeGroups (s : State) : List (Fin 64) := (List.finRange 64).filter fun g => (s.crown.groups.get? g.val).isNone

/-- One station is granted: role, window, cleared engines, MODTAB, station-index table, scoreboard, code and directory (R224,
R231, R257, R265). -/
def Station.grantRole (t : Station) (j ses : Nat) (epoch : BitVec 16) (win : Fin 4) (pan : Pantry) (ml : List ModEntry)
    (stns : List (Fin 16)) (dir : List ObjDesc) : Station :=
  let t1 := t.clearEngines
  { t1 with
    epoch := epoch
    held := true
    ses := BitVec.ofNat 14 ses
    job := some j
    win := win
    jobStns := stns
    modtab := modtabOf ml
    modlist := ml
    pc := 0
    run := true
    ended := false
    partDone := false
    load := none
    flags := 0
    ctrs := Vector.replicate 32 0
    cmps := Vector.replicate 8 ⟨0, 0, 0⟩
    funnel := { t1.funnel with dir := dir }
    pantry := pan }

/-- The epoch of the next grant: one more, skipping 0 (R256). -/
def nextEpoch (e : BitVec 16) : BitVec 16 := if e = 0xFFFF then 1 else e + 1

/-- WSEL BOTH becomes ONE where one Whisk is in service (R92). -/
def oneWhisk (iw : BitVec 128) : BitVec 128 := if opOf iw = 0x30 then iw &&& ~~~ BitVec.ofNat 128 (2 ^ 16) else iw

/-- The translated image of virtual station `v` on its station (R231; a GMAC's tiles on a narrow Griddle: log entry 44). -/
def State.loadStation (s : State) (m : Img) (v : Nat) (st : Fin 16) (base : Nat) (gmap : List (Fin 64)) (t : Station) : Station :=
  let umap := s.unitMap m v st (base * 65536)
  let used := m.unitsUsed v
  { t with
    code := if (s.serving st (3, 2)).length = 1 then (m.code v).map oneWhisk else m.code v
    descs := m.descs.map (BitVec.ofNat 256)
    umap := umap
    slotMap := if used.contains 1 && used.contains 2 && umap.getD 1 1 == umap.getD 2 2 then m.slotMap v else []
    crowOff := if used.contains 13 && used.contains 14 && umap.getD 13 13 == umap.getD 14 14 then vCrow (m.vsts.getD v 0) 0 else 0
    gmap := gmap }

/-- The window of virtual station `v`: its register and Pantry, where a register and the area of the placement's base are free.
The image, the stations and the state of their engines fix the base (R232). -/
def State.windowFor (s : State) (m : Img) (stns : List (Fin 16)) (v : Nat) (st : Fin 16) : Option (Fin 4 × Nat × Pantry) :=
  let p := s.stations[st].pantry
  let r := m.vsts.getD v 0
  let b := s.placeNo m stns (1 + v) % (513 - vWin r)
  match p.freeWin with
  | some w => if p.baseFree (vWin r) b then some (w, b, p.grant w b (vWin r) (vDualOff r) (vDualLen r) m.timed) else none
  | none => none

/-- Every virtual station has its window. -/
def State.windowsFree (s : State) (m : Img) (stns : List (Fin 16)) : Bool :=
  stns.zipIdx.all fun x => (s.windowFor m stns x.2 x.1).isSome

/-- Grant virtual stations from `v` on. -/
def State.grantGo (m : Img) (j ses : Nat) (all : List (Fin 16)) (ml : List ModEntry) (dir : List ObjDesc)
    (gmap : List (Fin 64)) : Nat → List (Fin 16) → State → State
  | _, [], s => s
  | v, st :: rest, s =>
    match s.windowFor m all v st with
    | none => s
    | some (w, b, p) =>
      let sorted := (List.finRange 16).filter all.contains
      let t := (s.stations[st].grantRole j ses (nextEpoch s.stations[st].epoch) w p ml sorted dir)
      State.grantGo m j ses all ml dir gmap (v + 1) rest (s.putStn st (s.loadStation m v st b gmap t))

/-- The translated-image cache after a job's image: its entry is the most recently used of 256 (R232). -/
def State.cacheImage (s : State) (m : Img) (f : Fin 64) (stns : List (Fin 16)) : State :=
  let e : CacheEntry := ⟨sha256 m.b, f, stns, s.widthState stns⟩
  { s with crown := { s.crown with cache := (e :: s.crown.cache.filter (· != e)).take 256 } }

/-- The job's groups: physical group `g` for each record, with the stations placed in it (R156). -/
def Img.groupTab (m : Img) (j : Nat) (stns : List (Fin 16)) (phys : List (Fin 64)) : Tab Group :=
  m.groups.filterMap fun g =>
    phys[gGroup g]?.map fun p => (p.val, ⟨j, (List.finRange 16).filter fun st =>
      (bitsSet 16 (gMembers g)).any fun v => stns[v]? == some st⟩)

/-- Admission succeeds: roles, groups, pins and the job's entry; the job runs (R257, R265). -/
def State.grantJob (s : State) (j : Nat) (m : Img) (ks : KeySet) (ktag : Word) (es : List BtEntry)
    (stns : List (Fin 16)) : State :=
  let x := s.jobAt j
  let hs := es.map s.handleOfEntry
  let phys := s.freeGroups.take m.ngrp
  let s1 := State.grantGo m j x.ses stns (s.session x.ses).modlist ks.dir phys 0 stns s
  let s2 := ((s1.cacheImage m x.func stns).pinAll hs (· + 1)).updSession x.ses fun y => { y with jobs := y.jobs + 1 }
  { s2 with crown := { s2.crown with
    groups := s2.crown.groups ++ m.groupTab j stns phys
    everAdmitted := true
    jobs := s2.crown.jobs.upd j fun y => { y with
      state := .running
      ktag := ktag
      handles := hs
      stns := (List.finRange 16).filter stns.contains
      groups := phys
      admitted := true
      img := []
      btab := [] } } }

/-- Steps 3 to 5 of R265, and the grant. -/
def State.admitPlaced (s : State) (j : Nat) (ks : KeySet) (ktag : Word) (img btab : List Byte) : State :=
  let x := s.jobAt j
  let m := Img.of img
  let granted := s.grantable (s.session x.ses).body
  match m.check (field s.boot.header 0x11 1) ks.digitPs ks.packedPs with
  | some e => s.failJob j e
  | none =>
    match s.resourceErr m granted with
    | .inl e => s.failJob j e
    | .inr _ =>
      let es := btEntries x.nbuf btab
      if !s.btOk x.ses es then s.failJob j ⟨Code.badOperand, 0, 0⟩
      else
        let free := granted.filter fun st => !s.stations[st].held
        match s.placeNow m free with
        | none => s.failJob j ⟨Code.busy, 0, 0⟩
        | some stns =>
          if s.freeGroups.length < m.ngrp ∨ s.windowsFree m stns = false ∨ (es.any fun e => e.out && s.bufBusy e.buf) = true then
            s.failJob j ⟨Code.busy, 0, 0⟩
          else s.grantJob j m ks ktag es stns

/-- The ticket of a session with JSIG: Mortar is asked, once its bundle's key is OWNER's (R265, R290, R292). -/
def State.askTicket (s : State) (j : Nat) (ktag : Word) (owner img btab : List Byte) (ticket : HostRead) : State :=
  let x := s.jobAt j
  match ticket.filter fun b => b.length == x.ticketLen with
  | none => s.failJob j ⟨Code.internal, 0, 0⟩
  | some b =>
    match (if sha256 (bundleKey b) = owner then bundleSlots b (sha256 img ++ sha256 btab) else none) with
    | none => s.failJob j ⟨Code.badOperand, 0, 0⟩
    | some sl =>
      let (s1, tag) := s.askVerify none j sl 64
      s1.updJob j fun y => { y with mtag := some tag, ktag := ktag, img := img, btab := btab }

/-- Admission of a job (R265), with what its host reads brought. -/
def State.tryAdmit (s : State) (j : Nat) (img btab ticket : HostRead) : State :=
  let x := s.jobAt j
  let ses := s.session x.ses
  if ses.body.state ≠ .opened ∨ ses.body.maxjobs.toNat ≤ ses.jobs then s.failJob j ⟨Code.busy, 0, 0⟩
  else
    match x.ticket with
    | some c =>
      match s.crown.keysets.get? x.ktag.toNat with
      | none => s.failJob j ⟨Code.keyUnverified, 0, 0⟩
      | some ks => if c = Code.ok then s.admitPlaced j ks x.ktag x.img x.btab else s.failJob j ⟨c, 0, 0⟩
    | none =>
      match (s.crown.keysets.get? ses.body.ktag.toNat).filter fun k => k.state == .active with
      | none => s.failJob j ⟨Code.keyUnverified, 0, 0⟩
      | some ks =>
        match img.filter (fun b => b.length == x.imgLen), btab.filter fun b => b.length == 8 * x.nbuf with
        | some ib, some bb =>
          if bitAt ses.body.policy.toNat 1 then s.askTicket j ses.body.ktag ses.body.owner ib bb ticket
          else s.admitPlaced j ks ses.body.ktag ib bb
        | _, _ => s.failJob j ⟨Code.internal, 0, 0⟩

/-- JOB_ADMISSION: an ADMITTING job that does not wait for Mortar. -/
def execJobAdmission (j : Nat) (img btab ticket : HostRead) (s : State) : Host.Outcome State Fault Refusal :=
  occurs s (s.ready && (s.jobAt j).state == .admitting && (s.jobAt j).mtag.isNone) fun s => s.tryAdmit j img btab ticket

/-! ## The commit point (R267) -/

/-- The journal entry of a job: each OUT buffer with its new CV. -/
def State.journalOf (s : State) (j : Nat) : JournalEntry :=
  ⟨j, ((s.jobAt j).handles.filter (·.out)).map fun h => (h.buf, !((s.crown.buffers.get? h.buf).map (·.cv)).getD false)⟩

/-- A job's completion entry is due: OK, or its final status (Table 15.5). -/
def State.completeJob (s : State) (j : Nat) (status : Byte) : State :=
  let x := s.jobAt j
  s.push x.ref.f ⟨x.ref.op, x.ref.tag, status, true, x.ref.rqidx, jobPayload (jobId j x.gen) x.cause x.timeout 0 0, x.vec, some j⟩

/-- Steps 3 to 6: the OUT buffers of a journal entry are committed, the job is released, its completion is due. A record that
already shows the new CV stays as it is (R271). -/
def State.finishCommit (s : State) (e : JournalEntry) : State :=
  let s1 := { s with crown := { s.crown with
    buffers := e.outs.foldl (fun bs (o : Nat × Bool) => Tab.upd bs o.1 fun b => { b with cv := o.2 }) s.crown.buffers } }
  (s1.releaseJob e.job).completeJob e.job Code.ok

/-- Every station of a job has completed its part. -/
def State.partsDone (s : State) (j : Nat) : Bool := (s.jobAt j).stns.all fun st => s.holds j st && s.stations[st].partDone

/-- COMMIT_POINT: the journal entry, the swap to COMMITTED, and the rest of R267. -/
def execCommitPoint (j : Nat) (s : State) : Host.Outcome State Fault Refusal :=
  occurs s ((s.jobAt j).state == .running && s.partsDone j && decide (s.crown.journal.length < 64)) fun s =>
    let e := s.journalOf j
    let s1 := { s with crown := { s.crown with journal := s.crown.journal ++ [e], commits := wrapAdd s.crown.commits 1 } }
    (s1.updJob j fun x => { x with state := .committed }).finishCommit e

/-! ## Aborts (R266, R268, R269) -/

/-- JOB_TIME_LIMIT: the limit of a running job expires (R265, R266). -/
def execJobTimeLimit (j : Nat) (s : State) : Host.Outcome State Fault Refusal :=
  occurs s ((s.jobAt j).state == .running && (s.jobAt j).limit != 0) fun s => s.abortJob j Code.aborted true

/-- The final status that an abort's cause gives (Table 15.5). -/
def finalStatus (cause : Byte) : Byte := if cause = Code.resetAborted then Code.resetAborted else Code.aborted

/-- Clean-up of an aborted job: everything is released, and the completion is due (R268). -/
def State.cleanup (s : State) (j : Nat) : State :=
  let cause := (s.jobAt j).cause
  (((s.updJob j fun x => { x with cleaned := true, mtag := none, img := [], btab := [] }).releaseJob j).completeJob j
    (finalStatus cause))

/-- JOB_ABORT_CLEANUP. -/
def execJobAbortCleanup (j : Nat) (s : State) : Host.Outcome State Fault Refusal :=
  occurs s ((s.jobAt j).state == .aborting && !(s.jobAt j).cleaned) fun s => s.cleanup j

/-- STATE of a job state word (Table 15.3). -/
def JobState.code : JobState → Nat
  | .free => 0
  | .admitting => 1
  | .running => 2
  | .committed => 3
  | .aborting => 4
  | .completed => 5
  | .endedAbort => 6

/-- The job state word of an entry (Table 15.3). -/
def Job.word (x : Job) : Word := BitVec.ofNat 32 (x.gen.toNat * 4096 + x.state.code * 256 + x.cause.toNat)

/-- The entry that a job ID reaches: its generation and its session agree (R269). -/
def State.jobNamed (s : State) (id ses : Nat) : Option (Nat × Job) :=
  (s.crown.jobs.get? (id % 4096)).bind fun x =>
    if x.gen ≠ 0 ∧ x.gen.toNat = id / 4096 ∧ x.ses = ses then some (id % 4096, x) else none

/-- The reply to JOB_ABORT and what it does (R269). -/
def State.abortCmd (s : State) (r : ReqRef) (b : List Byte) : State :=
  match s.jobNamed (pay b 0 4) (reqSession b) with
  | none => s.reply r Code.badOperand
  | some (j, x) =>
    match x.state with
    | .admitting => (s.abortJob j Code.aborted).reply r Code.accepted
    | .running => (s.abortJob j Code.aborted).reply r Code.accepted
    | .committed => s.reply r Code.alreadyComplete
    | .completed => s.reply r Code.alreadyComplete
    | .aborting => s.reply r (finalStatus x.cause)
    | .endedAbort => s.reply r (finalStatus x.cause)
    | .free => s.reply r x.cause

/-- JOB_ABORT. -/
def execJobAbort (f : Fin 64) (s : State) : Host.Outcome State Fault Refusal :=
  cmdRow f 0x41 [(0, 4)] false true State.abortCmd s

/-- JOB_QUERY: the job state word. -/
def execJobQuery (f : Fin 64) (s : State) : Host.Outcome State Fault Refusal :=
  cmdRow f 0x42 [(0, 4)] false true (fun s r b =>
    match s.jobNamed (pay b 0 4) (reqSession b) with
    | some x => s.reply r Code.ok (natLe 4 x.2.word.toNat)
    | none => s.reply r Code.badOperand) s

end Sys2Proof.Machine
end

