-- ==== Sys2Proof/Machine/Sessions.lean ====
section
/-! DEFINITION. Sessions.lean: the commands on sessions, key sets and buffers (R33 to R38, R252 to R262, R286 to R291). -/

namespace Sys2Proof.Machine

/-! ## Sessions (R252 to R255, R288) -/

/-- Bytes of a session body (Table 15.2). -/
def SesState.code : SesState → Nat
  | .free => 0
  | .opened => 1
  | .closing => 2

/-- The 88 bytes of a session body (Table 15.2). -/
def SesBody.bytes (b : SesBody) : List Byte :=
  natLe 4 b.seq.toNat ++ natLe 1 b.state.code ++ natLe 1 b.func.val ++ natLe 2 b.policy.toNat ++ natLe 2 b.stmask.toNat ++
    natLe 2 b.maxjobs.toNat ++ natLe 4 b.ktag.toNat ++ natLe 4 b.deflimit.toNat ++ natLe 1 b.mlcount.toNat ++ zeros 3 ++
    natLe 8 b.mladdr.toNat ++ padTo 32 b.owner ++ zeros 24

/-- Sessions of a function that are not FREE. -/
def State.sessionsOf (s : State) (f : Fin 64) : Nat :=
  (s.crown.sessions.filter fun x => x.2.body.state != .free && x.2.body.func == f).length

/-- SESSION_OPEN's own fields are legal (R252, R288). -/
def State.openOk (s : State) (f : Fin 64) (b : List Byte) : Bool :=
  decide (pay b 0 2 < 4) && (bitsSet 16 (pay b 2 2)).all (bitAt s.crown.funcs[f].stmask.toNat) &&
    decide (1 ≤ pay b 4 2 ∧ pay b 4 2 ≤ 4096)

/-- The FREE record that SESSION_OPEN takes, unless the function is at MAXSESS or the module is in margin mode. -/
def State.openRecord (s : State) (f : Fin 64) : Option Nat :=
  if s.crown.funcs[f].maxsess ≤ s.sessionsOf f ∨ s.mem.margin = true then none
  else s.pick ((List.range 16384).filter fun i => (s.session i).body.state == .free)

/-- The body that SESSION_OPEN commits. -/
def openBody (f : Fin 64) (b : List Byte) : SesBody :=
  { SesBody.reset with
    state := .opened
    func := f
    policy := BitVec.ofNat 16 (pay b 0 2)
    stmask := BitVec.ofNat 16 (pay b 2 2)
    maxjobs := BitVec.ofNat 16 (pay b 4 2)
    deflimit := BitVec.ofNat 32 (pay b 8 4)
    owner := slice b 0x1C 32 }

/-- SESSION_OPEN. -/
def execSessionOpen (f : Fin 64) (s : State) : Host.Outcome State Fault Refusal :=
  cmdRow f 0x10 [(0, 2), (2, 2), (4, 2), (8, 4), (0xC, 32)] false false (fun s r b =>
    if !s.openOk r.f b then s.reply r Code.badOperand
    else
      match s.openRecord r.f with
      | none => s.reply r Code.busy
      | some i =>
        ({ s with crown := { s.crown with sessions := s.crown.sessions.put i ((s.session i).commit (openBody r.f b)) } }.reply r
          Code.ok (natLe 2 i)).tick) s

/-- SESSION_CLOSE: CLOSING is committed, and the close finishes once JOBS is 0. -/
def execSessionClose (f : Fin 64) (s : State) : Host.Outcome State Fault Refusal :=
  cmdRow f 0x11 [] false true (fun s r b =>
    let i := reqSession b
    ((s.updSession i fun x =>
      let y := { x with closers := x.closers ++ [r] }
      if x.body.state = .opened then y.commit { x.body with state := .closing } else y).reply r Code.accepted).closeCheck i) s

/-- The entries of a modulus-list submission: Q and PSI (R254). -/
def modEntries (n : Nat) (b : List Byte) : List (Nat × Nat) := (chunked 8 n b).map fun e => (field e 0 4, field e 4 4)

/-- The session's key set names a digit set and no packed set: every modulus of its list serves digit ciphertexts (R48; log entry
56). -/
def State.digitOnly (s : State) (i : Nat) : Bool :=
  ((s.crown.keysets.get? (s.session i).body.ktag.toNat).map fun k => k.digitPs != 0 && k.packedPs == 0).getD false

/-- SESSION_MODLIST: the list is validated by R51, stored with its derived fields, and the body committed. -/
def execSessionModlist (f : Fin 64) (dma : HostRead) (s : State) : Host.Outcome State Fault Refusal :=
  cmdRow f 0x12 [(0, 1), (8, 8)] false true (fun s r b =>
    let i := reqSession b
    let n := pay b 0 1
    if n < 1 ∨ 128 < n then s.reply r Code.badOperand
    else if 0 < (s.session i).jobs then s.reply r Code.busy
    else
      match dma.filter fun d => d.length == 8 * n with
      | none => s.reply r Code.internal
      | some d =>
        let es := (modEntries n d).map fun e => deriveFor (s.digitOnly i) e.1 e.2
        match allSome es with
        | none => s.reply r Code.badOperand (natLe 1 (es.findIdx fun e => e.isNone))
        | some l =>
          ((s.updSession i fun x =>
            { x with modlist := l }.commit { x.body with
              mlcount := BitVec.ofNat 8 n
              mladdr := BitVec.ofNat 64 (Config.freeNat s.fresh) }).reply r Code.ok).tick) s

/-- SESSION_QUERY. -/
def execSessionQuery (f : Fin 64) (s : State) : Host.Outcome State Fault Refusal :=
  cmdRow f 0x13 [] false true (fun s r b =>
    let x := s.session (reqSession b)
    s.reply r Code.ok (x.body.bytes ++ natLe 2 x.jobs ++ zeros 2 ++ natLe 4 x.stale.toNat)) s

/-! ## Free areas -/

/-- A number rounded up to a multiple. -/
def roundUp (n align : Nat) : Nat := ceilDiv n align * align

/-- Where an area of `len` may begin in a range: behind an area in use, or at the range's start (log entry 10). -/
def freeStarts (used : List (Nat × Nat)) (lo hi align len : Nat) : List Nat :=
  ((((used.map fun x => x.1 + x.2) ++ [lo]).map fun a => roundUp a align).filter fun a =>
    decide (lo ≤ a ∧ a + len ≤ hi) && used.all fun x => decide (a + len ≤ x.1 ∨ x.1 + x.2 ≤ a)).eraseDups

/-- Module-memory areas in use: the map's 8 MiB once it has its place, buffers, LOCAL key pages. -/
def State.memUsed (s : State) : List (Nat × Nat) :=
  (if s.crown.kpmPlaced then [(s.kpmBase, 16 * kpmEntries)] else []) ++ (s.crown.buffers.flatMap fun b => [(b.2.v0, b.2.len), (b.2.v1, b.2.len)]) ++
    s.crown.keysets.flatMap fun k => k.2.areas

/-- An area of a region, by choice among those free; `more` lists areas taken beside those in use. -/
def State.areaIn (s : State) (rg : Region) (more : List (Nat × Nat)) (align len : Nat) : Option Nat :=
  s.pick (freeStarts (s.memUsed ++ more) (gib * rg.base.toNat) (gib * (rg.base.toNat + rg.len.toNat)) align len)

/-- Crown places the key page map at the first registration: a free area of a STRIPED region, 1 MiB-aligned (R147; log entry 10).
None where there is no room. -/
def State.placeMap (s : State) : Option State :=
  if s.crown.kpmPlaced then some s
  else
    let starts := (s.mem.regions.toList.filter fun r => r.valid && r.striped).flatMap fun r =>
      freeStarts s.memUsed (gib * r.base.toNat) (gib * (r.base.toNat + r.len.toNat)) (2 ^ 20) (16 * kpmEntries)
    (s.pick starts).map fun a => (s.setKpmBase fun _ => BitVec.ofNat 64 a).tick

/-! ## Key sets: the registration block (R34 to R36, R289) -/

/-- An entry of the manifest (Table 16.9), as its 128 bytes. -/
abbrev ManEntry := List Byte

/-- KIND of an entry. -/
def meKind (e : ManEntry) : Nat := field e 0 1
/-- FORM. -/
def meForm (e : ManEntry) : Nat := field e 1 1
/-- INDEX. -/
def meIndex (e : ManEntry) : Nat := field e 4 4
/-- LEN. -/
def meLen (e : ManEntry) : Nat := field e 8 8
/-- PLACE. -/
def mePlace (e : ManEntry) : Nat := field e 0x50 1
/-- ADDR. -/
def meAddr (e : ManEntry) : Nat := field e 0x58 8

/-- Payload bytes of a full page (R149). -/
def pageBytes : Nat := 1048064

/-- Pages of an object. -/
def mePages (e : ManEntry) : Nat := ceilDiv (meLen e) pageBytes

/-- The identity record is legal (Table 2.5). -/
def recordOk (b : List Byte) : Bool :=
  let d := field b 2 1
  let p := field b 3 1
  let l := field b 4 1
  let k := field b 5 1
  let dn := field b 6 1
  field b 0 2 == 2 && (d == 0 || isDigitSet d) && (p == 0 || isPackedSet p) && (d != 0 || p != 0) &&
    (if p = 0 then l == 0 && k == 0 && dn == 0
     else decide (1 ≤ l ∧ l + k ≤ packedMaxLimbs p ∧ 1 ≤ dn ∧ dn ≤ 8)) &&
    zeroAt b 7 1 && zeroAt b 0x0E 2 && zeroAt b 0x60 32

/-- A bound declared for a family that the record does not name is 0 (R44). -/
def boundsNamed (b : List Byte) : Bool :=
  (field b 2 1 != 0 || field b 8 2 == 0) && (field b 3 1 != 0 || field b 0xA 2 == 0) &&
    ((field b 2 1 != 0 && field b 3 1 != 0) || field b 0xC 2 == 0)

/-- The declared bounds lie within those of the families that the record names (R44). -/
def boundsOk (b : List Byte) : Bool :=
  let d := field b 2 1
  let p := field b 3 1
  let lv := digitLimbs d - 1
  (d == 0 || decide (field b 8 2 ≤ entryLimit d lv)) && (p == 0 || decide (field b 0xA 2 ≤ 608)) &&
    (d == 0 || p == 0 || decide (field b 0xC 2 ≤ noiseMax d lv ∧ field b 0xC 2 ≤ 608))

/-- The tag of a record (R35). -/
def tagOf (record : List Byte) : Nat := field (sha256 record) 0 4

/-- An entry's own fields are legal for a record's sets: the index is one of its kind, the set one of the record's (Tables 2.4
and 16.9). -/
def entryLegal (rcd : List Byte) (e : ManEntry) : Bool :=
  let d := field rcd 2 1
  let p := field rcd 3 1
  decide (1 ≤ meKind e ∧ meKind e ≤ 6 ∧ meForm e ≤ 1 ∧ 1 ≤ meLen e ∧ mePlace e ≤ 2) &&
    (field e 2 1 != 0 && (field e 2 1 == d || field e 2 1 == p)) &&
    (if meKind e = 5 then meIndex e % 2 == 1 && p != 0 && decide (meIndex e < 2 * 2 ^ setLogN p) else if meKind e = 6 then decide (meIndex e ≤ 1) else meIndex e == 0) &&
    (meForm e == 1 || zeroAt e 0x30 32) && zeroAt e 0x56 2 && zeroAt e 0x60 32

/-- What an entry names exists, and its address is aligned (Table 16.9). -/
def State.entryPlaced (s : State) (e : ManEntry) : Bool :=
  if mePlace e = 0 then ((s.mem.regions.toList[field e 0x51 1]?).map (·.valid)).getD false
  else meAddr e % 2 ^ 20 == 0 &&
    (mePlace e == 1 || (decide (field e 0x52 2 < 1024) && !(s.routes (BitVec.ofNat 10 (field e 0x52 2))).isEmpty))

/-- Entries name each object once, and at most 512 rotation keys (R33). -/
def entriesDistinct (es : List ManEntry) : Bool :=
  decide ((es.map fun e => (meKind e, meIndex e)).eraseDups.length = es.length) &&
    decide ((es.filter fun e => meKind e == 5).length ≤ 512)

/-- The manifest digest's input: KIND, INDEX, LEN and SHA of each entry (R289). -/
def manifestBytes (es : List ManEntry) : List Byte :=
  es.flatMap fun e => slice e 0 1 ++ slice e 4 4 ++ slice e 8 8 ++ slice e 0x10 32

/-- The entries of a registration block. -/
def blockEntries (b : List Byte) : List ManEntry := chunked 128 (field b 128 4) (b.drop 144)

/-- The block itself is legal. -/
def blockOk (b : List Byte) : Bool :=
  let n := field b 128 4
  decide (1 ≤ n ∧ n ≤ 1024) && b.length == 144 + 128 * n && zeroAt b 132 12 && recordOk (b.take 128) && boundsNamed (b.take 128)

/-- The failure of a block before any object is placed (R35, R36, R44, R289), in the order of R45. -/
def State.blockErr (s : State) (b : List Byte) : Option Byte :=
  let es := blockEntries b
  firstFault [(!blockOk b, Code.badOperand),
    (tagOf (b.take 128) == 0 || !es.all (entryLegal (b.take 128)) || !entriesDistinct es || !es.all s.entryPlaced,
      Code.badOperand),
    ((s.crown.keysets.get? (tagOf (b.take 128))).isSome, Code.keyTagMismatch),
    (!boundsOk (b.take 128), Code.noiseBudget)]

/-! ## Key sets: placing the objects (R147 to R149) -/

/-- Map entries in use. -/
def State.mapUsed (s : State) : List (Nat × Nat) := s.crown.keysets.flatMap fun k => k.2.dir.map fun d => (d.first, d.pages)

/-- Where an object goes: its entry, its first map entry, and the area of a copied one. -/
structure Placed where
  entry : ManEntry
  first : Nat
  area : Option Nat
  deriving DecidableEq, Repr

/-- Place the objects in entry order; none where map entries or room run out. -/
def State.placeObjs (s : State) : List ManEntry → List Placed → Option (State × List Placed)
  | [], acc => some (s, acc)
  | e :: es, acc =>
    let n := mePages e
    match s.pick (freeStarts (s.mapUsed ++ acc.map fun x => (x.first, mePages x.entry)) 0 kpmEntries 1 n) with
    | none => none
    | some m =>
      if mePlace e = 0 then
        let taken := acc.filterMap fun x => x.area.map fun a => (a, 2 ^ 20 * mePages x.entry)
        let rg := s.mem.regions.toList.getD (field e 0x51 1) Region.none
        match s.areaIn rg taken (2 ^ 20) (2 ^ 20 * n) with
        | none => none
        | some a => State.placeObjs s.tick es (acc ++ [⟨e, m, some a⟩])
      else State.placeObjs s.tick es (acc ++ [⟨e, m, none⟩])

/-- The descriptor of a placed object (Table 9.2). -/
def Placed.desc (x : Placed) : ObjDesc :=
  ⟨meKind x.entry, meForm x.entry, field x.entry 2 1, field x.entry 3 1, meIndex x.entry, x.first, mePages x.entry⟩

/-- A page header (Table 9.3). -/
def pageHeader (tag : Nat) (e : ManEntry) (p : Nat) : List Byte :=
  let b := natLe 4 tag ++ slice e 0 3 ++ zeros 1 ++ slice e 4 4 ++ natLe 4 p ++ natLe 8 (pageBytes * p) ++
    natLe 4 (min pageBytes (meLen e - pageBytes * p)) ++ slice e 0x30 32
  b ++ natLe 4 (crc32c b)

/-- The map entry of page `p` of a placed object (Table 9.1). -/
def Placed.mapEntry (x : Placed) (tag : Nat) (f : Fin 64) (p : Nat) : KpmEntry :=
  let place := mePlace x.entry
  { valid := true
    loc := if place = 0 then 0 else if place = 1 then 2 else 1
    peer := if place = 2 then BitVec.ofNat 10 (field x.entry 0x52 2) else 0
    paddr := (match x.area with | some a => a | none => meAddr x.entry) + 2 ^ 20 * p
    ktag := BitVec.ofNat 32 tag
    func := if place = 1 then BitVec.ofNat 6 f.val else 0 }

/-- Write one page: a copied one with its header and payload; its map entry always, as a whole unit (R203). -/
def State.writePage (s : State) (tag : Nat) (f : Fin 64) (x : Placed) (obj : List Byte) (p : Nat) : State :=
  let s1 := match x.area with
    | some a =>
      (s.memPut (a + 2 ^ 20 * p) (pageHeader tag x.entry p)).memPut (a + 2 ^ 20 * p + 512)
        (padTo (roundUp (min pageBytes (meLen x.entry - pageBytes * p)) 64) (slice obj (pageBytes * p) pageBytes))
    | none => s
  s1.crownPut (s.kpmBase + 16 * (x.first + p)) (x.mapEntry tag f p).bytes

/-- Write an object's pages. -/
def State.writeObj (s : State) (tag : Nat) (f : Fin 64) (x : Placed × List Byte) : State :=
  (List.range (mePages x.1.entry)).foldl (fun s p => s.writePage tag f x.1 x.2 p)
    (s.invalidate x.1.first (mePages x.1.entry))

/-- The order of a directory: KIND, then INDEX (R148). -/
def descLe (a b : ObjDesc) : Bool := decide (a.kind < b.kind) || (a.kind == b.kind && decide (a.index ≤ b.index))

/-- The key set that a registration commits. -/
def keySetOf (ses : Nat) (record : List Byte) (ps : List Placed) : KeySet :=
  KsBody.fresh
    { ses := ses
      record := record
      state := .registered
      dir := (ps.map Placed.desc).mergeSort descLe
      areas := ps.filterMap fun x => x.area.map fun a => (a, 2 ^ 20 * mePages x.entry) }

/-- Objects whose stored form is not what their entry says (R289 step 1). -/
def objsMatch (es : List ManEntry) (objs : List (List Byte)) : Bool :=
  (es.zip objs).all fun x => x.2.length == meLen x.1 && sha256 x.2 == slice x.1 0x10 32

/-- The status of the first object that could not be read: INTERNAL from the host (R286); BAD_OPERAND from a peer, whose export does
not exist or does not hold the object (R289; log entry 53). -/
def objFail (es : List ManEntry) (objs : List HostRead) : Byte :=
  match (es.zip objs).find? fun x => x.2.isNone with
  | some x => if mePlace x.1 = 2 then Code.badOperand else Code.internal
  | none => Code.internal

/-- A registration block is processed: its completion's status and, when it is committed, the tag (R289). -/
def State.register (s : State) (r : ReqRef) (ses : Nat) (b : List Byte) (objs : List HostRead) : State :=
  let es := blockEntries b
  let tag := tagOf (b.take 128)
  match s.blockErr b with
  | some c => s.complete r c
  | none =>
    match s.placeMap.bind fun s => s.placeObjs es [] with
    | none => s.complete r Code.busy
    | some (s1, ps) =>
      match allSome ((List.range es.length).map fun i => objs.getD i none) with
      | none => s1.complete r (objFail es ((List.range es.length).map fun i => objs.getD i none))
      | some os =>
        if !objsMatch es os || sha256 (manifestBytes es) != slice b 0x40 32 then s1.complete r Code.badOperand
        else
          let s2 := (ps.zip os).foldl (fun s x => s.writeObj tag r.f x) s1
          { s2 with crown := { s2.crown with
            keysets := s2.crown.keysets.put tag (keySetOf ses (b.take 128) ps) } }.complete r Code.ok (natLe 4 tag)

/-- KEYSET_REGISTER: accepted, and completed once the block has been read and processed. -/
def execKeysetRegister (f : Fin 64) (dma : HostRead) (objs : List HostRead) (s : State) : Host.Outcome State Fault Refusal :=
  cmdRow f 0x20 [(0, 8), (8, 4)] false true (fun s r b =>
    let s1 := s.reply r Code.accepted
    match dma.filter fun d => d.length == pay b 8 4 with
    | none => s1.complete r Code.internal
    | some d => s1.register r (reqSession b) d objs) s

/-! ## Key sets: verify, activate, retire (R37, R38, R290) -/

/-- The key set that a command names: one of its session. -/
def State.keySetNamed (s : State) (b : List Byte) : Option KeySet :=
  (s.crown.keysets.get? (pay b 0 4)).filter fun k => k.ses == reqSession b

/-- KEYSET_VERIFY: the bundle's key is the record's OWNER, and Mortar verifies the record. -/
def execKeysetVerify (f : Fin 64) (dma : HostRead) (s : State) : Host.Outcome State Fault Refusal :=
  cmdRow f 0x21 [(0, 4), (8, 8), (0x10, 2)] false true (fun s r b =>
    match s.keySetNamed b with
    | none => s.reply r Code.badOperand
    | some k =>
      let s1 := s.reply r Code.accepted
      match dma.filter fun d => d.length == pay b 0x10 2 with
      | none => s1.complete r Code.internal
      | some d =>
        match (if sha256 (bundleKey d) = slice k.record 0x10 32 then bundleSlots d k.record else none) with
        | none => s1.complete r Code.badOperand
        | some sl => (s1.askVerify (some (r, BitVec.ofNat 32 (pay b 0 4))) 0 sl 128).1) s

/-- Change one key set's state, as a commit of its record (R37, R253). -/
def State.setKs (s : State) (tag : Nat) (st : KsState) : State :=
  { s with crown := { s.crown with keysets := s.crown.keysets.upd tag fun k => k.commit { k.body with state := st } } }

/-- A key set may become ACTIVE (Table 2.6); the one that is ACTIVE stays so. -/
def canActivate (k : KeySet) (policy : BitVec 16) : Bool :=
  match k.state with
  | .registered => !bitAt policy.toNat 0
  | .verified => true
  | .active => true
  | .retired => false

/-- KEYSET_ACTIVATE: the key set and the session's KTAG in one step; another ACTIVE key set is retired. -/
def execKeysetActivate (f : Fin 64) (s : State) : Host.Outcome State Fault Refusal :=
  cmdRow f 0x22 [(0, 4)] false true (fun s r b =>
    let i := reqSession b
    let tag := pay b 0 4
    let body := (s.session i).body
    match s.keySetNamed b with
    | none => s.reply r Code.badOperand
    | some k =>
      if !canActivate k body.policy then s.reply r Code.keyUnverified
      else
        let old := if body.ktag.toNat = tag then 0 else body.ktag.toNat
        let s1 := if old = 0 then s else s.setKs old .retired
        (((s1.setKs tag .active).updSession i fun x => x.commit { x.body with ktag := BitVec.ofNat 32 tag }).releaseRetired).reply
          r Code.ok (natLe 4 old)) s

/-- KEYSET_RETIRE. -/
def execKeysetRetire (f : Fin 64) (s : State) : Host.Outcome State Fault Refusal :=
  cmdRow f 0x23 [(0, 4)] false true (fun s r b =>
    let i := reqSession b
    match s.keySetNamed b with
    | none => s.reply r Code.badOperand
    | some _ =>
      let s1 := s.setKs (pay b 0 4) .retired
      let s2 := if (s.session i).body.ktag.toNat = pay b 0 4 then s1.updSession i fun x => x.commit { x.body with ktag := 0 } else s1
      s2.releaseRetired.reply r Code.ok) s

/-! ## Buffers (R259 to R262, R291) -/

/-- The buffer that a command names: one of its session. -/
def State.bufNamed (s : State) (b : List Byte) : Option Buffer :=
  (s.crown.buffers.get? (pay b 0 4)).filter fun x => x.ses == reqSession b

/-- Change one buffer record. -/
def State.updBuf (s : State) (id : Nat) (f : Buffer → Buffer) : State :=
  { s with crown := { s.crown with buffers := s.crown.buffers.upd id f } }

/-- Bytes that a function's sessions hold in buffers, both versions. -/
def State.quotaUsed (s : State) (f : Fin 64) : Nat :=
  ((s.crown.buffers.filter fun x => (s.session x.2.ses).body.func == f).map fun x => 2 * x.2.len).sum

/-- A buffer ID that is not in use: any, by choice. -/
def State.newId (s : State) (used : List Nat) (w : Nat) : Nat :=
  let n := Config.freeNat s.fresh % 2 ^ w
  if used.contains n then ((List.range (used.length + 1)).find? fun i => !used.contains i).getD 0 else n

/-- A buffer of so many bytes would take the owning function past its quota (R291). -/
def State.pastQuota (s : State) (f : Fin 64) (len : Nat) : Bool :=
  match s.crown.funcs[f].quota with
  | some q => decide (q < s.quotaUsed f + 2 * len)
  | none => false

/-- BUF_ALLOC once its fields are legal: the areas of both versions, zeroed, and a new record. -/
def State.bufAlloc (s : State) (r : ReqRef) (ses rgn len : Nat) (rg : Region) : State :=
  match (if s.pastQuota (s.session ses).body.func len then none else s.areaIn rg [] 4096 len) with
  | none => s.reply r Code.busy
  | some v0 =>
    match s.tick.areaIn rg [(v0, len)] 4096 len with
    | none => s.tick.reply r Code.busy
    | some v1 =>
      let s1 := ((s.tick.tick.memZero v0 len).memZero v1 len)
      let id := s1.newId (s.crown.buffers.map Prod.fst) 32
      let x : Buffer := ⟨ses, ⟨rgn % 16, Nat.mod_lt _ (by decide)⟩, len, v0, v1, false, 0, 0, none⟩
      ({ s1 with crown := { s1.crown with buffers := s1.crown.buffers.put id x } }.reply r Code.ok (natLe 4 id)).tick

/-- BUF_ALLOC. -/
def execBufAlloc (f : Fin 64) (s : State) : Host.Outcome State Fault Refusal :=
  cmdRow f 0x30 [(0, 1), (8, 8)] false true (fun s r b =>
    match s.mem.regions.toList[pay b 0 1]?.filter (·.valid) with
    | none => s.reply r Code.badOperand
    | some rg =>
      if pay b 8 8 % 4096 ≠ 0 ∨ pay b 8 8 = 0 then s.reply r Code.badOperand
      else s.bufAlloc r (reqSession b) (pay b 0 1) (pay b 8 8) rg) s

/-- A job that has not ended names the buffer: by a handle, or in the buffer table of one that is being admitted. -/
def State.bufInJob (s : State) (id : Nat) : Bool :=
  s.crown.jobs.any fun j => !j.2.state.ended &&
    ((j.2.handles.any fun h => h.buf == id) || (btEntries j.2.nbuf j.2.btab).any fun e => e.buf == id)

/-- BUF_FREE. -/
def execBufFree (f : Fin 64) (s : State) : Host.Outcome State Fault Refusal :=
  cmdRow f 0x31 [(0, 4)] false true (fun s r b =>
    match s.bufNamed b with
    | none => s.reply r Code.badOperand
    | some _ =>
      if s.bufInJob (pay b 0 4) || s.exported (pay b 0 4) then s.reply r Code.busy
      else { s with crown := { s.crown with buffers := s.crown.buffers.del (pay b 0 4) } }.reply r Code.ok) s

/-- BUF_COMMIT: CV flips. -/
def execBufCommit (f : Fin 64) (s : State) : Host.Outcome State Fault Refusal :=
  cmdRow f 0x32 [(0, 4)] false true (fun s r b =>
    match s.bufNamed b with
    | none => s.reply r Code.badOperand
    | some x =>
      if s.bufBusy (pay b 0 4) then s.reply r Code.busy
      else (s.updBuf (pay b 0 4) fun y => { y with cv := !y.cv }).reply r Code.ok (natLe 1 (b2n !x.cv))) s

/-- BUF_QUERY. -/
def execBufQuery (f : Fin 64) (s : State) : Host.Outcome State Fault Refusal :=
  cmdRow f 0x33 [(0, 4)] false true (fun s r b =>
    match s.bufNamed b with
    | none => s.reply r Code.badOperand
    | some x =>
      let w0 := (x.map.map Prod.snd).getD (2 ^ 64 - 1)
      let w1 := (x.map.map fun m => m.2 + x.len).getD (2 ^ 64 - 1)
      s.reply r Code.ok (natLe 1 (b2n x.cv) ++ zeros 7 ++ natLe 8 x.len ++ natLe 8 w0 ++ natLe 8 w1)) s

/-- BAR2's size of a function, in bytes (R276). -/
def State.bar2Size (s : State) (f : Fin 64) : Nat := (if f = 0 then s.bars.pf else s.bars.vf) * gib

/-- A mapping of both versions at an offset fits BAR2 and overlaps no other mapping of the function. -/
def State.mapOk (s : State) (f : Fin 64) (id woff len : Nat) : Bool :=
  woff % 4096 == 0 && decide (woff + 2 * len ≤ s.bar2Size f) &&
    s.crown.buffers.all fun x =>
      x.1 == id || ((x.2.map.map fun m => m.1 != f || decide (woff + 2 * len ≤ m.2 ∨ m.2 + 2 * x.2.len ≤ woff)).getD true)

/-- BUF_MAP. -/
def execBufMap (f : Fin 64) (s : State) : Host.Outcome State Fault Refusal :=
  cmdRow f 0x34 [(0, 4), (8, 8)] false true (fun s r b =>
    match s.bufNamed b with
    | none => s.reply r Code.badOperand
    | some x =>
      if s.mapOk r.f (pay b 0 4) (pay b 8 8) x.len then
        (s.updBuf (pay b 0 4) fun y => { y with map := some (r.f, pay b 8 8) }).reply r Code.ok
      else s.reply r Code.badOperand) s

/-- BUF_UNMAP. -/
def execBufUnmap (f : Fin 64) (s : State) : Host.Outcome State Fault Refusal :=
  cmdRow f 0x35 [(0, 4)] false true (fun s r b =>
    match s.bufNamed b with
    | none => s.reply r Code.badOperand
    | some _ => (s.updBuf (pay b 0 4) fun y => { y with map := none }).reply r Code.ok) s

/-- The version that VSEL names: 0 the committed one, 1 the other. -/
def Buffer.version (x : Buffer) (vsel : Nat) : Nat := if x.cv != (vsel == 1) then x.v1 else x.v0

/-- The checks of BUF_DMA (R291). -/
def dmaOk (x : Buffer) (b : List Byte) : Bool :=
  decide (pay b 4 1 ≤ 1 ∧ pay b 5 1 ≤ 1 ∧ pay b 8 8 % 64 = 0 ∧ pay b 0x10 8 % 64 = 0 ∧ pay b 0x18 8 % 64 = 0 ∧
    pay b 8 8 + pay b 0x10 8 ≤ x.len) && !(pay b 4 1 == 0 && pay b 5 1 == 0)

/-- What the Band unit of the host path makes a transfer fault with: INTERNAL where a chunk's CRC fails and is not mended by a second
read, which only a read from the host has, ALIVE_GAP where one is missing (R322). -/
def pathFault (p : PathEvent) (isRead : Bool) : Option Byte :=
  match p with
  | .clean => none
  | .repeated => none
  | .crcFail again => if isRead && !again then none else some Code.internal
  | .gap => some Code.aliveGap

/-- A repeated chunk is dropped, and noted in the error log (R322). -/
def State.notePath (s : State) (p : PathEvent) : State :=
  if p = .repeated then s.logEvt (plainEvt clsNote Code.aliveRepeat 3 0 0xFF []) else s

/-- A transfer of an I/O-die engine faults: the engine keeps the code, the command completes with it (R196, R198). -/
def State.dmaFault (s : State) (r : ReqRef) (c : Byte) : State := ((s.ioFault c).complete r c).tick

/-- A checked transfer between the host and a buffer version by an I/O-die engine, with its completion (R198, R291). Of a transfer that
faults, what its destination holds is open (R196). -/
def State.bufDma (s : State) (r : ReqRef) (x : Buffer) (b : List Byte) (dma : HostRead) (path : PathEvent) : State :=
  let ma := x.version (pay b 5 1) + pay b 8 8
  let len := pay b 0x10 8
  let isRead := pay b 4 1 == 0
  let open' := (List.range len).map fun i => openByte s.fresh (ma + i)
  if len = 0 then s.complete r Code.ok
  else if isRead then
    match dma.filter (fun d => d.length == len), pathFault path true with
    | none, _ => (s.memPut ma open').dmaFault r Code.internal
    | some _, some c => (s.memPut ma open').dmaFault r c
    | some d, none => ((((s.notePath path).memPut ma d).ioMoved len).complete r Code.ok).tick
  else
    match s.memGet ma len, pathFault path false with
    | (s1, none), _ => (s1.toHost (.write r.f (pay b 0x18 8) open')).dmaFault r Code.memPoison
    | (s1, some _), some c => (s1.toHost (.write r.f (pay b 0x18 8) open')).dmaFault r c
    | (s1, some d), none =>
      ((((s1.notePath path).toHost (.write r.f (pay b 0x18 8) d)).ioMoved len).complete r Code.ok).tick

/-- BUF_DMA. -/
def execBufDma (f : Fin 64) (dma : HostRead × PathEvent) (s : State) : Host.Outcome State Fault Refusal :=
  cmdRow f 0x36 [(0, 4), (4, 1), (5, 1), (8, 8), (0x10, 8), (0x18, 8)] false true (fun s r b =>
    match s.bufNamed b with
    | none => s.reply r Code.badOperand
    | some x =>
      if !dmaOk x b then s.reply r Code.badOperand
      else if pay b 4 1 = 0 ∧ s.bufBusy (pay b 0 4) = true then s.reply r Code.busy
      else (s.reply r Code.accepted).bufDma r x b dma.1 dma.2) s

/-! ## Exports (R310) -/

/-- FAB_EXPORT: the committed version becomes readable by one peer. -/
def execFabExport (f : Fin 64) (s : State) : Host.Outcome State Fault Refusal :=
  cmdRow f 0x62 [(0, 4), (4, 2)] false true (fun s r b =>
    match s.bufNamed b with
    | none => s.reply r Code.badOperand
    | some _ =>
      let used := s.crown.exports.map Prod.fst
      if 1024 ≤ pay b 4 2 then s.reply r Code.badOperand
      else if 65536 ≤ used.length then s.reply r Code.busy
      else
        let h := s.newId used 16
        ({ s with crown := { s.crown with exports := s.crown.exports.put h ⟨pay b 0 4, BitVec.ofNat 10 (pay b 4 2)⟩ } }.reply r
          Code.ok (natLe 2 h)).tick) s

/-- FAB_UNEXPORT. -/
def execFabUnexport (f : Fin 64) (s : State) : Host.Outcome State Fault Refusal :=
  cmdRow f 0x63 [(0, 2)] false true (fun s r b =>
    let own := (s.crown.exports.get? (pay b 0 2)).bind fun e => (s.crown.buffers.get? e.buf).filter fun x => x.ses == reqSession b
    match own with
    | none => s.reply r Code.badOperand
    | some _ => { s with crown := { s.crown with exports := s.crown.exports.del (pay b 0 2) } }.reply r Code.ok) s

end Sys2Proof.Machine
end

