-- ==== Sys2Proof/Machine/Module.lean ====
section
/-! DEFINITION. Module.lean: DEVICE_INFO, the limits of functions, the power cap, temperatures, references, SMBus and the TAP (R287,
R288, R358 to R366, R373, R374). -/

namespace Sys2Proof.Machine

/-! ## DEVICE_INFO (R287, Table 16.8) -/

/-- An engine of a station, by its index in Table 22.4, is enabled: not quarantined, nor the station withdrawn (R385, R386). -/
def State.engineOn (s : State) (st : Fin 16) (e : Nat) : Bool :=
  !bitAt s.crown.withdrawn.toNat st.val && !bitAt s.crown.quar[st].toNat e

/-- The presented width of a Griddle, or 0. -/
def State.gridWidth (s : State) (st : Fin 16) (g : Fin 2) : Nat :=
  if s.griddleOn st g && !bitAt s.crown.withdrawn.toNat st.val then s.stations[st].griddles[g].width else 0

/-- A mask of bits from tests. -/
def maskOf (bs : List Bool) : Nat := (bs.zipIdx.map fun x => b2n x.1 * 2 ^ x.2).sum

/-- A mask with one bit for each station. -/
def stnMask (f : Fin 16 → Bool) : Nat := maskOf ((List.finRange 16).map f)

/-- Bytes 0x00 to 0x47 of the reply: the module as a whole. -/
def State.infoHead (s : State) : List Byte :=
  natLe 1 (popCount 8 s.grade.sites.toNat) ++ natLe 1 s.grade.iodies.toNat ++ natLe 1 (b2n s.grade.sPart) ++
    natLe 1 (field s.boot.header 0x11 1) ++ natLe 4 s.fwVersion ++ natLe 8 (popCount 8 s.grade.sites.toNat * (96 * gib)) ++
    ((List.finRange 16).flatMap fun st => (List.finRange 2).flatMap fun g => natLe 1 (s.gridWidth st g)) ++
    ((List.finRange 16).flatMap fun st => natLe 1 (maskOf ((List.range 8).map fun k => s.engineOn st (4 + k)))) ++
    natLe 4 (stnMask fun st => s.engineOn st 14 && s.engineOn st 15 && s.engineOn st 16) ++
    natLe 2 (stnMask fun st => s.engineOn st 2 && s.engineOn st 3) ++ natLe 2 s.fab.modid.toNat

/-- Byte s of XMASK. -/
def State.infoX (s : State) (st : Fin 16) : Nat :=
  maskOf (([12, 13, 17, 18, 19, 20, 21].map fun e => s.engineOn st e) ++ [!bitAt s.crown.withdrawn.toNat st.val])

/-- The whole reply, as the function sees it. -/
def State.info (s : State) (f : Fin 64) : List Byte :=
  let c := s.crown.funcs[f]
  s.infoHead ++ natLe 2 c.stmask.toNat ++ natLe 2 c.maxsess ++ zeros 4 ++ natLe 8 (c.quota.getD (2 ^ 64 - 1)) ++
    (List.finRange 16).flatMap fun st => natLe 1 (s.infoX st)

/-- DEVICE_INFO. -/
def execDeviceInfo (f : Fin 64) (s : State) : Host.Outcome State Fault Refusal :=
  cmdRow f 0x01 [] false false (fun s r _ =>
    s.reply r (if s.boot.cfgdef then Code.cfgDefaulted else Code.ok) (s.info r.f)) s

/-- FUNC_CONFIG (R288): FUNC is a VF. -/
def execFuncConfig (f : Fin 64) (s : State) : Host.Outcome State Fault Refusal :=
  cmdRow f 0x02 [(0, 1), (2, 2), (4, 2), (8, 8)] true false (fun s r b =>
    let g := pay b 0 1
    if g = 0 ∨ 64 ≤ g then s.reply r Code.badOperand
    else
      let c : FuncCfg := ⟨BitVec.ofNat 16 (pay b 2 2), pay b 4 2, some (pay b 8 8)⟩
      ({ s with crown := { s.crown with funcs := vupdN s.crown.funcs g fun _ => c } }).reply r Code.ok) s

/-! ## The power cap (R364) -/

/-- The cap in force for a request in watts. -/
def capInForce (w : Nat) : Nat := if w = 0 then 0 else if w < 900 then 900 else min w 65535

/-- POWER_CAP. -/
def execPowerCap (f : Fin 64) (s : State) : Host.Outcome State Fault Refusal :=
  cmdRow f 0x03 [(0, 4)] true false (fun s r b =>
    let w := capInForce (pay b 0 4)
    ({ s with power := { s.power with cap := BitVec.ofNat 16 w } }).reply r Code.ok (natLe 4 w)) s

/-- The issue fraction after a sample: 64 of 64 without a cap; with one, what the controller sets, from 1 to 64. -/
def Power.fraction (p : Power) (frac : Nat) : Nat := if p.cap = 0 then 64 else max 1 (min frac 64)

/-- Registers after a sample of the input: the average over 10 ms, the voltage, the fraction, FLOOR, the energy. -/
def Power.sample (p : Power) (watts mv10 frac : Nat) : Power :=
  let h := (watts :: p.hist).take 1000
  let f := p.fraction frac
  let e := p.joule + watts
  { p with
    hist := h
    watts := BitVec.ofNat 16 (min (h.sum / h.length) 65535)
    mv := BitVec.ofNat 16 mv10
    frac := BitVec.ofNat 7 f
    floorBit := p.cap != 0 && f == 1 && decide (p.cap.toNat < watts)
    energy := wrapAdd p.energy (e / 10 ^ 8)
    joule := e % 10 ^ 8 }

/-- POWER_CAP_SAMPLE: every 10 µs. -/
def execPowerCapSample (watts mv10 frac : Nat) (s : State) : Host.Outcome State Fault Refusal :=
  occurs s (s.boot.state != .off) fun s => { s with power := s.power.sample watts mv10 frac }

/-! ## Temperatures and the alert (R365, R373) -/

/-- DIE_TEMPERATURE_READING: the hottest junction of each die. -/
def execDieTemperatureReading (temps : List Nat) (s : State) : Host.Outcome State Fault Refusal :=
  occurs s (s.boot.state != .off) fun s =>
    let t := temps.foldl max 0
    { s with power := { s.power with tjmax := BitVec.ofNat 8 (min t 255), hotDie := decide (105 ≤ t) } }

/-- SMB_ALERT_N is asserted. -/
def Power.alert (p : Power) : Bool := p.hotDie || p.newEntry

/-- SMBUS_ALERT_RESPONSE: the read clears the condition of new entries. -/
def execSmbusAlertResponse (s : State) : Host.Outcome State Fault Refusal :=
  occurs s (s.boot.state != .off) fun s => { s with power := { s.power with newEntry := false } }

/-! ## References (R360) -/

/-- CLK_STATUS. -/
def Power.clkStatus (p : Power) : Nat :=
  p.fabLoss.toNat * 16 + b2n p.unlock * 4 + b2n p.refLoss * 2 + b2n p.lock

/-- The bits of CLK_STATUS that a loss sets. -/
def Power.lose (p : Power) (r : RefLoss) : Power :=
  match r with
  | .refclk100 => { p with refLoss := true, refclk := false, unspecified := true }
  | .pllUnlock => { p with unlock := true, lock := false, unspecified := true }
  | .fab d => { p with fabLoss := p.fabLoss ||| BitVec.ofNat 4 (2 ^ d.val) }

/-- Ports of an I/O die fall to DOWN. -/
def State.dieDown (s : State) (d : Fin 4) : State :=
  (List.finRange 14).foldl (fun s p =>
    if portDie p = d.val ∧ s.fab.ports[p].state ≠ .disabled then s.dropPort p .down else s) s

/-- REFERENCE_LOSS: the bit is set and the loss is logged; REFCLK100 and the PLL leave the module unspecified, a FAB_REFCLK only its
die's ports. -/
def execReferenceLoss (ref : RefLoss) (s : State) : Host.Outcome State Fault Refusal :=
  let there := match ref with | .fab d => bitAt s.grade.iodies.toNat d.val | _ => true
  occurs s (s.boot.state != .off && there) fun s =>
    let s1 := { s with power := s.power.lose ref }
    let s2 := (s1.logEvt (plainEvt clsModule s1.someCode 5 0xFF (match ref with | .fab d => BitVec.ofNat 8 d.val | _ => 0)
      (natLe 4 s1.power.clkStatus))).tick
    match ref with
    | .fab d => s2.dieDown d
    | _ => s2

/-! ## The TAP (R374) -/

/-- TAP_INSTRUCTION: EXTEST acts as BYPASS unless PERST_N is asserted, which the model takes to be while the ROM waits. -/
def execTapInstruction (ins : TapIns) (s : State) : Host.Outcome State Fault Refusal :=
  let x := if ins = .extest ∧ s.boot.state ≠ .rom then .bypass else ins
  .next { s with power := { s.power with tap := x } }

end Sys2Proof.Machine
end

