-- ==== Sys2Proof/Machine/Stream.lean ====
section
/-! DEFINITION. Stream.lean: the stream engines: XFER and XGATHER, descriptors, chunks, landings (R183 to R197, R244, R180, R322). -/

namespace Sys2Proof.Machine

/-! ## Descriptors (Table 11.2, Table 11.3) -/

/-- One endpoint of a descriptor. -/
structure EndPt where
  space : Nat
  off : Nat
  handle : Nat
  sel : Nat
  deriving DecidableEq, Repr

/-- KIND. -/
def dscKind (b : List Byte) : Nat := field b 0 1
/-- FENCE. -/
def dscFence (b : List Byte) : Bool := bitAt (field b 1 1) 0
/-- LEN. -/
def dscLen (b : List Byte) : Nat := field b 4 4
/-- The source endpoint. -/
def dscSrc (b : List Byte) : EndPt := ⟨field b 2 1 % 16, field b 8 8, field b 24 2, field b 26 2⟩
/-- The destination endpoint. -/
def dscDst (b : List Byte) : EndPt := ⟨field b 2 1 / 16, field b 16 8, field b 28 2, field b 30 2⟩

/-- Space codes of Table 11.3. -/
def spPantry : Nat := 0
/-- RPANTRY. -/
def spRpantry : Nat := 1
/-- MEM. -/
def spMem : Nat := 2
/-- PEER. -/
def spPeer : Nat := 3
/-- HOST. -/
def spHost : Nat := 4
/-- STREAM. -/
def spStream : Nat := 5
/-- NONE. -/
def spNone : Nat := 6

/-- Alignment of an endpoint's offset (Table 11.3). -/
def EndPt.aligned (p : EndPt) : Bool :=
  if p.space = spPantry ∨ p.space = spRpantry then p.off % 512 == 0
  else if p.space = spMem ∨ p.space = spPeer ∨ p.space = spHost then p.off % 64 == 0
  else true

/-- The job's buffer table, as bound at admission (R260). -/
def State.handleOf (s : State) (t : Station) (h : Nat) : Option Handle := (s.stnJob t).bind fun j => j.handles[h]?

/-- The range of a PANTRY or MEM endpoint lies in its window or buffer (R188). -/
def State.endIn (s : State) (t : Station) (p : EndPt) (len : Nat) : Bool :=
  if p.space = spPantry then t.inWin p.off len
  else if p.space = spMem then ((s.handleOf t p.handle).map fun h => decide (p.off + len ≤ h.len)).getD true
  else true

/-- Fields that Table 11.3 marks unused or reserved are 0. -/
def EndPt.unusedZero (p : EndPt) : Bool :=
  if p.space = spPantry then p.handle == 0 && p.sel == 0
  else if p.space = spRpantry then p.handle == 0 && decide (p.sel < 16)
  else if p.space = spMem then p.sel == 0
  else if p.space = spPeer then decide (p.sel < 1024)
  else if p.space = spHost then p.handle == 0 && p.sel == 0
  else if p.space = spStream then p.off == 0 && decide (p.sel < 1024)
  else p.off == 0 && p.handle == 0 && p.sel == 0

/-- The combinations of Table 11.4. -/
def comboOk (kind src dst : Nat) : Bool :=
  match kind with
  | 0 => [0, 1, 2, 3, 4].contains src && [0, 1, 2, 4].contains dst
  | 1 => src == spNone && [0, 1, 2, 4].contains dst
  | 2 => [0, 2].contains src && dst == spStream
  | 3 => src == spStream && [0, 2].contains dst
  | _ => false

/-- The station an RPANTRY endpoint names (R186). -/
def Station.remoteOf (t : Station) (st : Fin 16) (p : EndPt) : Option (Fin 16) :=
  (t.jobStns[p.sel % 16]?).filter fun m => m != st

/-- A handle or station index that exists; a destination buffer that the job may write (R188). -/
def State.endValid (s : State) (t : Station) (st : Fin 16) (p : EndPt) (dst : Bool) : Bool :=
  if p.space = spMem then ((s.handleOf t p.handle).map fun h => !dst || h.out).getD false
  else if p.space = spRpantry then (t.remoteOf st p).isSome
  else true

/-- Two endpoints are in the same space with the same handle and selector; streams and NONE have no range. -/
def EndPt.same (a b : EndPt) : Bool :=
  a.space == b.space && a.handle == b.handle && a.sel == b.sel && a.space != spStream && a.space != spNone

/-- The ranges of two endpoints share a byte. -/
def EndPt.hits (a : EndPt) (n : Nat) (b : EndPt) (m : Nat) : Bool := a.same b && overlaps a.off n b.off m

/-- The start checks of R188, in their order. -/
def State.dscFault (s : State) (st : Fin 16) (b : List Byte) : Option Byte :=
  let t := s.stations[st]
  let src := dscSrc b
  let dst := dscDst b
  let len := dscLen b
  firstFault [
    (!src.aligned || !dst.aligned || len % 512 != 0, Code.alignFault),
    (!s.endIn t src len || !s.endIn t dst len, Code.boundFault),
    (decide (2 ≤ field b 1 1) || field b 3 1 != 0 || !src.unusedZero || !dst.unusedZero, Code.badOperand),
    (!comboOk (dscKind b) src.space dst.space, Code.badOperand),
    (decide (len < 512 ∨ 2 ^ 24 < len), Code.badOperand),
    (!s.endValid t st src false || !s.endValid t st dst true, Code.badOperand),
    (src.hits len dst len, Code.badOperand)]

/-! ## Streams at a descriptor's start (R304, R305, R308) -/

/-- Change one slot of a session. -/
def State.updSlot (s : State) (ses slot : Nat) (f : StreamSlot → StreamSlot) : State :=
  s.updSession ses fun x => { x with slots := vupdN x.slots slot f }

/-- A slot of a session. -/
def State.slotAt (s : State) (ses slot : Nat) : StreamSlot := (s.session ses).slots.toList.getD slot StreamSlot.reset

/-- The session's key-set tag as frames carry it (Table 17.4). -/
def State.sesTag (s : State) (ses : Nat) : Nat := (s.session ses).body.ktag.toNat

/-- The endpoint that names the stream of a SEND or RECV. -/
def dscStream (b : List Byte) : EndPt := if dscKind b = 2 then dscDst b else dscSrc b

/-- What a SEND or RECV may fault with at its start: a handle above 7, another peer or station on a bound direction, the module's
own MODID; no route (R304). -/
def State.streamFault (s : State) (st : Fin 16) (b : List Byte) : Option Byte :=
  let t := s.stations[st]
  let p := dscStream b
  let x := s.slotAt t.ses.toNat p.handle
  let peer := BitVec.ofNat 10 p.sel
  let bound := if dscKind b = 2 then x.txPeer else x.rxPeer
  let stn := if dscKind b = 2 then x.txStn else x.rxStn
  firstFault [
    (decide (7 < p.handle), Code.badOperand),
    ((bound.map fun q => q != peer).getD false, Code.badOperand),
    ((stn.map fun q => q != st).getD false, Code.badOperand),
    (peer == s.fab.modid, Code.badOperand),
    ((s.routes peer).isEmpty, Code.linkLost)]

/-- The port of the receiving direction of a slot: the one it holds, or the choice by hash (R308). -/
def State.rxPortOf (s : State) (ses slot : Nat) (m : BitVec 10) : Option (Fin 14) :=
  match (s.slotAt ses slot).rxPort with
  | some q => some q
  | none => s.hashPort s.fab.modid m ses slot

/-- A frame of the receiving direction of a slot leaves by its port; nothing leaves where there is no route. -/
def State.sendRx (s : State) (ses slot : Nat) (h : FrameHdr) : State :=
  match s.rxPortOf ses slot (BitVec.ofNat 10 h.dmod) with
  | some q => s.sendBy q h []
  | none => s

/-- Every byte of the frames up to and with this one has landed: no chunk of its descriptor below its end holds a tag (R306). -/
def State.ackReady (s : State) (st : Fin 16) (a : AckDue) : Bool :=
  s.stations[st].ses4[a.e].chunks.all fun c => !(c.xid == a.xid && c.idx == a.idx && decide (c.off < a.upto))

/-- The ACK of a frame to its sender. -/
def State.ackOf (s : State) (st : Fin 16) (ses slot : Nat) (a : AckDue) : FrameHdr where
  ftype := 3
  dmod := a.smod.toNat
  ktag := s.sesTag ses
  dses := a.sses.toNat
  depoch := a.sepoch.toNat
  sses := ses
  sepoch := s.stations[st].epoch.toNat
  dstn := a.sstn.val
  sstn := st.val
  slot := slot
  seq := a.seq.toNat

/-- The ACKs of a slot that have come due are sent, in the order of their frames (R306). -/
def State.settleAcks (s : State) (st : Fin 16) (ses slot : Nat) : State :=
  let due := (s.slotAt ses slot).acks.takeWhile (s.ackReady st)
  due.foldl (fun s a => s.sendRx ses slot (s.ackOf st ses slot a))
    (s.updSlot ses slot fun x => { x with acks := x.acks.drop due.length })

/-- A SEND binds its direction, and a port; a RECV binds its direction and grants credit for its bytes (R304, R305, R308). -/
def State.streamStart (s : State) (st : Fin 16) (e : Fin 4) (xid idx : Nat) (b : List Byte) : State :=
  let t := s.stations[st]
  let p := dscStream b
  let ses := t.ses.toNat
  let peer := BitVec.ofNat 10 p.sel
  if dscKind b = 2 then
    let port := match (s.slotAt ses p.handle).txPort with
      | some q => some q
      | none => s.hashPort s.fab.modid peer ses p.handle
    s.updSlot ses p.handle fun x => { x with txPeer := some peer, txStn := some st, txPort := port }
  else
    let h : FrameHdr := {
      ftype := 2
      dmod := p.sel
      ktag := s.sesTag ses
      sses := ses
      sepoch := t.epoch.toNat
      sstn := st.val
      slot := p.handle
      offset := dscLen b }
    (s.updSlot ses p.handle fun x =>
      { x with
        rxPeer := some peer
        rxStn := some st
        rxPort := s.rxPortOf ses p.handle peer
        rxq := x.rxq ++ [(e, xid, idx)] }).sendRx ses p.handle h

/-! ## XFER and its list (R184, R191, R192) -/

/-- Change one stream engine. -/
def Station.updSe (t : Station) (e : Fin 4) (f : StreamEng → StreamEng) : Station := { t with ses4 := vupd t.ses4 e f }

/-- NDESC of an XFER. -/
def Station.ndesc (t : Station) (iw : BitVec 128) : Nat := t.param iw 0 16 + 1

/-- The list lies in a buffer: D0 is a BUF descriptor. -/
def Station.listInMem (t : Station) (iw : BitVec 128) : Bool := dKind (t.desc (d0Of iw)) == 4

/-- Offset of descriptor 0 in the window or buffer. -/
def Station.listOff (t : Station) (q : QEntry) : Int := if t.listInMem q.iw then (t.param q.iw 16 40 : Int) else q.ea0

/-- A row that starts an operation of a stream engine: a fault found at issue is recorded in SE_FAULT too, for descriptor 0 (R196). -/
def seRow (st : Fin 16) (e : Fin 4) (op : Nat) (plan : State → Station → QEntry → Plan) (s : State) :
    Host.Outcome State Fault Refusal :=
  occurs s (s.jobRuns s.stations[st] && (s.stations[st].issuedOp (qStream e) op).isSome) fun s =>
    match s.stations[st].issuedOp (qStream e) op with
    | some (i, q) =>
      match plan s s.stations[st] q with
      | .fault c => s.seFault st e c 0
      | p => s.startOp st (qStream e) i p
    | none => s

/-- XFER's check at issue: a list in the Pantry lies wholly in the window, 32-aligned (R171, R191, R238). -/
def planXfer (_ : State) (t : Station) (q : QEntry) : Plan :=
  let pan := !t.listInMem q.iw
  match firstFault [(pan && q.ea0 % 32 != 0, Code.alignFault),
      (pan && !t.inWin q.ea0 (32 * t.ndesc q.iw), Code.boundFault)] with
  | some c => .fault c
  | none => .go t { q with left := t.ndesc q.iw }

/-- XFER starts: its list is fetched block by block. -/
def execXfer (st : Fin 16) (e : Fin 4) (s : State) : Host.Outcome State Fault Refusal := seRow st e 0x10 planXfer s

/-- The number of descriptors that the next block yields: to the end of its 512 bytes, of the list and of the room in the
buffer of 64. -/
def fetchCount (off : Nat) (left ahead : Nat) : Nat := min (min left ((512 - off % 512) / 32)) (64 - ahead)

/-- What the next list block brings: the code of a fault, or descriptors (R191). -/
def State.listBlock (s : State) (t : Station) (e : Fin 4) (q : QEntry) : State × Except Byte (List (List Byte)) :=
  let o := t.listOff q + 32 * (q.fetched : Int)
  if o % 32 ≠ 0 then (s, .error Code.alignFault)
  else if t.listInMem q.iw then
    match s.handleOf t (fld (dAddr (t.desc (d0Of q.iw))) 0 16) with
    | none => (s, .error Code.badOperand)
    | some h =>
      let n := min (fetchCount o.toNat q.left t.ses4[e].ahead.length) ((h.len - o.toNat) / 32)
      if n = 0 then (s, .error Code.boundFault)
      else
        let r := s.memGet (h.addr + o.toNat) (32 * n)
        (r.1, match r.2 with | some b => .ok (chunked 32 n b) | none => .error Code.memPoison)
  else
    let n := fetchCount o.toNat q.left t.ses4[e].ahead.length
    (s, .ok (chunked 32 n (t.rd o.toNat (32 * n))))

/-- Descriptors up to and with the first fence (R192). -/
def toFence (l : List (List Byte)) : List (List Byte) :=
  match l.findIdx? dscFence with
  | some i => l.take (i + 1)
  | none => l

/-- The engine may fetch: no fence waits, the buffer has room, and an entry of a list that lies beyond its buffer is reached only
when every descriptor before it has started (R191). -/
def fetchReady (e : Fin 4) (s : State) (t : Station) (q : QEntry) : Bool :=
  let x := t.ses4[e]
  !x.fencing && decide (x.ahead.length < 64) &&
    (match (s.listBlock t e q).2 with | .ok _ => true | .error _ => x.ahead.isEmpty)

/-- An uncorrectable word is recorded in SE_FAULT too (R181, R196). -/
def State.eccMark (s : State) (st : Fin 16) (e : Fin 4) (ecc : EccEvent) (idx : Nat) : State :=
  match ecc with
  | .uncorrectable _ _ => s.updStn st fun t => t.updSe e fun x =>
      { x with faulted := true, code := Code.internal, desc := BitVec.ofNat 16 idx }
  | _ => s

/-- DESCRIPTOR_FETCH: a list block arrives; a fence makes the engine discard what it fetched beyond it. -/
def execDescriptorFetch (st : Fin 16) (e : Fin 4) (ecc : EccEvent) (s : State) : Host.Outcome State Fault Refusal :=
  runRow st (qStream e) [0x10] (fun s t q => fetchReady e s t q && (ecc == .clean || !t.listInMem q.iw)) (fun s t i q =>
    let r := s.listBlock t e q
    match r.2 with
    | .error c => r.1.seFault st e c q.fetched
    | .ok l =>
      let ds := toFence l
      let new := ds.zipIdx.map fun d => (⟨q.xid, q.fetched + d.2, d.1⟩ : FDesc)
      (r.1.eccMark st e ecc q.fetched).eccSeen st (17 + e.val) ecc fun s1 => s1.updStn st fun t => (t.updSe e fun x =>
        { x with ahead := x.ahead ++ new, fencing := ds.any dscFence }).updAt (qStream e) i fun q =>
          { q with fetched := q.fetched + ds.length, left := q.left - ds.length }) s

/-! ## Start (R188, R192, R193) -/

/-- The range check of R193 against one earlier descriptor that has not landed. -/
def heldBy (new old : List Byte) : Bool :=
  let n := dscLen new
  let m := dscLen old
  (dscSrc new).hits n (dscDst old) m || (dscDst new).hits n (dscDst old) m || (dscDst new).hits n (dscSrc old) m

/-- The descriptor that can start: the oldest fetched, a fence when every earlier one has landed, any other when the range check
clears it. -/
def StreamEng.startable (x : StreamEng) : Option FDesc :=
  x.ahead.head?.filter fun d =>
    if dscFence d.bytes then x.run.isEmpty else x.run.all fun r => !heldBy d.bytes r.bytes

/-- DESCRIPTOR_START: the checks of R188, then those of its stream; the descriptor runs. -/
def execDescriptorStart (st : Fin 16) (e : Fin 4) (s : State) : Host.Outcome State Fault Refusal :=
  occurs s (s.jobRuns s.stations[st] && s.stations[st].ses4[e].startable.isSome) fun s =>
    match s.stations[st].ses4[e].startable with
    | none => s
    | some d =>
      let isStream := dscKind d.bytes == 2 || dscKind d.bytes == 3
      match (s.dscFault st d.bytes).orElse fun _ => if isStream then s.streamFault st d.bytes else none with
      | some c => if c = Code.linkLost then s.seLogged st e c d.idx else s.seFault st e c d.idx
      | none =>
        let s1 := s.updStn st fun t => { t.updSe e fun x =>
          { x with
            ahead := x.ahead.tail
            run := x.run ++ [⟨d.xid, d.idx, d.bytes, 0, 0, 0⟩]
            fencing := if dscFence d.bytes then false else x.fencing } with
          queues := vupd t.queues (qStream e) fun l => l.map fun q =>
            if q.xid = d.xid ∧ opOf q.iw = 0x10 then { q with started := q.started + 1 } else q }
        if isStream then s1.streamStart st e d.xid d.idx d.bytes else s1

/-! ## Chunks (R189) -/

/-- A message to the job's window on another station (R180). -/
def State.post (s : State) (st dst : Fin 16) (k : NetKind) : State :=
  let t := s.stations[st]
  { s with net := s.net ++ [⟨st, dst, t.ses, s.stations[dst].epoch, t.epoch, k⟩] }

/-- Change the chunk with this name. -/
def StreamEng.updChunk (x : StreamEng) (xid idx off : Nat) (f : Chunk → Chunk) : StreamEng :=
  { x with chunks := x.chunks.map fun c => if c.xid = xid ∧ c.idx = idx ∧ c.off = off then f c else c }

/-- The chunk with this name. -/
def StreamEng.chunk? (x : StreamEng) (xid idx off : Nat) : Option Chunk :=
  x.chunks.find? fun c => c.xid == xid && c.idx == idx && c.off == off

/-- The running descriptor with this name. -/
def StreamEng.run? (x : StreamEng) (xid idx : Nat) : Option RDesc := x.run.find? fun r => r.xid == xid && r.idx == idx

/-- The chunks of the same descriptor on either side of a chunk. -/
def StreamEng.before (x : StreamEng) (k : Chunk) : Option Chunk :=
  x.chunks.find? fun c => c.xid == k.xid && c.idx == k.idx && c.off + c.len == k.off
/-- The next chunk. -/
def StreamEng.after (x : StreamEng) (k : Chunk) : Option Chunk := x.chunk? k.xid k.idx (k.off + k.len)

/-- The whole rows of a Pantry destination that chunk k completes, as offset in the descriptor and bytes: a row that it shares with
the chunk before or after it is whole once the bytes of both have come, and is left to the other one where that has landed
(R167, R177). -/
def StreamEng.wholeRows (x : StreamEng) (k : Chunk) (b : List Byte) : Nat × List Byte :=
  let head := k.off % 512
  let tail := (k.off + k.len) % 512
  let front : Nat × List Byte :=
    if head = 0 then (k.off, b)
    else match (x.before k).bind (·.data) with
      | some p => (k.off - head, p.drop (p.length - head) ++ b)
      | none => (k.off + (512 - head), b.drop (512 - head))
  if tail = 0 then front
  else match (x.after k).bind (·.data) with
    | some n => (front.1, front.2 ++ n.take (512 - tail))
    | none => (front.1, front.2.take (front.2.length - tail))

/-- Chunk k can land in a Pantry: the bytes of a chunk that shares a row with it have come, or that chunk has landed. -/
def StreamEng.rowsHere (x : StreamEng) (r : RDesc) (k : Chunk) : Bool :=
  (k.off % 512 == 0 || ((x.before k).map fun c => c.data.isSome).getD true) &&
    ((k.off + k.len) % 512 == 0 || ((x.after k).map fun c => c.data.isSome).getD (decide (k.off + k.len < r.issued)))

/-- A chunk's bytes have been read: they are kept, and the whole rows that they complete leave for a remote Pantry (R180). -/
def State.gotData (s : State) (st : Fin 16) (e : Fin 4) (xid idx off : Nat) (bytes : List Byte) : State :=
  let t := s.stations[st]
  match t.ses4[e].chunk? xid idx off, t.ses4[e].run? xid idx with
  | some k, some r =>
    let s1 := s.updStn st fun t => t.updSe e fun x => x.updChunk xid idx off fun c => { c with data := some bytes }
    let d := dscDst r.bytes
    let w := t.ses4[e].wholeRows k bytes
    if d.space = spRpantry ∧ w.2 ≠ [] then
      match t.remoteOf st d with
      | some m => s1.post st m (.paWrite e xid idx w.1 (d.off + w.1) w.2)
      | none => s1
    else s1
  | _, _ => s

/-- A remote station has accepted n bytes of a descriptor from an offset on: each chunk counts those that are its own. -/
def StreamEng.accepted (x : StreamEng) (xid idx off n : Nat) : StreamEng :=
  { x with chunks := x.chunks.map fun c =>
    if c.xid = xid ∧ c.idx = idx then { c with taken := c.taken + (min (c.off + c.len) (off + n) - max c.off off) } else c }

/-- The descriptor whose next chunk issues: the first with bytes left; a RECV is filled by DATA frames (R305, R306). -/
def StreamEng.issuing (x : StreamEng) : Option RDesc :=
  if x.chunks.length < 192 then x.run.find? fun r => dscKind r.bytes != 3 && decide (r.issued < dscLen r.bytes) else none

/-- The length of the next chunk: to the next 4 KiB boundary of the source offset, of the destination offset for ZERO (R189). -/
def RDesc.chunkLen (r : RDesc) : Nat :=
  let base := (if dscKind r.bytes = 1 then dscDst r.bytes else dscSrc r.bytes).off + r.issued
  min (4096 - base % 4096) (dscLen r.bytes - r.issued)

/-- The chunks of a descriptor stay on the station: they leave the engine when they land. -/
def RDesc.lands (r : RDesc) : Bool := (dscDst r.bytes).space == spPantry || (dscDst r.bytes).space == spMem

/-- What the Pantry's code found in a chunk's bytes is told before they leave the engine: at the landing where they land on the
station or in module memory, and at the issue where they go on to another place. -/
def RDesc.eccFits (r : RDesc) (land : Bool) (ecc : EccEvent) : Bool :=
  ecc == .clean || ((dscSrc r.bytes).space == spPantry && (r.lands == land))

/-- The next chunk of a descriptor takes a tag and its read issues: a local source answers in the step, a remote Pantry and a peer
are asked, and a HOST source answers by HOST_DMA_CHUNK. -/
def State.chunkRead (s : State) (st : Fin 16) (e : Fin 4) (r : RDesc) : State :=
  let t := s.stations[st]
  let n := r.chunkLen
  let off := r.issued
  let src := dscSrc r.bytes
  let s1 := s.updStn st fun t => t.updSe e fun x =>
    { x with
      chunks := x.chunks ++ [⟨r.xid, r.idx, off, n, none, 0, false⟩]
      run := x.run.map fun y => if y.xid = r.xid ∧ y.idx = r.idx then { y with issued := off + n } else y }
  if src.space = spPantry then s1.gotData st e r.xid r.idx off (t.rd (src.off + off) n)
  else if src.space = spNone then s1.gotData st e r.xid r.idx off (zeros n)
  else if src.space = spMem then
    match s.handleOf t src.handle with
    | none => s1
    | some h =>
      let m := s1.memGet (h.addr + src.off + off) n
      match m.2 with
      | some b => m.1.gotData st e r.xid r.idx off b
      | none => m.1.seFault st e Code.memPoison r.idx
  else if src.space = spRpantry then
    match t.remoteOf st src with
    | some m => s1.post st m (.paRead e r.xid r.idx off (src.off + off) n)
    | none => s1
  else if src.space = spPeer then
    match s.pick (s.routes (BitVec.ofNat 10 src.sel)) with
    | none => s1.seLogged st e Code.linkLost r.idx
    | some p =>
      let tag := s.fab.nextTag
      let rd : PeerRead := ⟨tag, st, e, r.xid, r.idx, off, n, p⟩
      let s2 : State := { s1 with fab := { s1.fab with nextTag := tag + 1, reads := s1.fab.reads ++ [rd] } }
      let h : FrameHdr := {
        ftype := 5
        dmod := src.sel
        ktag := s.sesTag t.ses.toNat
        sses := t.ses.toNat
        sepoch := t.epoch.toNat
        sstn := st.val
        seq := tag.toNat
        len := n
        offset := src.off + off
        expo := src.handle }
      (s2.sendBy p h []).tick
  else s1

/-- CHUNK_ISSUE: the chunk takes a tag and its read issues. -/
def execChunkIssue (st : Fin 16) (x : Fin 4 × EccEvent) (s : State) : Host.Outcome State Fault Refusal :=
  occurs s (s.jobRuns s.stations[st] && (s.stations[st].ses4[x.1].issuing.map fun r => r.eccFits false x.2).getD false) fun s0 =>
    match s0.stations[st].ses4[x.1].issuing with
    | none => s0
    | some r => (s0.eccMark st x.1 x.2 r.idx).eccSeen st (17 + x.1.val) x.2 fun s => s.chunkRead st x.1 r

/-- So many bytes of a descriptor have landed: a descriptor that has landed whole leaves, and its XFER counts it. -/
def Station.landBytes (t : Station) (e : Fin 4) (xid idx n : Nat) : Station :=
  match t.ses4[e].run? xid idx with
  | none => t
  | some r =>
    let done := decide (dscLen r.bytes ≤ r.landed + n)
    let t1 := t.updSe e fun x =>
      { x with
        bytes := wrapAdd x.bytes n
        run := if done then x.run.filter fun y => !(y.xid == xid && y.idx == idx)
          else x.run.map fun y => if y.xid = xid ∧ y.idx = idx then { y with landed := y.landed + n } else y }
    if done then
      { t1 with queues := vupd t1.queues (qStream e) fun l => l.map fun q =>
        if q.xid = xid ∧ opOf q.iw = 0x10 then { q with landed := q.landed + 1 } else q }
    else t1

/-- The chunk in place c, when its bytes are there and, at a remote destination, accepted (Table 11.5). -/
def StreamEng.landable (x : StreamEng) (c : Nat) : Option (Chunk × RDesc × List Byte) :=
  (x.chunks[c]?).bind fun k => (x.run? k.xid k.idx).bind fun r => k.data.bind fun b =>
    let d := (dscDst r.bytes).space
    if (d = spPantry ∧ x.rowsHere r k = true) ∨ d = spMem ∨ ((d = spRpantry ∨ d = spHost) ∧ k.taken = k.len) then some (k, r, b)
    else none

/-- The write of a chunk at a local destination: whole rows of a Pantry, whole units of module memory (R167, R203). -/
def State.chunkWrite (s : State) (st : Fin 16) (e : Fin 4) (r : RDesc) (k : Chunk) (b : List Byte) : State :=
  let d := dscDst r.bytes
  if d.space = spPantry then
    let w := s.stations[st].ses4[e].wholeRows k b
    s.updStn st fun t => t.wr (d.off + w.1) w.2
  else if d.space = spMem then
    match s.handleOf s.stations[st] d.handle with
    | some h => s.memPut (h.addr + d.off + k.off) b
    | none => s
  else s

/-- CHUNK_LAND: a chunk's write lands and its tag is released; bytes of a RECV may make an ACK due (R189, R193, R306). -/
def execChunkLand (st : Fin 16) (e : Fin 4) (c : Nat) (ecc : EccEvent) (s : State) : Host.Outcome State Fault Refusal :=
  occurs s (s.jobRuns s.stations[st] &&
      ((s.stations[st].ses4[e].landable c).map fun x => x.2.1.eccFits true ecc).getD false) fun s0 =>
    match s0.stations[st].ses4[e].landable c with
    | none => s0
    | some (k, r, b) => (s0.eccMark st e ecc r.idx).eccSeen st (17 + e.val) ecc fun s =>
      let s1 := (s.chunkWrite st e r k b).updStn st fun t =>
        (t.updSe e fun x => { x with chunks := x.chunks.eraseIdx c }).landBytes e k.xid k.idx k.len
      if dscKind r.bytes = 3 then s1.settleAcks st s.stations[st].ses.toNat (dscSrc r.bytes).handle else s1

/-- The head of the engine's queue has ended: every descriptor of an XFER has landed, every row of an XGATHER is written. -/
def Station.xferEnded (t : Station) (e : Fin 4) : Option QEntry :=
  t.queues[qStream e].head?.filter fun q =>
    q.phase == .running && q.left == 0 &&
      (opOf q.iw == 0x11 || (opOf q.iw == 0x10 && q.landed == t.ndesc q.iw))

/-- XFER_SIGNAL: signals of one engine are raised in issue order (R194). -/
def execXferSignal (st : Fin 16) (e : Fin 4) (s : State) : Host.Outcome State Fault Refusal :=
  occurs s (s.jobRuns s.stations[st] && (s.stations[st].xferEnded e).isSome) fun s =>
    match s.stations[st].xferEnded e with
    | none => s
    | some q => (s.updStn st fun t => t.dropAt (qStream e) 0).raise st q.iw

/-! ## HOST chunks (R322) -/

/-- A HOST read still waits for its bytes. -/
def waitsHost (k : Chunk) (r : RDesc) : Bool := k.data.isNone && (dscSrc r.bytes).space == spHost

/-- A HOST write has its bytes and has not been placed in transmit order. -/
def hostWrite (k : Chunk) (r : RDesc) : Bool := k.data.isSome && k.taken != k.len && (dscDst r.bytes).space == spHost

/-- The chunk in place c, when it crosses the host path now. -/
def StreamEng.hostChunk (x : StreamEng) (c : Nat) : Option (Chunk × RDesc) :=
  (x.chunks[c]?).bind fun k => (x.run? k.xid k.idx).bind fun r =>
    if waitsHost k r ∨ hostWrite k r then some (k, r) else none

/-- What the sending end of the engine's host path sends for a chunk: its bytes, the CRC-32C over them and TXNEXT, and TXNEXT (R320,
R322). -/
def chunkSent (bytes : List Byte) (tx : Word) : List Byte × Word × Word :=
  (bytes, BitVec.ofNat 32 (crc32c (bytes ++ natLe 4 tx.toNat)), tx)

/-- The bytes that passed move on, into the chunk or into posted TLPs of the job's function, and both ends of the path count on. -/
def State.hostPass (s : State) (st : Fin 16) (e : Fin 4) (k : Chunk) (r : RDesc) (bytes : List Byte) : State :=
  if waitsHost k r then
    (s.updStn st fun t => t.updSe e fun x =>
      { x with bandNext := x.bandNext + 1, bandTx := x.bandTx + 1 }).gotData st e k.xid k.idx k.off bytes
  else
    let f := ((s.stnJob s.stations[st]).map (·.func)).getD 0
    let s1 := s.updStn st fun t => t.updSe e fun x =>
      { x.updChunk k.xid k.idx k.off (fun c => { c with taken := c.len }) with bandNextW := x.bandNextW + 1, bandTxW := x.bandTxW + 1 }
    { s1 with hostOut := s1.hostOut ++ [.write f ((dscDst r.bytes).off + k.off) bytes] }

/-- HOST_DMA_CHUNK: bytes, CRC and alive value as they come to the receiving end, which checks the CRC, then the alive value. A read
whose bytes do not come whole stands for an error completion (R195). A HOST write posts the chunk's own bytes: bytes that differ from
those that the sending end sent fail its CRC (log entry 51). -/
def execHostDmaChunk (st : Fin 16) (e : Fin 4) (c : Nat) (bytes : List Byte) (crc alive : Word) (s : State) :
    Host.Outcome State Fault Refusal :=
  occurs s (s.jobRuns s.stations[st] && (s.stations[st].ses4[e].hostChunk c).isSome) fun s =>
    match s.stations[st].ses4[e].hostChunk c with
    | none => s
    | some (k, r) =>
      let rd := waitsHost k r
      let x := s.stations[st].ses4[e]
      if bytes.length ≠ k.len then s.seLogged st e Code.internal r.idx
      else if crc32c (bytes ++ natLe 4 alive.toNat) ≠ crc.toNat ∨ (rd = false ∧ k.data ≠ some bytes) then
        if rd && !k.retried then s.updStn st fun t => t.updSe e fun x =>
          x.updChunk k.xid k.idx k.off fun c => { c with retried := true }
        else s.seLogged st e Code.internal r.idx
      else
        match aliveClass 32 (if rd then x.bandNext else x.bandNextW).toNat alive.toNat with
        | .pass => s.hostPass st e k r bytes
        | .rep =>
          let ev := s.jobEvt st (17 + e.val) Code.aliveRepeat []
          s.logEvt { ev with cls := clsNote }
        | .gap => s.seLogged st e Code.aliveGap r.idx

/-! ## Remote Pantry accesses (R180, R258) -/

/-- The message is a remote Pantry access. -/
def NetMsg.isAccess (m : NetMsg) : Bool :=
  match m.kind with
  | .paRead _ _ _ _ _ _ => true
  | .paWrite _ _ _ _ _ _ => true
  | _ => false

/-- The sender still is the role that sent the message. -/
def State.senderRuns (s : State) (m : NetMsg) : Bool :=
  s.stations[m.src].accepts m.ses m.back && s.jobRuns s.stations[m.src]

/-- A remote read meets an uncorrectable word: the target's Pantry counts and keeps it, the error log names the target's bank and row,
and the transfer of the reader faults INTERNAL (R181, R196). -/
def State.eccRemote (s : State) (src dst : Fin 16) (e : Fin 4) (idx : Nat) (ecc : EccEvent) (ok : State → State) : State :=
  match ecc with
  | .uncorrectable bank row =>
    let s1 := s.eccCount dst ecc
    ((s1.countInternal src (17 + e.val)).logEvt
      { s1.jobEvt src 22 Code.internal (natLe 4 (bank.toNat * 2048 + row.toNat)) with station := BitVec.ofNat 8 dst.val }).seFault src e
        Code.internal idx
  | _ => ok (s.eccCount dst ecc)

/-- REMOTE_PANTRY_ACCESS: the oldest access from one station to another arrives: it is dropped, counted and answered where the
role is another, rejected with BOUND_FAULT where it leaves the window, and served otherwise. -/
def execRemotePantryAccess (src : Fin 16) (at' : Fin 16 × EccEvent) (s : State) : Host.Outcome State Fault Refusal :=
  let dst := at'.1
  occurs s (firstWith (fun m => m.isAccess && m.src == src && m.dst == dst) s.net).isSome fun s =>
    match firstWith (fun m => m.isAccess && m.src == src && m.dst == dst) s.net with
    | none => s
    | some (i, m) =>
      let t := s.stations[dst]
      let s1 := { s with net := s.net.eraseIdx i }
      if !t.accepts m.ses m.epoch then
        { s1.updStn dst fun t => { t with staleAcc := wrapAdd t.staleAcc 1 } with net := s.net.eraseIdx i ++ [m.answer] }
      else
        match m.kind with
        | .paRead e xid idx off addr len =>
          if !t.inWin addr len then (if s.senderRuns m then s1.seFault src e Code.boundFault idx else s1)
          else if s.senderRuns m then s1.eccRemote src dst e idx at'.2 fun s2 => s2.gotData src e xid idx off (t.rd addr len)
          else s1.eccCount dst at'.2
        | .paWrite e xid idx off addr bytes =>
          if !t.inWin addr bytes.length then (if s.senderRuns m then s1.seFault src e Code.boundFault idx else s1)
          else
            let s2 := s1.updStn dst fun t => t.wr addr bytes
            if s.senderRuns m then s2.updStn src fun t => t.updSe e fun x => x.accepted xid idx off bytes.length else s2
        | _ => s

/-! ## XGATHER (R244, R210) -/

/-- NIDX. -/
def Station.nidx (t : Station) (iw : BitVec 128) : Nat := t.param iw 24 16 + 1

/-- The buffer handle that D1 names. -/
def Station.gatherHandle (t : Station) (iw : BitVec 128) : Nat := fld (dAddr (t.desc (d1Of iw))) 0 16

/-- XGATHER: its rows are checked at issue; its indices are read one by one. -/
def planXgather (s : State) (t : Station) (q : QEntry) : Plan :=
  let n := t.nidx q.iw
  match firstFault [
      (decide (q.ea0 % 512 ≠ 0 ∨ q.eaX % 512 ≠ 0), Code.alignFault),
      (!t.allIn [(q.ea0, ceilDiv n 128 * 512), (q.eaX, ceilDiv n 16 * 512)], Code.boundFault),
      ((s.handleOf t (t.gatherHandle q.iw)).isNone, Code.badOperand)] with
  | some c => .fault c
  | none => .go t { q with left := n }

/-- XGATHER. -/
def execXgather (st : Fin 16) (e : Fin 4) (s : State) : Host.Outcome State Fault Refusal :=
  seRow st e 0x11 planXgather s

/-- The range check of R193 for an XGATHER against every earlier descriptor that has not landed, started or not: its whole source
buffer and its destination rows. -/
def gatherFree (e : Fin 4) (s : State) (t : Station) (q : QEntry) : Bool :=
  let n := t.nidx q.iw
  let len := ((s.handleOf t (t.gatherHandle q.iw)).map (·.len)).getD 0
  let src : EndPt := ⟨spMem, 0, t.gatherHandle q.iw, 0⟩
  let dst : EndPt := ⟨spPantry, q.eaX.toNat, 0, 0⟩
  (t.ses4[e].run.map (·.bytes) ++ t.ses4[e].ahead.map (·.bytes)).all fun b =>
    !(src.hits len (dscDst b) (dscLen b) || dst.hits (ceilDiv n 16 * 512) (dscDst b) (dscLen b) ||
      dst.hits (ceilDiv n 16 * 512) (dscSrc b) (dscLen b))

/-- The row of indices in use: the next one is read whole where the last one is used up (R177, R244). -/
def Station.indexRow (t : Station) (q : QEntry) : List Byte :=
  if q.done % 128 = 0 then t.rd (q.ea0.toNat + 4 * q.done) 512 else q.idx

/-- SIEVE_READ: the next index's 32 bytes come; a full row, or the last, is written at XD, zero-padded (R244). -/
def execSieveRead (st : Fin 16) (e : Fin 4) (ecc : EccEvent) (s : State) : Host.Outcome State Fault Refusal :=
  runRow st (qStream e) [0x11] (fun s t q => gatherFree e s t q && (ecc == .clean || q.done % 128 == 0))
      (fun s0 t i q => (s0.eccMark st e ecc q.done).eccSeen st (17 + e.val) ecc fun s =>
    let row := t.indexRow q
    let x := leNat (slice row (4 * (q.done % 128)) 4)
    match s.handleOf t (t.gatherHandle q.iw) with
    | none => s
    | some h =>
      if h.len < 32 * x + 32 then s.seFault st e Code.boundFault q.done
      else
        let r := s.sieve (h.addr + 32 * x)
        match r.2 with
        | none => r.1.seFault st e Code.memPoison q.done
        | some b =>
          let acc := q.acc ++ b
          if acc.length = 512 ∨ q.left = 1 then
            r.1.updStn st fun t => ((t.wr (q.eaX.toNat + 512 * q.rows) (padTo 512 acc)).updSe e fun x =>
              { x with bytes := wrapAdd x.bytes 512 }).updAt (qStream e) i fun q =>
                { q.unitDone with acc := [], idx := row, rows := q.rows + 1 }
          else r.1.updStn st fun t => t.updAt (qStream e) i fun q => { q.unitDone with acc := acc, idx := row }) s

end Sys2Proof.Machine
end

