-- ==== Sys2Proof/Machine/Fabric.lean ====
section
/-! DEFINITION. Fabric.lean: ports, flits and frames as a module meets them (R296 to R315). -/

namespace Sys2Proof.Machine

/-! ## Port states (Table 17.2, R298, R299) -/

/-- The firmware runs, so ports train and frames are answered. -/
def State.fabAlive (s : State) : Bool := s.boot.state == .starting || s.boot.state == .ready || s.boot.state == .activating

/-- Capability records to a port's neighbours, or to every module of its VLAN (R312, R313). In ETHERNET mode the frame is a
broadcast on the port's VLAN and the manual gives no DMOD for it: its value is free. -/
def State.capOut (s : State) (p : Fin 14) (rc : CapRecord) : State :=
  let x := s.fab.ports[p]
  let h := fun (m : Nat) => ({ ftype := 8, dmod := m, len := (capBytes rc).length } : FrameHdr)
  if x.eth then (s.updPort p fun x => x.send (macOf p.val s.fab.modid) macAll
    (mkFrame s.fabVer s.fab.modid.toNat (h (Config.freeNat s.fresh % 1024)) (capBytes rc))).tick
  else x.peers.foldl (fun s r => s.sendBy p (h r.modid.toNat) (capBytes rc)) s

/-- Relay a neighbour's record to the other neighbours (R312). -/
def State.relayCap (s : State) (rc : CapRecord) : State :=
  (List.finRange 14).foldl (fun s p =>
    let x := s.fab.ports[p]
    if x.isUp && !x.eth && x.peers.all (fun r => r.modid != rc.modid) then s.capOut p rc else s) s

/-- Tell a new neighbour the records of the other neighbours (R312). -/
def State.capsTo (s : State) (p : Fin 14) : State :=
  let own := s.fab.ports[p].peers.map (·.modid)
  let recs := s.fab.ports.toList.flatMap fun x => if x.isUp && !x.eth then x.peers else []
  (recs.filter fun r => !own.contains r.modid).eraseDups.foldl (fun s r => s.capOut p r) s

/-- The capability flit that a port sends in CAP: a LINKCTL flit with the module's own record (R299; log entry 25). -/
def capFlit (rc : CapRecord) : Flit := ⟨2, 0, 0, false, false, capBytes rc, none, 0, 0⟩

/-- The next FSEQ that is in order: 0 after training. -/
def Port.rxNext (p : Port) : BitVec 12 := (p.rxLast.map fun x => x + 1).getD 0

/-- PORT_TRAIN: a present port with a signal trains through TRAIN and ALIGN to CAP, and sends its capability flit; an ETHERNET port
is then UP and broadcasts CAP. -/
def execPortTrain (p : Fin 14) (s : State) : Host.Outcome State Fault Refusal :=
  let st := s.fab.ports[p].state
  occurs s (s.fabAlive && s.fab.assigned && s.portPresent p && (st == .down || st == .train || st == .align)) fun s =>
    if s.fab.ports[p].eth then (s.updPort p fun x => { x with state := .up }).capOut p s.ownCap
    else s.updPort p fun x => { x with state := .cap }.emit (capFlit s.ownCap)

/-- The route table reaches a module by another neighbour: no port reaches it directly, and a neighbour relays to it (R299, R312). -/
def State.reachedByOther (s : State) (m : BitVec 10) : Bool := (s.directPorts m).isEmpty && !(s.routes m).isEmpty

/-- CAP_EXCHANGE: MISMATCH, which is logged (Table 22.3), or the link runs at the lower version with the AND of the feature words (R299). -/
def execCapExchange (p : Fin 14) (rc : CapRecord) (s : State) : Host.Outcome State Fault Refusal :=
  occurs s (s.fabAlive && s.fab.ports[p].state == .cap) fun s =>
    if rc.ver.toNat / 16 ≠ s.fabVer / 16 ∨ rc.modid = s.fab.modid ∨ s.reachedByOther rc.modid = true then
      ((s.updPort p fun x => { x with state := .mismatch, peers := [rc] }).logEvt
        (plainEvt clsUnit s.someCode 3 (BitVec.ofNat 8 p.val) 0xFF [])).tick
    else
      ((s.updPort p fun x =>
        { x with
          state := .up
          ver := BitVec.ofNat 8 (min s.fabVer rc.ver.toNat)
          feat := Config.fabFeatures s.boot.header &&& rc.feat
          peers := [rc]
          rxLast := some x.rxNext }).relayCap rc).capsTo p

/-- MISMATCH_RETRY: a port stopped by R299 trains again. -/
def execMismatchRetry (p : Fin 14) (s : State) : Host.Outcome State Fault Refusal :=
  occurs s (s.fabAlive && s.fab.ports[p].state == .mismatch) fun s => s.updPort p fun x => x.clearLink .train

/-- PORT_SIGNAL_LOSS: the port has no signal: it goes to DOWN, and its traffic is lost. -/
def execPortSignalLoss (p : Fin 14) (s : State) : Host.Outcome State Fault Refusal :=
  occurs s (s.fab.ports[p].state != .disabled && s.fab.ports[p].state != .down) fun s => s.dropPort p .down

/-! ## Flits (R300, R301) -/

/-- ACK covers a flit: the flit's number is at most ACK, modulo 4,096. -/
def flitCovered (ack : BitVec 12) (f : Flit) : Bool := decide ((ack - f.fseq).toNat < 2048)

/-- ACK and returned credits of a flit reach the sender: the replay count resets when ACK advances. -/
def Port.flitBack (p : Port) (h : Nat) : Port :=
  let rest := if bitAt h 24 then p.unacked.filter fun f => !flitCovered (BitVec.ofNat 12 (fld h 12 12)) f else p.unacked
  { p with
    unacked := rest
    tries := if rest.length < p.unacked.length then 0 else p.tries
    credits := vupdN p.credits (fld h 48 3) fun c => c + fld h 51 13 }.pump

/-- A numbered flit is taken: the payload joins its class's frame from SOF, and EOF completes it. It holds its credit until the frame
is taken, or until a new SOF discards the frame (R301). -/
def Port.flitTake (p : Port) (h : Nat) (payload : List Byte) : Port :=
  let c : Fin 8 := ⟨fld h 27 3, Nat.mod_lt _ (by decide)⟩
  let whole := if bitAt h 25 then (1, payload) else (p.part[c].1 + 1, p.part[c].2 ++ payload)
  let p1 := { p with rxLast := some (BitVec.ofNat 12 (fld h 0 12)) }
  if fld h 30 2 ≠ 1 then p1
  else
    { p1 with
      owed := vupd p.owed c fun n => if bitAt h 25 then n + p.part[c].1 else n
      part := vupd p.part c fun _ => if bitAt h 26 then (0, []) else whole
      inbox := if bitAt h 26 then p.inbox ++ [⟨c, whole.1, whole.2⟩] else p.inbox }

/-- A flit arrives: one with a bad CRC, a reserved KIND or an FSEQ out of order is discarded. -/
def Port.flitIn (p : Port) (b : List Byte) : Port :=
  let h := leNat (b.take 16)
  let kind := fld h 30 2
  if b.length ≠ 512 ∨ field b 504 8 ≠ crc64 (b.take 504) ∨ kind = 3 then p
  else if kind = 0 then p.flitBack h
  else if BitVec.ofNat 12 (fld h 0 12) ≠ p.rxNext then p
  else (p.flitTake h (slice b 16 (min (fld h 32 9) 488))).flitBack h

/-- FLIT_RECEIVE: a numbered flit taken in order is told to the neighbour. -/
def execFlitReceive (p : Fin 14) (flit : List Byte) (s : State) : Host.Outcome State Fault Refusal :=
  occurs s (s.fab.ports[p].isUp && !s.fab.ports[p].eth) fun s => s.updPort p fun x =>
    if (x.flitIn flit).rxLast = x.rxLast then x.flitIn flit else x.tell (x.flitIn flit)

/-- A replay of the unacknowledged flits is counted (FAB_LINKCNT.REPLAY). -/
def State.countReplays (s : State) (p : Fin 14) : State :=
  let old := s.fab.ports[p].replay
  (s.updPort p fun x =>
    { x with
      replay := satAdd x.replay 1
      tries := x.tries + 1
      sent := x.sent ++ x.unacked.map fun f => { f with ack := x.rxLast }.wire }).noteIf (justSat old (satAdd old 1))
    (satKey 5 p.val 0) 3 (BitVec.ofNat 8 p.val) 0xFF (0x404 + 0x40 * p.val)

/-- FLIT_REPLAY_TIMEOUT: every unacknowledged flit is sent again in order; the third time without progress the link retrains. -/
def execFlitReplayTimeout (p : Fin 14) (s : State) : Host.Outcome State Fault Refusal :=
  occurs s ((s.fab.ports[p].isUp || s.fab.ports[p].state == .cap) && !s.fab.ports[p].eth && !s.fab.ports[p].unacked.isEmpty) fun s =>
    if 2 ≤ s.fab.ports[p].tries then (s.countReplays p).retrain p else s.countReplays p

/-! ## Frames that arrive (R303, R312) -/

/-- A frame is at the port: received whole, or arriving now as an Ethernet frame. A frame of a type does not pass an earlier one
of its type that waits. -/
def Port.frameAt (x : Port) (frame : List Byte) : Bool :=
  let l := x.inbox.map (·.bytes)
  let same := fun (b : List Byte) => field (x.dev b) 1 1 == field (x.dev frame) 1 1
  x.isUp && (l.find? fun b => same b || b == frame) == (if x.eth then none else some frame) ||
    x.isUp && x.eth && (l.find? same) == some frame

/-- The frame leaves the port's buffer; the credits of its flits go back to the neighbour (R301). -/
def Port.takeFrame (x : Port) (frame : List Byte) : Port :=
  match x.inbox.find? fun r => r.bytes == frame with
  | none => x
  | some r =>
    let y := { x with inbox := x.inbox.erase r, owed := vupd x.owed r.cls fun n => n + r.flits }
    if x.eth then y else y.idle

/-- A port's frame leaves its buffer. -/
def State.takeFrame (s : State) (p : Fin 14) (frame : List Byte) : State := s.updPort p fun x => x.takeFrame frame

/-- The major version of the link: the negotiated one, the module's own in ETHERNET mode. -/
def State.portMajor (s : State) (p : Fin 14) : Nat :=
  if s.fab.ports[p].eth then s.fabVer / 16 else s.fab.ports[p].ver.toNat / 16

/-- An Ethernet frame that the port accepts: FCS, 802.1Q tag with the port's VID, its EtherType, its own address or the broadcast one,
and at most 8 KiB of payload (R313). -/
def State.ethOk (s : State) (p : Fin 14) (b : List Byte) : Bool :=
  let x := s.fab.ports[p]
  let n := b.length - 4
  decide (22 ≤ b.length) && field b n 4 == crc32 (b.take n) && (b.take 6 == macOf p.val s.fab.modid || b.take 6 == macAll) &&
    slice b 12 2 == natBe 2 0x8100 && beNat (slice b 14 2) % 4096 == x.vid.toNat && beNat (slice b 16 2) == x.etype.toNat &&
    decide ((framePayload (x.dev b)).length ≤ 8192)

/-- What arrived passes R303 as a device frame, and in ETHERNET mode as an Ethernet frame (R313, R321). -/
def State.frameGood (s : State) (p : Fin 14) (frame : List Byte) : Bool :=
  frameOk (s.portMajor p) (s.fab.ports[p].dev frame) && (!s.fab.ports[p].eth || s.ethOk p frame)

/-- A frame with HOPS 0 and its CRC computed again. -/
def relayed (b : List Byte) : List Byte :=
  let body := (splice b 2 [0]).take (b.length - 4)
  body ++ natLe 4 (crc32c body)

/-- FRAME_RELAY's effect on a device frame: forwarded with HOPS 0 by the port that the hash of its stream gives; dropped and counted with HOPS 0
or without a route (R308, R312). -/
def State.relayFrame (s : State) (p : Fin 14) (frame : List Byte) : State :=
  let h := frameHdr frame
  if frameHops frame = 0 then s.dropFrame p
  else
    match s.hashPort (BitVec.ofNat 10 (frameSmod frame)) (BitVec.ofNat 10 h.dmod) h.sses h.slot with
    | some q => s.portSend q (BitVec.ofNat 10 h.dmod) (relayed frame)
    | none => s.dropFrame p

/-- A device frame is for another module; a broadcast CAP frame of an ETHERNET port is for every module of the VLAN (R312, R313). -/
def State.foreign (s : State) (p : Fin 14) (dev : List Byte) : Bool :=
  let h := frameHdr dev
  h.dmod != s.fab.modid.toNat && !(h.ftype == 8 && s.fab.ports[p].eth)

/-- A row for a frame of one type: dropped by R303, relayed when it is for another module, or taken with its effect. -/
def frameRow (p : Fin 14) (frame : List Byte) (ftype : Nat) (ready : State → Bool) (effect : State → FrameHdr → State)
    (s : State) : Host.Outcome State Fault Refusal :=
  let dev := s.fab.ports[p].dev frame
  occurs s (s.fab.ports[p].frameAt frame && field dev 1 1 == ftype && ready s) fun s =>
    let s1 := s.takeFrame p frame
    if !s.frameGood p frame then s1.dropFrame p
    else if s.foreign p dev then s1.relayFrame p dev
    else effect s1 (frameHdr dev)

/-- A frame that needs an answer is held while a warm reset runs (R315): an Ethernet frame waits in the port's buffer, as a frame
from flits does. -/
def answerRow (p : Fin 14) (frame : List Byte) (ftype : Nat) (ready : State → Bool) (effect : State → FrameHdr → State)
    (s : State) : Host.Outcome State Fault Refusal :=
  if s.boot.state = .activating then
    occurs s (s.fab.ports[p].isUp && s.fab.ports[p].eth && field (s.fab.ports[p].dev frame) 1 1 == ftype) fun s =>
      s.updPort p fun x => { x with inbox := x.inbox ++ [⟨0, 0, frame⟩] }
  else frameRow p frame ftype ready effect s

/-- FRAME_RELAY: a frame for another module. -/
def execFrameRelay (p : Fin 14) (frame : List Byte) (s : State) : Host.Outcome State Fault Refusal :=
  let dev := s.fab.ports[p].dev frame
  frameRow p frame (field dev 1 1) (fun s => s.frameGood p frame && s.foreign p dev) (fun s _ => s) s

/-- RESERVED_FTYPE_FRAME: a frame with a reserved FTYPE, or one that is no device frame on an ETHERNET port, is dropped and counted
(R303, R313). -/
def execReservedFtypeFrame (p : Fin 14) (frame : List Byte) (s : State) : Host.Outcome State Fault Refusal :=
  let ftype := field (s.fab.ports[p].dev frame) 1 1
  occurs s (s.fab.ports[p].frameAt frame && (ftype == 0 || decide (8 < ftype) || (s.fab.ports[p].eth && !s.frameGood p frame))) fun s =>
    (s.takeFrame p frame).dropFrame p

/-- The header of an answer to a frame: destination and source change places. -/
def FrameHdr.answer (h : FrameHdr) (smod ftype : Nat) : FrameHdr where
  ftype := ftype
  dmod := smod
  ktag := h.ktag
  dses := h.sses
  depoch := h.sepoch
  sses := h.dses
  sepoch := h.depoch
  dstn := h.sstn
  sstn := h.dstn
  slot := h.slot

/-! ## Streams (R304 to R309) -/

/-- The station a frame names. -/
def FrameHdr.stn (h : FrameHdr) : Fin 16 := ⟨h.dstn % 16, Nat.mod_lt _ (by decide)⟩

/-- The comparison of R306: the role's session and epoch, and the session's KTAG. -/
def State.frameAccepted (s : State) (h : FrameHdr) : Bool :=
  s.stations[h.stn].accepts (BitVec.ofNat 14 h.dses) (BitVec.ofNat 16 h.depoch) && h.ktag == s.sesTag h.dses

/-- RXNEXT of a slot. -/
def State.rxNextOf (s : State) (ses slot : Nat) : Word := ((s.session ses).alive.toList.getD slot (0, 0)).2

/-- The chunks that n more bytes of a RECV make, cut at every 4 KiB boundary of the destination offset: offset in the descriptor, and
length (R189). -/
def RDesc.recvChunks (r : RDesc) (n : Nat) : List (Nat × Nat) :=
  let base := (dscDst r.bytes).off + r.issued
  (List.range (if n = 0 then 0 else ceilDiv (base % 4096 + n) 4096)).map fun k =>
    let lo := max base (4096 * (base / 4096 + k))
    (lo - (dscDst r.bytes).off, min (base + n) (4096 * (base / 4096 + k + 1)) - lo)

/-- The RECV that a frame of n bytes goes to: the oldest that granted credit, when it has room, and its engine a tag for each chunk
(R189, R305). -/
def State.recvFor (s : State) (h : FrameHdr) : Option (Fin 4 × RDesc) :=
  ((s.slotAt h.dses h.slot).rxq.head?).bind fun x =>
    let eng := s.stations[h.stn].ses4[x.1]
    ((eng.run? x.2.1 x.2.2).filter fun r => decide (r.issued + h.len ≤ dscLen r.bytes ∧
      eng.chunks.length + (r.recvChunks h.len).length ≤ 192)).map fun r => (x.1, r)

/-- A frame that passes waits for a RECV with room: credit sees to it that there is one. -/
def dataReady (p : Fin 14) (frame : List Byte) (s : State) : Bool :=
  let h := frameHdr (s.fab.ports[p].dev frame)
  !s.frameGood p frame || s.foreign p (s.fab.ports[p].dev frame) || !s.frameAccepted h ||
    aliveClass 32 (s.rxNextOf h.dses h.slot).toNat h.seq != .pass || (s.recvFor h).isSome

/-- Bytes of a frame enter the engine as chunks of the RECV, each with a tag, the alive counter advances, and an ACK is owed (R189,
R306). -/
def State.dataPass (s : State) (h : FrameHdr) (smod : Nat) (payload : List Byte) : State :=
  match s.recvFor h with
  | none => s
  | some (e, r) =>
    let s1 := s.updStn h.stn fun t => t.updSe e fun x =>
      { x with
        chunks := x.chunks ++ (r.recvChunks h.len).map fun c =>
          ⟨r.xid, r.idx, c.1, c.2, some (slice payload (c.1 - r.issued) c.2), 0, false⟩
        run := x.run.map fun y => if y.xid = r.xid ∧ y.idx = r.idx then { y with issued := y.issued + h.len } else y }
    let due : AckDue := ⟨BitVec.ofNat 32 h.seq, BitVec.ofNat 10 smod, BitVec.ofNat 14 h.sses, BitVec.ofNat 16 h.sepoch,
      ⟨h.sstn % 16, Nat.mod_lt _ (by decide)⟩, e, r.xid, r.idx, r.issued + h.len⟩
    let s2 := s1.updSlot h.dses h.slot fun x =>
      { x with
        acks := x.acks ++ [due]
        rxq := if dscLen r.bytes ≤ r.issued + h.len then x.rxq.tail else x.rxq }
    ((s2.updSession h.dses fun x =>
      { x with alive := vupdN x.alive h.slot fun a => (a.1, a.2 + 1) }).ioMoved h.len).settleAcks h.stn h.dses h.slot

/-- A frame that has come before is acknowledged again, unless its ACK is still owed (R306). -/
def State.ackAgain (s : State) (h : FrameHdr) (smod : Nat) : State :=
  if (s.slotAt h.dses h.slot).acks.any fun a => a.seq.toNat == h.seq then s
  else s.sendRx h.dses h.slot { h.answer smod 3 with seq := h.seq }

/-- One more in FAB_FRMCNT.REPEAT or GAP. -/
def State.countFrame (s : State) (p : Fin 14) (gap : Bool) : State :=
  let x := s.fab.ports[p]
  let old := if gap then x.gap else x.rep
  (s.updPort p fun x => if gap then { x with gap := satAdd x.gap 1 } else { x with rep := satAdd x.rep 1 }).noteIf
    (justSat old (satAdd old 1)) (satKey 6 p.val (if gap then 2 else 1)) 3 (BitVec.ofNat 8 p.val) 0xFF (0x408 + 0x40 * p.val)

/-- DATA (R306). -/
def execDataFrame (p : Fin 14) (frame : List Byte) (s : State) : Host.Outcome State Fault Refusal :=
  answerRow p frame 1 (dataReady p frame) (fun s h =>
    let dev := s.fab.ports[p].dev frame
    let smod := frameSmod dev
    if !s.frameAccepted h then
      (s.updPort p fun x => { x with stale := wrapAdd x.stale 1 }).sendRx h.dses h.slot
        { h.answer smod 4 with status := Code.roleEpochStale.toNat }
    else
      match aliveClass 32 (s.rxNextOf h.dses h.slot).toNat h.seq with
      | .pass => s.dataPass h smod (framePayload dev)
      | .rep => (s.countFrame p false).ackAgain h smod
      | .gap => s.countFrame p true) s

/-- The session in use whose key-set tag a frame carries (R36, R304). -/
def State.sessionByTag (s : State) (ktag : Nat) : Option Nat :=
  if ktag = 0 then none
  else (s.crown.sessions.find? fun x => x.2.body.state != .free && x.2.body.ktag.toNat == ktag).map Prod.fst

/-- CREDIT: the slot's destination and the bytes granted are recorded; one that matches no session is dropped and counted (R305). -/
def execCreditFrame (p : Fin 14) (frame : List Byte) (s : State) : Host.Outcome State Fault Refusal :=
  frameRow p frame 2 (fun _ => true) (fun s h =>
    match s.sessionByTag h.ktag with
    | none => s.updPort p fun x => { x with stale := wrapAdd x.stale 1 }
    | some ses => s.updSlot ses h.slot fun x =>
      { x with
        dses := BitVec.ofNat 14 h.sses
        dstn := ⟨h.sstn % 16, Nat.mod_lt _ (by decide)⟩
        depoch := BitVec.ofNat 16 h.sepoch
        credit := x.credit ++ [h.offset % 2 ^ 32] }) s

/-- An ACK covers a value and every earlier one (R306). -/
def ackCovers (ack seq : Word) : Bool := decide ((ack - seq).toNat < 2 ^ 31)

/-- Bytes of a SEND have landed at the peer: the tags of chunks that lie wholly in what has landed are released. -/
def State.sendLanded (s : State) (st : Fin 16) (f : SentFrame) : State :=
  s.updStn st fun t =>
    match t.ses4[f.e].run? f.xid f.idx with
    | none => t
    | some r => (t.updSe f.e fun x =>
        { x with chunks := x.chunks.filter fun c => !(c.xid == f.xid && c.idx == f.idx && decide (c.off + c.len ≤ r.landed + f.len)) }).landBytes
          f.e f.xid f.idx f.len

/-- ACK (R306): addressed to a stream of the sending station, and compared as R258 says. -/
def execAckFrame (p : Fin 14) (frame : List Byte) (s : State) : Host.Outcome State Fault Refusal :=
  frameRow p frame 3 (fun _ => true) (fun s h =>
    if s.frameAccepted h then
      let done := (s.slotAt h.dses h.slot).unacked.filter fun f => ackCovers (BitVec.ofNat 32 h.seq) f.seq
      done.foldl (fun s f => s.sendLanded h.stn f) (s.updSlot h.dses h.slot fun x =>
        { x with unacked := x.unacked.filter fun f => !ackCovers (BitVec.ofNat 32 h.seq) f.seq })
    else s) s

/-- STALE (R309, R258). -/
def execStaleFrame (p : Fin 14) (frame : List Byte) (s : State) : Host.Outcome State Fault Refusal :=
  frameRow p frame 4 (fun _ => true) (fun s h =>
    if s.frameAccepted h && s.jobRuns s.stations[h.stn] then
      match (s.slotAt h.dses h.slot).unacked.head? with
      | some f => (s.countStale h.dses).seFault h.stn f.e Code.roleEpochStale f.idx
      | none => (s.countStale h.dses).instrFault h.stn Code.roleEpochStale
    else s) s

/-- HOLD restarts the end-to-end time (R307), which is not modelled; the frame is taken. -/
def execHoldFrame (p : Fin 14) (frame : List Byte) (s : State) : Host.Outcome State Fault Refusal :=
  frameRow p frame 7 (fun _ => true) (fun s _ => s) s

/-! ## Sending DATA (R305 to R307) -/

/-- A SEND that is first of its slot with bytes that no frame has carried. -/
def StreamEng.sends (x : StreamEng) : List RDesc :=
  x.run.filter fun r => dscKind r.bytes == 2 && decide (r.sent < dscLen r.bytes) &&
    ((x.run.find? fun y => dscKind y.bytes == 2 && decide (y.sent < dscLen y.bytes) &&
      (dscDst y.bytes).handle == (dscDst r.bytes).handle).map fun y => (y.xid, y.idx)) == some (r.xid, r.idx)

/-- The bytes of a SEND that have been read and that no frame has carried. -/
def StreamEng.sendBytes (x : StreamEng) (r : RDesc) : List Byte :=
  let cs := x.chunks.filter fun c => c.xid == r.xid && c.idx == r.idx
  let base := (cs.head?.map (·.off)).getD r.sent
  ((cs.takeWhile fun c => c.data.isSome).flatMap fun c => c.data.getD []).drop (r.sent - base)

/-- The port and payload of the next frame of a SEND: 64 KiB, 8 KiB in ETHERNET mode, to the end of the credit or the SEND. -/
def State.frameOf (s : State) (t : Station) (x : StreamEng) (r : RDesc) : Option (Fin 14 × List Byte) :=
  let slot := s.slotAt t.ses.toNat (dscDst r.bytes).handle
  match slot.txPort, slot.credit.head? with
  | some p, some c =>
    let n := min (min (if s.fab.ports[p].eth then 8192 else 65536) c) (dscLen r.bytes - r.sent)
    let b := x.sendBytes r
    if s.fab.ports[p].isUp && decide (0 < n ∧ n ≤ b.length) then some (p, b.take n) else none
  | _, _ => none

/-- The first SEND of an engine that can send a frame now. -/
def State.sendable (s : State) (st : Fin 16) (e : Fin 4) : Option (RDesc × Fin 14 × List Byte) :=
  let t := s.stations[st]
  t.ses4[e].sends.findSome? fun r => (s.frameOf t t.ses4[e] r).map fun x => (r, x.1, x.2)

/-- Use up bytes of the oldest grant. -/
def useCredit (n : Nat) : List Nat → List Nat
  | [] => []
  | c :: t => if c ≤ n then t else (c - n) :: t

/-- SEND_DATA_FRAME: a DATA frame leaves with TXNEXT of its slot as SEQ, and is kept until it is acknowledged. -/
def execSendDataFrame (st : Fin 16) (e : Fin 4) (s : State) : Host.Outcome State Fault Refusal :=
  occurs s (s.jobRuns s.stations[st] && (s.sendable st e).isSome) fun s =>
    match s.sendable st e with
    | none => s
    | some (r, p, b) =>
      let t := s.stations[st]
      let ses := t.ses.toNat
      let d := dscDst r.bytes
      let slot := s.slotAt ses d.handle
      let seq := ((s.session ses).alive.toList.getD d.handle (0, 0)).1
      let h : FrameHdr := {
        ftype := 1
        dmod := d.sel
        ktag := s.sesTag ses
        dses := slot.dses.toNat
        depoch := slot.depoch.toNat
        sses := ses
        sepoch := t.epoch.toNat
        dstn := slot.dstn.val
        sstn := st.val
        slot := d.handle
        seq := seq.toNat
        len := b.length }
      let frame := mkFrame (s.fverTo (BitVec.ofNat 10 d.sel)) s.fab.modid.toNat h b
      let s1 := s.updSlot ses d.handle fun x =>
        { x with
          credit := useCredit b.length x.credit
          unacked := x.unacked ++ [⟨seq, frame, e, r.xid, r.idx, b.length, 1⟩] }
      let s2 := s1.updSession ses fun x => { x with alive := vupdN x.alive d.handle fun a => (a.1 + 1, a.2) }
      let s3 := s2.updStn st fun t => t.updSe e fun x =>
        { x with run := x.run.map fun y => if y.xid = r.xid ∧ y.idx = r.idx then { y with sent := y.sent + b.length } else y }
      s3.portSend p (BitVec.ofNat 10 d.sel) frame

/-- END_TO_END_RETRANSMIT: the oldest frame not acknowledged and every later one are sent again; after four attempts the SEND
faults LINK_LOST (R307). -/
def execEndToEndRetransmit (ses : Nat) (slot : Fin 8) (s : State) : Host.Outcome State Fault Refusal :=
  let x := s.slotAt ses slot.val
  occurs s (x.txStn.isSome && !x.unacked.isEmpty) fun s =>
    match x.unacked.head?, x.txStn with
    | some f, some st =>
      if 4 ≤ f.tries then s.seLogged st f.e Code.linkLost f.idx
      else
        let s1 := s.updSlot ses slot.val fun y => { y with unacked := y.unacked.map fun f => { f with tries := f.tries + 1 } }
        match x.txPort with
        | some p =>
          if s.fab.ports[p].isUp then x.unacked.foldl (fun s f => s.portSend p (x.txPeer.getD 0) f.bytes) s1 else s1
        | none => s1
    | _, _ => s

/-! ## Exports and PEER reads (R310, R311) -/

/-- The status of a READ and its data. -/
def State.readAnswer (s : State) (h : FrameHdr) (smod : Nat) : State × Byte × List Byte :=
  match s.crown.exports.get? h.expo with
  | none => (s, Code.boundFault, [])
  | some x =>
    match s.crown.buffers.get? x.buf with
    | none => (s, Code.boundFault, [])
    | some b =>
      if x.peer.toNat ≠ smod ∨ b.len < h.offset + h.len ∨ h.len < 64 ∨ 4096 < h.len then (s, Code.boundFault, [])
      else
        let r := s.memGet ((if b.cv then b.v1 else b.v0) + h.offset) h.len
        match r.2 with
        | some d => (r.1, Code.ok, d)
        | none => (r.1, Code.memPoison, [])

/-- READ. -/
def execReadFrame (p : Fin 14) (frame : List Byte) (s : State) : Host.Outcome State Fault Refusal :=
  answerRow p frame 5 (fun _ => true) (fun s h =>
    let smod := frameSmod (s.fab.ports[p].dev frame)
    let a := s.readAnswer h smod
    let g : FrameHdr := { h.answer smod 6 with status := a.2.1.toNat, seq := h.seq, len := a.2.2.length }
    (a.1.ioMoved a.2.2.length).tick.sendTo g a.2.2) s

/-- A status code of Table 0.7 as it stands; a byte that is none of them stands for some code of the table (R8, log entry 50). -/
def State.tableCode (s : State) (c : Byte) : Byte := if Code.all.contains c then c else s.someCode

/-- RDATA: it completes its chunk by tag, or is dropped and counted. -/
def execRdataFrame (p : Fin 14) (frame : List Byte) (s : State) : Host.Outcome State Fault Refusal :=
  frameRow p frame 6 (fun _ => true) (fun s h =>
    match s.fab.reads.find? fun r => r.tag.toNat == h.seq with
    | none => s.dropFrame p
    | some r =>
      let s1 := { s with fab := { s.fab with reads := s.fab.reads.filter fun x => x.tag != r.tag } }
      if !s.readOpen r then s1.dropFrame p
      else if h.status = Code.ok.toNat then
        (if h.len = r.len then s1.gotData r.stn r.e r.xid r.idx r.off (framePayload (s.fab.ports[p].dev frame)) else s1.dropFrame p)
      else s1.seFault r.stn r.e (s.tableCode (BitVec.ofNat 8 h.status)) r.idx) s

/-! ## Capability records (R312 to R315) -/

/-- CAP: the record of the module that sent the frame, or one that a neighbour relays. In ETHERNET mode the source address tells the
remote port (R313). -/
def execCapFrame (p : Fin 14) (frame : List Byte) (s : State) : Host.Outcome State Fault Refusal :=
  frameRow p frame 8 (fun _ => true) (fun s _ =>
    let x := s.fab.ports[p]
    let rc := capOfBytes (framePayload (x.dev frame))
    let smod := BitVec.ofNat 10 (frameSmod (x.dev frame))
    let pair := (smod, field frame 9 1)
    if rc.modid = s.fab.modid then s
    else if rc.modid = smod then
      if x.eth then s.updPort p fun x =>
        { x with
          peers := x.peers.filter (fun r => r.modid != smod) ++ [rc]
          pairs := x.pairs.filter (· != pair) ++ [pair] }
      else if x.peers.any fun r => r.modid == smod then
        (s.updPort p fun x =>
          { x with
            peers := [rc]
            ver := BitVec.ofNat 8 (min s.fabVer rc.ver.toNat)
            feat := Config.fabFeatures s.boot.header &&& rc.feat }).relayCap rc
      else s
    else if x.peers.any fun r => r.modid == smod then
      { s with fab := { s.fab with
        relayed := s.fab.relayed.filter (fun y => !(y.1 == smod && y.2.modid == rc.modid)) ++ [(smod, rc)] } }
    else s) s

/-- ETHERNET_CAP_BROADCAST. -/
def execEthernetCapBroadcast (p : Fin 14) (s : State) : Host.Outcome State Fault Refusal :=
  occurs s (s.fabAlive && s.fab.ports[p].isUp && s.fab.ports[p].eth) fun s => s.capOut p s.ownCap

/-- CAP on every UP port, after an activation (R315). -/
def State.announce (s : State) : State :=
  (List.finRange 14).foldl (fun s p => if s.fab.ports[p].isUp then s.capOut p s.ownCap else s) s

/-- HOLD for one frame that waits. -/
def State.holdOne (s : State) (p : Fin 14) (frame : List Byte) : State :=
  let dev := s.fab.ports[p].dev frame
  let h := frameHdr dev
  if s.frameGood p frame && (h.ftype == 1 || h.ftype == 5) && !s.foreign p dev then
    let g := { h.answer (frameSmod dev) 7 with seq := h.seq }
    if h.ftype = 1 then s.sendRx h.dses h.slot g else s.sendTo g []
  else s

/-- HOLD_TIMER: while a warm reset runs, every frame that needs an answer is answered HOLD. -/
def execHoldTimer (s : State) : Host.Outcome State Fault Refusal :=
  occurs s (s.boot.state == .activating) fun s =>
    (List.finRange 14).foldl (fun s p => s.fab.ports[p].inbox.foldl (fun s r => s.holdOne p r.bytes) s) s

/-- FRAME_HOLD_LIMIT: a frame layer held for more than 100 ms retrains every port. -/
def execFrameHoldLimit (s : State) : Host.Outcome State Fault Refusal :=
  occurs s (s.boot.state == .activating) fun s => (List.finRange 14).foldl State.retrain s

/-! ## PFC (R313) -/

/-- The frames that waited for a priority go out in order, as far as no priority holds them. -/
def Port.flush (p : Port) : Port := p.heldFrames.foldl (fun x f => x.put f.1 f.2) { p with heldFrames := [] }

/-- PFC_FRAME pauses or resumes the priorities it names. -/
def execPfcFrame (p : Fin 14) (prios : BitVec 8) (pause : Bool) (s : State) : Host.Outcome State Fault Refusal :=
  occurs s (s.fab.ports[p].isUp && s.fab.ports[p].eth) fun s => s.updPort p fun x =>
    if pause then { x with paused := x.paused ||| prios } else { x with paused := x.paused &&& ~~~prios }.flush

end Sys2Proof.Machine
end

