-- ==== Sys2Proof/Machine/Flash.lean ====
section
/-! DEFINITION. Flash.lean: fuses, boot-control records, signed images and the configuration block (R340 to R344, R349 to R351,
R201). -/

namespace Sys2Proof.Machine

/-! ## Fuses (R340) -/

/-- SVNF: the consecutive blown steps from step 0; a step is blown when either fuse of its pair is. -/
def Fuses.svnf (f : Fuses) : Nat := ((List.range 64).takeWhile fun i => bitAt f.svnA.toNat i || bitAt f.svnB.toNat i).length

/-- The steps from SVNF up to an image's SVN are blown, both fuses of each pair (R348). -/
def Fuses.blow (f : Fuses) (svn : Nat) : Fuses :=
  let m : BitVec 64 := BitVec.ofNat 64 (2 ^ svn - 2 ^ f.svnf)
  if f.svnf < svn then { f with svnA := f.svnA ||| m, svnB := f.svnB ||| m } else f

/-! ## Records in two copies (R342) -/

/-- The copy that a reader uses: of the valid ones, that with the higher SEQ; copy 1 is true. -/
def newerCopy (ok0 ok1 : Bool) (seq0 seq1 : Nat) : Option Bool :=
  if ok0 && ok1 then some (decide (seq0 < seq1)) else if ok0 then some false else if ok1 then some true else none

/-- The copy that a writer writes and the SEQ it gets: the other copy, with the higher SEQ plus one. With no valid copy it writes
copy 0 with SEQ 1 (log entry 30). -/
def nextCopy (ok0 ok1 : Bool) (seq0 seq1 : Nat) : Bool × Nat :=
  match newerCopy ok0 ok1 seq0 seq1 with
  | some c => (!c, (if c then seq1 else seq0) + 1)
  | none => (false, 1)

/-- A copy of the boot-control record is valid. -/
def bcrOk (b : List Byte) : Bool := decide (16 ≤ b.length) && field b 12 4 == crc32c (b.take 12)

/-- What the boot-control record says. -/
structure Bcr where
  active : Bool
  trial : Bool
  prev : Bool
  deriving DecidableEq, Repr

/-- The boot-control record in force: ACTIVE A and TRIAL 0 when neither copy is valid (R342). -/
def Flash.bcr (f : Flash) : Bcr :=
  match newerCopy (bcrOk f.boot0) (bcrOk f.boot1) (field f.boot0 4 4) (field f.boot1 4 4) with
  | none => ⟨false, false, false⟩
  | some c =>
    let b := if c then f.boot1 else f.boot0
    ⟨byteAt b 8 != 0, byteAt b 9 != 0, byteAt b 10 != 0⟩

/-- The bytes of a boot-control record. -/
def Bcr.bytes (x : Bcr) (seq : Nat) : List Byte :=
  let b := natLe 4 0x54424C43 ++ natLe 4 seq ++ natLe 1 (b2n x.active) ++ natLe 1 (b2n x.trial) ++ natLe 1 (b2n x.prev) ++ zeros 1
  b ++ natLe 4 (crc32c b)

/-- A new boot-control record is written. -/
def Flash.putBcr (f : Flash) (x : Bcr) : Flash :=
  let c := nextCopy (bcrOk f.boot0) (bcrOk f.boot1) (field f.boot0 4 4) (field f.boot1 4 4)
  if c.1 then { f with boot1 := x.bytes c.2 } else { f with boot0 := x.bytes c.2 }

/-- A bank: B is true. -/
def Flash.bank (f : Flash) (b : Bool) : List Byte := if b then f.bankB else f.bankA

/-- Write a bank. -/
def Flash.putBank (f : Flash) (b : Bool) (img : List Byte) : Flash :=
  if b then { f with bankB := img } else { f with bankA := img }

/-! ## Signed images (R343, R344, Table 20.3) -/

/-- The fields of component `i` of a header. -/
structure Comp where
  id : Nat
  off : Nat
  len : Nat
  sha : List Byte
  clean : Bool
  deriving DecidableEq, Repr

/-- Component `i`. -/
def compAt (img : List Byte) (i : Nat) : Comp :=
  let b := slice img (0x40 + 48 * i) 48
  ⟨field b 0 2, field b 4 4, field b 8 4, slice b 16 32, zeroAt b 2 2 && zeroAt b 12 4⟩

/-- The components of an image. -/
def compsOf (img : List Byte) : List Comp := (List.range (field img 6 2)).map (compAt img)

/-- TYPE, SVN and LEN of an image. -/
def imgType (img : List Byte) : Nat := field img 4 1
/-- SVN. -/
def imgSvn (img : List Byte) : Nat := field img 5 1
/-- LEN. -/
def imgLen (img : List Byte) : Nat := field img 0x14 4
/-- PUBKEY. -/
def imgKey (img : List Byte) : List Byte := slice img 0x18 32

/-- MAGIC, the fields' ranges and the reserved fields of an image are correct, and so are its components' IDs. -/
def imgForm (img : List Byte) : Bool :=
  decide (0x3000 ≤ img.length) && field img 0 4 == 0x4D494746 && (imgType img == 1 || imgType img == 2) &&
    decide (imgSvn img ≤ 64) && decide (1 ≤ field img 6 2 ∧ field img 6 2 ≤ 32) && zeroAt img 0x12 2 && zeroAt img 0x38 8 &&
    zeroAt img 0x640 2496 &&
    (compsOf img).all fun c => c.clean && decide (1 ≤ c.id ∧ c.id ≤ 4) && (c.id != 4 || imgType img == 2)

/-- Every component lies within LEN, and its digest matches. -/
def imgComps (img : List Byte) : Bool :=
  decide (imgLen img ≤ img.length) &&
    (compsOf img).all fun c => decide (c.off + c.len ≤ imgLen img) && sha256 (slice img c.off c.len) == c.sha

/-- The first failure of R344, as CRN_FWSTAGE.REASON codes it (log entry 30 for the order and for which code a component's
failure has). -/
def imgError (fu : Fuses) (img : List Byte) : Option Nat :=
  if !imgForm img then some 1
  else if sha256 (imgKey img) != fu.vkhash then some 2
  else if !Config.slhVerify (imgKey img) (img.take 0x1000) (slice img 0x1000 7856) then some 3
  else if imgSvn img < fu.svnf then some 4
  else if !imgComps img then some 1
  else none

/-- A bank holds a firmware image that the ROM starts. -/
def State.bankOk (s : State) (b : Bool) : Bool :=
  (imgError s.fuses (s.flash.bank b)).isNone && imgType (s.flash.bank b) == 1

/-- The bytes of a program component without its signature. -/
def progBytes (img : List Byte) (c : Comp) : List Byte := (slice img c.off c.len).take (c.len - 7856)

/-- The programs that fit the program store of 32 KiB, in their order; one that does not fit is not loaded (R326, log entry 31). -/
def fitStore (img : List Byte) : Nat → List (Nat × Comp) → List (Nat × Comp)
  | _, [] => []
  | room, p :: ps =>
    let n := (progBytes img p.2).length
    if n ≤ room then p :: fitStore img (room - n) ps else fitStore img room ps

/-- The Mortar programs of an image that pass their signature check and fit the program store, by the place of their operation in Table 19.2's order: the
k-th component with ID 3 is the program of the k-th operation (log entry 31). -/
def imgPrograms (img : List Byte) : List (Nat × Comp) :=
  fitStore img 32768 <| (((compsOf img).filter fun c => c.id == 3).take 9).zipIdx.filterMap fun x =>
    let b := slice img x.1.off x.1.len
    let n := b.length - 7856
    if 7856 < b.length ∧ Config.slhVerify (imgKey img) (b.take n) (b.drop n) = true then some (x.2, x.1) else none

/-- The contents of the program store with those programs. -/
def progStore (img : List Byte) (ps : List (Nat × Comp)) : List Byte := ps.flatMap fun p => progBytes img p.2

/-- MRT_PROG of those programs. -/
def progBits (ps : List (Nat × Comp)) : BitVec 9 := BitVec.ofNat 9 ((ps.map fun p => 2 ^ p.1).sum)

/-! ## The configuration block (R349, R350, Table 20.5) -/

/-- A copy of the block is valid. -/
def cfgOk (b : List Byte) : Bool := decide (0x2144 ≤ b.length) && field b 0x2140 4 == crc32c (b.take 0x2140)

/-- The copy in force: copy 1 is true. -/
def Flash.cfgCopy (f : Flash) : Option Bool := newerCopy (cfgOk f.cfg0) (cfgOk f.cfg1) (field f.cfg0 4 4) (field f.cfg1 4 4)

/-- The block in force; where no copy is valid, what copy 0 holds. -/
def Flash.cfgBlock (f : Flash) : List Byte :=
  padTo 0x2144 (match f.cfgCopy with | some true => f.cfg1 | _ => f.cfg0)

/-- The key of VKHASH: the PUBKEY of a bank's header that hashes to it (log entry 32). -/
def State.vendorKey (s : State) : Option (List Byte) :=
  ([s.flash.bankA, s.flash.bankB].map imgKey).find? fun k => sha256 k == s.fuses.vkhash

/-- STATIC of a block carries a good signature. -/
def State.staticOk (s : State) (b : List Byte) : Bool :=
  (s.vendorKey.map fun k => Config.slhVerify k (slice b 0x10 512) (slice b 0x210 7856)).getD false

/-- The DYNAMIC defaults: FABRIC mode, MODID unassigned, EtherType 0x88B5, VID 1, no bypass. -/
def dynDefault : List Byte := zeros 4 ++ natLe 2 0x88B5 ++ natLe 2 1 ++ zeros 120

/-- What the ROM takes from the block: CFGSRC, STATIC where it is used, and DYNAMIC (R350). -/
def State.readCfg (s : State) : Nat × Option (List Byte) × List Byte :=
  let b := s.flash.cfgBlock
  match s.flash.cfgCopy with
  | none => (2, none, dynDefault)
  | some c => if s.staticOk b then (b2n c, some (slice b 0x10 512), slice b 0x20C0 128) else (3, none, slice b 0x20C0 128)

/-- The bytes of a block. -/
def cfgBytes (seq : Nat) (stat ssig dyn : List Byte) : List Byte :=
  let b := natLe 4 0x47464E43 ++ natLe 4 seq ++ natLe 4 0x2144 ++ zeros 4 ++ padTo 512 stat ++ padTo 7856 ssig ++ padTo 128 dyn
  b ++ natLe 4 (crc32c b)

/-- A new block is written by R342. -/
def Flash.putCfg (f : Flash) (stat ssig dyn : List Byte) : Flash :=
  let c := nextCopy (cfgOk f.cfg0) (cfgOk f.cfg1) (field f.cfg0 4 4) (field f.cfg1 4 4)
  if c.1 then { f with cfg1 := cfgBytes c.2 stat ssig dyn } else { f with cfg0 := cfgBytes c.2 stat ssig dyn }

/-! ## The region table (R201, Table 12.2) -/

/-- An entry from its two registers. -/
def regionOfWords (a b : Nat) : Region :=
  ⟨bitAt a 31, bitAt a 30, ⟨fld a 28 2, Nat.mod_lt _ (by decide)⟩, BitVec.ofNat 10 (fld a 10 10), BitVec.ofNat 10 (fld a 0 10),
    BitVec.ofNat 7 (fld b 0 7)⟩

/-- REGIONS of a STATIC section. -/
def regionsOf (stat : List Byte) : List Region :=
  (List.range 16).map fun r => regionOfWords (field stat (0x10 + 8 * r) 4) (field stat (0x14 + 8 * r) 4)

/-- Slices that a region takes on each of its stacks: from, and to before. -/
def Grade.slices (g : Grade) (r : Region) : Nat × Nat := (r.sb.toNat, r.sb.toNat + r.len.toNat / (g.stackSet r).length)

/-- A valid entry on its own: LEN a multiple of S, slices within 0 to 95. -/
def Grade.regionOk (g : Grade) (r : Region) : Bool :=
  !r.valid || (!(g.stackSet r).isEmpty && decide (1 ≤ r.len.toNat ∧ r.len.toNat ≤ 768 ∧ r.base.toNat < 768) &&
    r.len.toNat % (g.stackSet r).length == 0 && decide ((g.slices r).2 ≤ 96))

/-- Two valid entries overlap in addresses, or share a slice of a stack. -/
def Grade.regionsClash (g : Grade) (x y : Region) : Bool :=
  let addr := decide (x.base.toNat < y.base.toNat + y.len.toNat ∧ y.base.toNat < x.base.toNat + x.len.toNat)
  let share := (g.stackSet x).any (g.stackSet y).contains &&
    decide ((g.slices x).1 < (g.slices y).2 ∧ (g.slices y).1 < (g.slices x).2)
  x.valid && y.valid && (addr || share)

/-- No two entries of a list clash. -/
def Grade.noClash (g : Grade) : List Region → Bool
  | [] => true
  | r :: t => t.all (fun x => !g.regionsClash r x) && Grade.noClash g t

/-- The table keeps the rules of R201. -/
def Grade.tableOk (g : Grade) (rs : List Region) : Bool := rs.all g.regionOk && g.noClash rs

/-- The default layout (Table 12.2): 48 slices STRIPED, then 48 of each die's stacks NEAR, one after another. -/
def Grade.defaultTable (g : Grade) : Vector Region 16 :=
  let len := fun (r : Region) => 48 * (g.stackSet r).length
  let shape : List Region := ⟨true, true, 0, 0, 0, 0⟩ :: (List.finRange 4).map fun d => ⟨true, false, d, 0, 0, 48⟩
  let lens := shape.map len
  Vector.ofFn fun i => match shape[i.val]? with
    | some r => { r with len := BitVec.ofNat 10 (len r), base := BitVec.ofNat 10 ((lens.take i.val).sum) }
    | none => Region.none

/-- The table in force: STATIC's where it keeps the rules, and whether it does. -/
def Grade.table (g : Grade) (stat : Option (List Byte)) : Vector Region 16 × Bool :=
  match stat with
  | none => (g.defaultTable, true)
  | some x =>
    let rs := regionsOf x
    if g.tableOk rs then (Vector.ofFn fun i => rs.getD i.val Region.none, true) else (g.defaultTable, false)

end Sys2Proof.Machine
end

