-- ==== Sys2Proof/Machine/Memory.lean ====
section
/-! DEFINITION. Memory.lean: single accesses to units, re-reads, BAR2, refresh by temperature, zeroing, margining, and the zeroing of
a window (R172, R199 to R216, R291). -/

namespace Sys2Proof.Machine

/-! ## One unit (R203, R206) -/

/-- The first byte of the unit that holds an address. -/
def unitBase (ma : Nat) : Nat := ma / 64 * 64

/-- One access to a unit at its controller. -/
def State.unitAccess (s : State) (ma : Nat) (acc : UnitAccess) : State :=
  let u := unitBase ma
  match acc with
  | .read => (s.memGet u 64).1
  | .write bytes => if bytes.length = 64 then s.memPut u bytes else s
  | .modify off bytes =>
    if 64 < off + bytes.length then s
    else if (s.poisonIn u 64).isEmpty then s.memPut (u + off) bytes
    else (s.memGet u 64).1

/-- MEM_UNIT_ACCESS: an address outside every valid region is never issued to a controller (R201): the model stops there. -/
def execMemUnitAccess (ma : Nat) (acc : UnitAccess) (s : State) : Host.Outcome State Fault Refusal :=
  if s.mem.ready && !s.power.unspecified then
    if (s.place ma).isSome then .next (s.unitAccess ma acc) else .fault .noSuchModuleAddress
  else .next s

/-- MEM_CRC_REREAD: a compare failed, and so many of the re-reads after it; with all three the unit is poisoned, and the requester
gets its answer without a second count (R206). -/
def execMemCrcReread (ma : Nat) (fails : Fin 4) (s : State) : Host.Outcome State Fault Refusal :=
  occurs s (s.mem.ready && (s.place ma).isSome) fun s =>
    match s.place ma with
    | none => s
    | some p =>
      let s1 := s.crcEvent ma p.1 fails.val
      if fails.val < 3 then s1
      else { s1 with mem := { s1.mem with
        poison := if s.mem.poison.contains (ma / 64) then s1.mem.poison else s1.mem.poison ++ [ma / 64]
        counted := if s1.mem.counted.contains (ma / 64) then s1.mem.counted else s1.mem.counted ++ [ma / 64] } }

/-! ## BAR2 (R276, R291) -/

/-- The mapping that holds a range of a function's BAR2: its buffer and the offset from V0. -/
def State.barMap (s : State) (f : Fin 64) (off len : Nat) : Option (Buffer × Nat) :=
  s.crown.buffers.findSome? fun b =>
    match b.2.map with
    | some (g, w) => if g = f ∧ w ≤ off ∧ off + len ≤ w + 2 * b.2.len then some (b.2, off - w) else none
    | none => none

/-- BAR2_ACCESS: a read is answered with data, or Unsupported Request where nothing is mapped or memory is not ready, or a
poisoned TLP; a write is made, or dropped. -/
def execBar2Access (f : Fin 64) (off len : Nat) (wr : HostRead) (s : State) : Host.Outcome State Fault Refusal :=
  occurs s s.linkUp fun s =>
    let n := match wr with | some b => b.length | none => len
    match (if s.mem.ready then s.barMap f off n else none), wr with
    | none, none => s.toHost (.cplUR f)
    | none, some _ => s
    | some (b, o), some bytes =>
      ((b.pieces o n).foldl (fun (x : State × List Byte) p => (x.1.barWrite p.1 (x.2.take p.2), x.2.drop p.2)) (s, bytes)).1
    | some (b, o), none =>
      let r := (b.pieces o n).foldl (fun (x : State × Option (List Byte)) p =>
        let y := x.1.memGet p.1 p.2
        (y.1, x.2.bind fun a => y.2.map fun c => a ++ c)) (s, some [])
      match r.2 with
      | some d => r.1.toHost (.cplData f d)
      | none => r.1.toHost (.cplPoison f)

/-! ## Refresh by temperature (R208) -/

/-- The multiplier code that a rising reading asks for (Table 12.3). -/
def refUp (t : Nat) : Nat := if 95 ≤ t then 2 else if 85 ≤ t then 1 else 0

/-- The multiplier code that a falling reading still holds: 2 °C below a threshold lets it go. -/
def refHold (t : Nat) : Nat := if 93 < t then 2 else if 83 < t then 1 else 0

/-- STACK_TEMPERATURE_READING. -/
def execStackTemperatureReading (site : Fin 8) (t : Nat) (s : State) : Host.Outcome State Fault Refusal :=
  occurs s (s.boot.state != .off && bitAt s.grade.sites.toNat site.val) fun s =>
    let s1 := s.updStack site.val fun x =>
      { x with
        temp := BitVec.ofNat 8 (min t 255)
        refmul := BitVec.ofNat 2 (max (refUp t) (min x.refmul.toNat (refHold t)))
        hot := x.hot || decide (105 < t) }
    if 105 < t then (s1.logEvt (plainEvt clsNote s1.someCode 2 (BitVec.ofNat 8 site.val) 0xFF [])).tick else s1

/-! ## Zeroing (R213) -/

/-- MEM_ZEROING_DONE: memory is ready, or a fault leaves READY at 0 and is logged; the stack of the entry is a free choice. -/
def execMemZeroingDone (ok : Bool) (s : State) : Host.Outcome State Fault Refusal :=
  occurs s (s.boot.state != .off && s.mem.zeroing) fun s =>
    let s1 := { s with mem := { s.mem with ready := ok, zeroing := false } }
    if ok then s1.tryReady
    else
      let site := (s.pick (bitsSet 8 s.grade.sites.toNat)).getD 0
      (s1.logEvt (plainEvt clsUnit s1.someCode 2 (BitVec.ofNat 8 site) 0xFF [])).tick

/-! ## Margining (R214 to R216) -/

/-- The fields of MEM_MARGIN. -/
def State.setMargin (s : State) (site chan rdly wdly vref vddq : Nat) : State :=
  s.updStack site fun x =>
    { x with
      chan := BitVec.ofNat 4 chan
      rdly := BitVec.ofNat 7 rdly
      wdly := BitVec.ofNat 7 wdly
      vref := BitVec.ofNat 5 vref
      vddq := BitVec.ofNat 5 vddq }

/-- All offsets return to the trained values (R215). -/
def State.marginEnd (s : State) (site : Nat) : State :=
  let x := s.stackAt site
  { s.setMargin site x.chan.toNat 0 0 0 0 with crown := { s.crown with marginReq := none } }

/-- The timing offset of step n of an edge: below 0 for the odd edges. -/
def edgeOff (edge n : Nat) : Nat := if edge % 2 = 1 then 2 ^ 7 - n else n

/-- The Vref offset of a Vref step (Table 12.5). -/
def vrefOff (vix : Nat) : Nat := if vix = 0 then 0 else if vix ≤ 10 then 2 ^ 5 - vix else vix - 10

/-- The point an eye tests next is set, and tested. -/
def State.eyePoint (s : State) (r : MarginReq) : State :=
  let x := s.stackAt r.site.val
  let s1 := s.setMargin r.site.val x.chan.toNat
    (if r.edge = 1 ∨ r.edge = 2 then edgeOff r.edge r.step else 0) (if r.edge = 3 ∨ r.edge = 4 then edgeOff r.edge r.step else 0)
    (vrefOff r.vix) 0
  { s1.updStack r.site.val (fun x => { x with running := true }) with crown := { s1.crown with marginReq := some r } }

/-- MEM_EYE from the six edges. -/
def eyeWord (fail0 : Bool) (e : List Nat) : Word :=
  BitVec.ofNat 32 (b2n fail0 * 2 ^ 31 + e.getD 0 0 * 2 ^ 25 + e.getD 1 0 * 2 ^ 19 + e.getD 2 0 * 2 ^ 13 + e.getD 3 0 * 2 ^ 7 +
    e.getD 4 0 * 2 ^ 3 + e.getD 5 0 % 8)

/-- MEM_EYE2. -/
def eyeWord2 (e : List Nat) (chan : Nat) : Word := BitVec.ofNat 32 (e.getD 5 0 / 8 * 16 + chan)

/-- An eye ends: the report stands in MEM_EYE and MEM_EYE2 and in the completion. -/
def State.eyeDone (s : State) (r : MarginReq) (fail0 : Bool) (edges : List Nat) : State :=
  let x := s.stackAt r.site.val
  let a := eyeWord fail0 edges
  let b := eyeWord2 edges x.chan.toNat
  ((s.updStack r.site.val fun x => { x with eye := a, eye2 := b }).marginEnd r.site.val).complete r.ref Code.ok
    (natLe 4 a.toNat ++ natLe 4 b.toNat)

/-- The six edges of an eye: the timings at Vref 0, and the lowest and highest Vref that passed at timing 0 (log entry 27). -/
def MarginReq.report (r : MarginReq) : List Nat :=
  r.edges ++ [(r.vpass.filter (· ≤ 10)).foldl max 0, ((r.vpass.filter (10 < ·)).map (· - 10)).foldl max 0]

/-- A Vref step of an eye is swept: the next one begins at timing 0, or the eye ends. -/
def State.eyeStep (s : State) (r : MarginReq) : State :=
  if r.vix = 20 then s.eyeDone r false r.report else s.eyePoint { r with vix := r.vix + 1, edge := 0, step := 0 }

/-- A point of an eye has been tested: for each Vref step, timing outward from 0 in both directions to the first failing point, for
reads and for writes (R216). -/
def State.eyeNext (s : State) (r : MarginReq) (pass : Bool) : State :=
  if r.edge = 0 then
    if pass then s.eyePoint { r with edge := 1, step := 1, vpass := r.vpass ++ [r.vix] }
    else if r.vix = 0 then s.eyeDone r true []
    else s.eyeStep r
  else if pass && decide (r.step < 32) then s.eyePoint { r with step := r.step + 1 }
  else
    let last := if pass then r.step else r.step - 1
    let r1 : MarginReq := { r with edges := if r.vix = 0 then r.edges ++ [last] else r.edges }
    if r.edge = 4 then s.eyeStep r1 else s.eyePoint { r1 with edge := r.edge + 1, step := 1 }

/-- MARGIN_POINT_TEST: the point under test passed or failed; PASS shows it and RUN reads 0. -/
def execMarginPointTest (site : Fin 8) (pass : Bool) (s : State) : Host.Outcome State Fault Refusal :=
  occurs s (s.mem.margin && (s.stackAt site.val).running) fun s =>
    let s1 := s.updStack site.val fun x => { x with passed := pass, running := false }
    match s.crown.marginReq with
    | none => s1
    | some r =>
      if r.site ≠ site then s1
      else if r.eye then s1.eyeNext r pass
      else (s1.marginEnd site.val).complete r.ref Code.ok (natLe 1 (b2n pass))

/-- A signed byte within a range of steps. -/
def stepOk (x m : Nat) : Bool := let v := signedOf 8 x; decide (-(m : Int) ≤ v ∧ v ≤ m)

/-- No session is OPEN or CLOSING. -/
def State.noSession (s : State) : Bool := s.crown.sessions.all fun x => x.2.body.state == .free

/-- MEM_MARGIN: accepted only before any session or job; the first request puts the module in margin mode. A request finds BUSY
while another runs, one channel at a time being margined (R214, R215). -/
def execMemMargin (f : Fin 64) (s : State) : Host.Outcome State Fault Refusal :=
  cmdRow f 0x07 [(0, 1), (1, 1), (2, 1), (4, 1), (5, 1), (6, 1), (7, 1)] true false (fun s r b =>
    let site := pay b 0 1
    let mode := pay b 2 1
    let offs := [pay b 4 1, pay b 5 1, pay b 6 1, pay b 7 1]
    let bad := decide (8 ≤ site) || !bitAt s.grade.sites.toNat site || decide (16 ≤ pay b 1 1) || decide (2 ≤ mode) ||
      !stepOk (offs.getD 0 0) 32 || !stepOk (offs.getD 1 0) 32 || !stepOk (offs.getD 2 0) 10 || !stepOk (offs.getD 3 0) 10
    if bad then s.reply r Code.badOperand
    else if !s.mem.ready || !s.noSession || s.crown.everAdmitted || s.crown.marginReq.isSome then s.reply r Code.busy
    else
      let s1 := { s with mem := { s.mem with margin := true } }.setMargin site (pay b 1 1) (offs.getD 0 0 % 128)
        (offs.getD 1 0 % 128) (offs.getD 2 0 % 32) (offs.getD 3 0 % 32)
      let m : MarginReq := ⟨r, ⟨site % 8, Nat.mod_lt _ (by decide)⟩, mode == 1, 0, 0, 0, [], []⟩
      let s2 := if mode = 1 then s1.eyePoint m
        else { s1.updStack site (fun x => { x with running := true }) with crown := { s1.crown with marginReq := some m } }
      s2.reply r Code.accepted) s

/-! ## Windows (R172) -/

/-- WINDOW_ZEROING_DONE: the rows of the window are zero, and it is invalid. -/
def execWindowZeroingDone (st : Fin 16) (w : Fin 4) (s : State) : Host.Outcome State Fault Refusal :=
  occurs s (bitAt s.stations[st].pantry.zwin.toNat w.val) fun s => s.updStn st fun t =>
    let x := t.pantry.wins[w]
    { t with pantry := { t.pantry with
      mem := t.pantry.mem.zeroRange x.baseAddr x.bytes
      wins := t.pantry.wins.set w { x with valid := false }
      zwin := t.pantry.zwin &&& ~~~ BitVec.ofNat 4 (2 ^ w.val) } }

end Sys2Proof.Machine
end

