-- ==== Sys2Proof/Machine/Reset.lean ====
section
/-! DEFINITION. Reset.lean: cold, warm, station and function-level resets, and the events on the power and reset pins (R182, R212,
R270, R271, R275, R278, R293, R339, R360 to R370). -/

namespace Sys2Proof.Machine

/-! ## Cold reset (R213, R270, R362, R367) -/

/-- Everything but the grade, the fuses and the flash is as after a cold reset; the pins keep their levels. -/
def State.coldReset (s : State) (st : BootState) (p : Power) : State :=
  { State.reset with
    grade := s.grade
    flash := s.flash
    fuses := s.fuses
    fresh := s.fresh
    pending := s.pending
    boot := { Boot.reset with state := st }
    power := p }

/-- The power block after a cold reset: its registers at their reset values, the pins as they are. -/
def Power.cold (p : Power) : Power :=
  { Power.reset with p1 := p.p1, refclk := p.refclk, pwrgd := p.pwrgd, tripped := p.tripped, tap := p.tap }

/-- A cold reset of a powered module: the ROM waits to start. -/
def State.coldToRom (s : State) : State := s.coldReset .rom s.power.cold

/-- PERST_N_ASSERT (R275). A module without power or held by a thermal trip stays in reset. -/
def execPerstNAssert (s : State) : Host.Outcome State Fault Refusal :=
  if s.boot.state = .off then .next s else .next s.coldToRom

/-- RESET_COLD: no reply; the rings are lost (R367). -/
def execResetCold (f : Fin 64) (s : State) : Host.Outcome State Fault Refusal :=
  cmdRow f 0x05 [] true false (fun s _ _ => s.coldToRom) s

/-- PWRGD is asserted, the PLL locked: power-up is a cold reset (R362, R363). -/
def State.powerGood (s : State) : State :=
  s.coldReset .rom { s.power.cold with pwrgd := true, lock := true }

/-- P1_POWER_UP: PWRGD waits for REFCLK100 (R363). -/
def execP1PowerUp (s : State) : Host.Outcome State Fault Refusal :=
  if s.power.p1 then .next s
  else
    let s1 := { s with power := { s.power with p1 := true } }
    .next (if s.power.refclk then s1.powerGood else s1)

/-- REFCLK100_PRESENT: it releases a PWRGD that waited for it (R363). -/
def execRefclk100Present (s : State) : Host.Outcome State Fault Refusal :=
  let s1 := { s with power := { s.power with refclk := true } }
  if s.power.refclk then .next s
  else .next (if s.power.p1 && !s.power.pwrgd then s1.powerGood else s1)

/-- UNDERVOLTAGE_LOCKOUT: PWRGD falls, all state is lost, and THERMTRIP_N is released (R362, R366). -/
def execUndervoltageLockout (s : State) : Host.Outcome State Fault Refusal :=
  if s.power.p1 then
    .next (s.coldReset .off { s.power.cold with p1 := false, pwrgd := false, tripped := false })
  else .next s

/-- THERMTRIP: every die is held in reset until P1 falls (R366). -/
def execThermtrip (s : State) : Host.Outcome State Fault Refusal :=
  if s.boot.state = .off then .next s else .next (s.coldReset .off { s.power.cold with tripped := true })

/-! ## Scrubs and station resets (R182, R369) -/

/-- A Pantry is scrubbed: every row zero, every window invalid. -/
def Pantry.scrub (p : Pantry) : Pantry := { p with mem := [], wins := p.wins.map fun w => { w with valid := false }, zwin := 0 }

/-- A station after a station reset: engines stopped and cleared, role cleared, Pantry scrubbed. -/
def Station.resetStn (t : Station) : Station :=
  let t1 := t.clearEngines
  { t1 with held := false, job := none, pantry := t1.pantry.scrub, ses4 := t1.ses4.map fun e => { e with faulted := false } }

/-- A stack whose offsets are back at the trained values (R215). -/
def Stack.trained (x : Stack) : Stack := { x with rdly := 0, wdly := 0, vref := 0, vddq := 0 }

/-- Any reset ends the offsets of margining (R215). -/
def State.trained (s : State) : State := { s with mem := { s.mem with stackRegs := s.mem.stackRegs.map Stack.trained } }

/-- STATION_RESET. -/
def execStationReset (f : Fin 64) (s : State) : Host.Outcome State Fault Refusal :=
  cmdRow f 0x06 [(0, 1)] true false (fun s r b =>
    if h : pay b 0 1 < 16 then
      let st : Fin 16 := ⟨pay b 0 1, h⟩
      let s1 := match s.stations[st].job with
        | some j => if s.stations[st].held then s.abortJob j Code.resetAborted else s
        | none => s
      ((s1.updStn st Station.resetStn).trained).reply r Code.ok
    else s.reply r Code.badOperand) s

/-! ## Mailbox pages (R278) -/

/-- A function's mailbox page is cleared: what was not yet written is discarded, entries not yet taken are dropped, and a close
that completes later has nothing to write. The MSI-X table lies outside the page (Table 16.2). -/
def State.clearPage (s : State) (f : Fin 64) : State :=
  let s1 := s.dropReplies f
  let s2 := (s1.updMbx f fun m => { Mbx.reset with msix := m.msix, pba := m.pba }).unmark
    [satKey 4 f.val 0, satKey 4 f.val 1, satKey 4 f.val 2]
  { s2 with crown := { s2.crown with
    sessions := s2.crown.sessions.map fun x => (x.1, { x.2 with closers := x.2.closers.filter fun r => r.f != f })
    activation := s2.crown.activation.map fun a => { a with ref := a.ref.filter fun r => r.f != f } } }

/-! ## Requests that a reset ends (R270, R293, R339, R369) -/

/-- Jobs of a state, by index. -/
def State.jobsIn (s : State) (p : Job → Bool) : List Nat := (s.crown.jobs.filter fun j => p j.2).map Prod.fst

/-- Verifications that a test picks end, those of key sets RESET_ABORTED: Mortar drops them and Crown takes their slots back. -/
def State.endVerifies (s : State) (p : VerifyReq → Bool) : State :=
  let gone := s.crown.verifies.filter p
  gone.foldl (fun s v =>
    let s1 := { s with
      mortar := (s.mortar.cancel s.fresh v.mtag).release v.slots
      crown := { s.crown with
        verifies := s.crown.verifies.filter fun x => x.mtag != v.mtag
        waits := s.crown.waits.filter fun w => w.mtag != v.mtag } }
    match v.ref with
    | some r => s1.complete r.1 Code.resetAborted
    | none => s1) s

/-- A function's entries leave the translated-image cache (R232). -/
def State.dropCache (s : State) (f : Fin 64) : State :=
  { s with crown := { s.crown with cache := s.crown.cache.filter fun c => c.func != f } }

/-- VF function-level reset (R369, R370): the VF's jobs end, its page is cleared, its images leave the cache. -/
def State.vfReset (s : State) (f : Fin 64) : State :=
  let s1 := (s.clearPage f).endVerifies fun v => (v.ref.map fun r => r.1.f == f).getD false
  let s2 := (s1.jobsIn fun j => j.func == f && j.state.abortable).foldl (fun s j => s.abortJob j Code.resetAborted) s1
  let s3 := (s2.jobsIn fun j => j.func == f && j.state == .aborting && !j.cleaned).foldl State.cleanup s2
  (s3.dropCache f).trained.msi f 2

/-! ## Quarantine (R84, R386) -/

/-- CRN_QUAR of a station. -/
def State.quarWord (s : State) (st : Fin 16) : Nat :=
  s.crown.quar[st].toNat + b2n (bitAt s.crown.withdrawn.toNat st.val) * 2 ^ 23

/-- The DETAIL of a UNIT event: CRN_QUAR, then GRD_BYPASS.PENDING of the Griddle named (0 for another engine). -/
def State.unitDetail (s : State) (st : Fin 16) (e : Nat) : List Byte :=
  let p := if h : e < 2 then (s.stations[st].griddles[(⟨e, h⟩ : Fin 2)]).pending.toNat else 0
  natLe 4 (s.quarWord st) ++ natLe 2 p

/-- A UNIT event of a station's engine, and the cache is discarded. -/
def State.unitEvent (s : State) (st : Fin 16) (e : Nat) : State :=
  ((({ s with crown := { s.crown with cache := [] } }).logEvt
    (plainEvt clsUnit s.someCode 1 (BitVec.ofNat 8 e) (BitVec.ofNat 8 st.val) (s.unitDetail st e)))).tick

/-- An engine is quarantined. -/
def State.quarantine (s : State) (st : Fin 16) (e : Nat) : State :=
  let s1 := { s with crown := { s.crown with
    quar := vupd s.crown.quar st fun q => q ||| BitVec.ofNat 22 (2 ^ e)
    quarSeen := true } }
  (s1.updStn st fun t => { t with chk := vupdN t.chk e fun c => { c with quar := true } }).unitEvent st e

/-- A bypass leaves a Griddle at least 64 columns. -/
def wide64 (bypass : BitVec 16) : Bool := decide (popCount 16 bypass.toNat ≤ 8)

/-- The Griddles in service whose bypass would leave them fewer than 64 columns are quarantined whole (R84). -/
def State.quarNarrow (s : State) : State :=
  (List.finRange 16).foldl (fun s st => (List.finRange 2).foldl (fun s g =>
    if s.griddleOn st g && !wide64 s.stations[st].griddles[g].pending then s.quarantine st g.val else s) s) s

/-! ## Warm reset (R212, R270, R271, R293, R323, R339, R368) -/

/-- A Griddle after a warm reset: ACTIVE is loaded from PENDING where that leaves 64 columns, and a held one returns (R84, R385). -/
def Griddle.warm (g : Griddle) : Griddle :=
  { g with active := if wide64 g.pending then g.pending else g.active, held := false, keyFifo := [] }

/-- A station after a warm reset: a held Griddle's counts and group record are cleared (R385). -/
def Station.warm (t : Station) : Station :=
  let t1 := t.resetStn
  let clr := fun (c : ChkCnt) => { c with replays := 0, fails := 0, last := 0, groups := 0 }
  let c0 := if t.griddles[0].held then vupd t1.chk 0 clr else t1.chk
  { t1 with
    griddles := t1.griddles.map Griddle.warm
    chk := if t.griddles[1].held then vupd c0 1 clr else c0 }

/-- Counts that a warm reset clears: those of held Griddles, by key. -/
def State.heldKeys (s : State) : List Nat :=
  (List.finRange 16).flatMap fun st => (List.finRange 2).flatMap fun g =>
    if s.stations[st].griddles[g].held then [satKey 1 (st.val * 12 + g.val) 0, satKey 1 (st.val * 12 + g.val) 1] else []

/-- Some Griddle's width changes at this reset. -/
def State.widthMoves (s : State) : Bool :=
  s.stations.toList.any fun t => t.griddles.toList.any fun g => g.held || g.active != g.pending

/-- Mortar after a warm reset: no job, no result, operand memory zero; slots and programs stay (R339). -/
def Mortar.warm (m : Mortar) : Mortar :=
  { m with mem := [], queue := [], running := none, saved := [], results := [], held := [] }

/-- Journal replay: every committed job's OUT buffers, and its completion unless that waits already (R271). -/
def State.replayJournal (s : State) : State :=
  s.crown.journal.foldl (fun s e =>
    if (s.jobAt e.job).state ≠ .committed then s
    else if s.mbx.toList.any fun m => m.replies.any fun r => r.job == some e.job then
      { s with crown := { s.crown with
        buffers := e.outs.foldl (fun bs (o : Nat × Bool) => Tab.upd bs o.1 fun b => { b with cv := o.2 }) s.crown.buffers } }
    else s.finishCommit e) s

/-- Asynchronous commands that had not completed end RESET_ABORTED, and so does a drain (R293). -/
def State.endRequests (s : State) : State :=
  let s1 := (s.endVerifies fun _ => true)
  let s2 := match s1.crown.stage.bind (·.ref) with
    | some r => s1.complete r Code.resetAborted
    | none => s1
  let s3 := s2.crown.snaps.foldl (fun s x => s.complete x.ref Code.resetAborted) s2
  let s4 := match s3.crown.marginReq with
    | some m => (s3.marginEnd m.site.val).complete m.ref Code.resetAborted
    | none => s3
  let s5 := match s4.crown.activation.bind (·.ref) with
    | some r => if s4.boot.state = BootState.ready then s4.reply r Code.resetAborted else s4
    | none => s4
  { s5 with crown := { s5.crown with
    stage := none
    snaps := []
    marginReq := none
    activation := if s5.boot.state = BootState.ready then none else s5.crown.activation } }

/-- Crown's side of a warm reset, after the dies: the journal is replayed and jobs before their commit point end (R271). -/
def State.endJobs (s : State) : State :=
  let s1 := s.replayJournal
  let s2 := (s1.jobsIn fun j => j.state.abortable).foldl (fun s j => s.abortJob j Code.resetAborted) s1
  (s2.jobsIn fun j => j.state == .aborting && !j.cleaned).foldl State.cleanup s2

/-- Sessions in CLOSING whose jobs have ended become FREE (R293). -/
def State.closeAll (s : State) : State :=
  (s.crown.sessions.map Prod.fst).foldl State.closeCheck s

/-- A warm reset up to the writing of completions: steps 1 to 7 of Table 21.5. -/
def State.warmCore (s : State) : State :=
  let s0 := ({ s with mortar := s.mortar.warm }).endRequests
  let s1 := s0.endJobs
  let s2 := s1.unmark s1.heldKeys
  let s3 := { s2 with
    stations := Vector.ofFn fun st =>
      let t := s2.stations[st].warm
      { t with funnel := { t.funnel with pooled := s2.unitOn st qFunnel } }
    net := []
    band := Vector.replicate 4 BndUnit.reset
    ioSes := s2.ioSes.map fun (v : Vector StreamEng 8) => v.map StreamEng.stop
    mem := { s2.mem with stackRegs := s2.mem.stackRegs.map fun (x : Stack) => { x.trained with running := false } }
    crown := { s2.crown with cache := if s2.widthMoves then [] else s2.crown.cache } }
  s3.quarNarrow.closeAll

/-- The next event of the log's queue is written as an entry; the PF gets vector 2, and the alert condition is updated (R383,
R373). -/
def State.logWrite (s : State) : State :=
  match s.mon.queue with
  | [] => s
  | e :: rest =>
    { s with
      mon := { s.mon with
        queue := rest
        next := s.mon.next + 1
        ring := s.mon.ring.put (s.mon.next.toNat % 4096) (s.mon.next, e) }
      power := { s.power with newEntry := true } }.msi 0 2

/-- Write every event that waits. -/
def State.logDrain (s : State) : State := (List.range s.mon.queue.length).foldl (fun s _ => s.logWrite) s

/-- Jobs whose completion entries wait for room in a ring. -/
def State.unwritten (s : State) : List Nat := s.mbx.toList.flatMap fun m => m.replies.filterMap fun r => r.job

/-- The end of a warm reset: entries are written before the first command is taken, the log's too, and the PF gets vector 2 (R271,
R294, R384). -/
def State.warmEnd (s : State) : State :=
  let s1 := (List.finRange 64).foldl State.writeAll s
  ({ s1 with crown := { s1.crown with mustWrite := s1.unwritten } }.logDrain).msi 0 2

/-- A warm reset during an activation or in normal running; before the first READY a cold boot absorbs it (R370). -/
def State.warmable (s : State) : Bool := s.boot.state == .ready || s.boot.state == .activating

/-- RESET_WARM: its reply is among the entries that are written before the next command (R293). -/
def execResetWarm (f : Fin 64) (s : State) : Host.Outcome State Fault Refusal :=
  cmdRow f 0x04 [] true false (fun s r _ => (s.warmCore.reply r Code.ok).warmEnd) s

/-- Configuration space after a reset of the link or of the PF: every function in D0, the VFs disabled, the sizes of BAR2 as after
reset (R273, R276; log entry 48). -/
def State.cfgReset (s : State) : State := { s with bars := ⟨1, 1⟩, cfg := CfgSpace.reset }

/-- A warm reset that clears every mailbox page (R278). -/
def State.linkReset (s : State) : State := (((List.finRange 64).foldl State.clearPage s).warmCore).cfgReset.warmEnd

/-- HOT_RESET: a Hot Reset or Link Disable (R275). -/
def execHotReset (s : State) : Host.Outcome State Fault Refusal := occurs s s.warmable State.linkReset

/-- FUNCTION_LEVEL_RESET: of the PF a warm reset, of a VF its own reset (R275). -/
def execFunctionLevelReset (f : Fin 64) (s : State) : Host.Outcome State Fault Refusal :=
  if f = 0 then occurs s s.warmable fun s => (s.dropCache f).linkReset else occurs s s.warmable fun s => s.vfReset f

/-- ERROR_LOG_WRITE. -/
def execErrorLogWrite (s : State) : Host.Outcome State Fault Refusal :=
  if s.boot.state = .off then .next s else .next s.logWrite

end Sys2Proof.Machine
end

