-- ==== Sys2Proof/Machine/Boot.lean ====
section
/-! DEFINITION. Boot.lean: the ROM, cold boot, recovery, staging, activation, confirmation, the configuration block's writes and
attestation (R84, R213, R293, R315, R327, R345 to R357). -/

namespace Sys2Proof.Machine

/-! ## The ROM (R345, R347, R350, R356) -/

/-- Measurements M0 to M4 (R356). -/
def measOf (img : List Byte) (ps : List (Nat × Comp)) (stat dyn : List Byte) : List (List Byte) :=
  [Config.romDigest, sha256 (img.take 0x1000), sha256 (ps.flatMap fun p => p.2.sha), sha256 stat, sha256 dyn]

/-- Steps 1 and 2: fuses, configuration block, regions; zeroing starts. -/
def State.romRead (s : State) : State :=
  let (src, stat, dyn) := s.readCfg
  let (tab, good) := s.grade.table stat
  { s with
    boot := { s.boot with
      locked := true
      cfgsrc := BitVec.ofNat 2 src
      cfgdef := decide (2 ≤ src) || !good
      staticSec := stat.getD (zeros 512)
      dynSec := dyn }
    mem := { s.mem with regions := tab, zeroing := true }
    power := { s.power with lock := true, tap := if s.power.tap = .extest then .bypass else s.power.tap } }

/-- The image of a bank is loaded: its header, its Mortar programs and its measurements. -/
def State.loadImage (s : State) (b : Bool) : State :=
  let img := s.flash.bank b
  let ps := imgPrograms img
  { s with
    boot := { s.boot with
      bank := b
      recovery := false
      header := img.take 0x1000
      meas := measOf img ps s.boot.staticSec s.boot.dynSec }
    mortar := { s.mortar with load := some (progBits ps, progStore img ps) } }

/-- The firmware of a bank starts. -/
def State.startBank (s : State) (b fallback trial : Bool) : State :=
  let s1 := s.loadImage b
  { s1 with boot := { s1.boot with state := .starting, fallback := fallback, trial := trial } }

/-- The ROM boots the non-ACTIVE bank: the record is rewritten, FALLBACK set (R345). -/
def State.otherBank (s : State) (b : Bool) : State :=
  let s1 := { s with flash := s.flash.putBcr ⟨b, false, !b⟩ }.startBank b true false
  { s1 with boot := { s1.boot with triedOther := true } }

/-- Recovery: the PF alone (R347). -/
def State.enterRecovery (s : State) : State :=
  { s with
    boot := { s.boot with state := .ready, recovery := true, header := [] }
    fab := Fabric.reset }

/-! ## The firmware at a cold boot (R84, R147, R298, R345, R350) -/

/-- GRD_BYPASS of a Griddle in DYNAMIC. -/
def dynBypass (dyn : List Byte) (st : Fin 16) (g : Fin 2) : BitVec 16 := BitVec.ofNat 16 (field dyn (8 + 2 * (2 * st.val + g.val)) 2)

/-- A port of a die that is absent: its registers read as 0 (R12). -/
def Port.absent : Port := { Port.reset with state := .disabled, etype := 0, vid := 0, pcp3 := 0, pcp2 := 0, pcp1 := 0, pcp0 := 0 }

/-- A port as STATIC and DYNAMIC configure it. -/
def State.bootPort (s : State) (p : Fin 14) : Port :=
  let dyn := s.boot.dynSec
  let on := decide (2 ≤ s.boot.cfgsrc.toNat) || bitAt (field s.boot.staticSec 2 2) p.val
  if !s.portPresent p then Port.absent
  else
  { Port.reset with
    state := if on then .down else .disabled
    eth := bitAt (field dyn 2 2) p.val
    etype := BitVec.ofNat 16 (field dyn 4 2)
    vid := BitVec.ofNat 12 (field dyn 6 2) }

/-- The firmware restores the bypasses and sets up the ports; defaults are reported. -/
def State.firmConfig (s : State) : State :=
  let dyn := s.boot.dynSec
  let s1 := { s with
    stations := Vector.ofFn fun st =>
      let t := s.stations[st]
      { t with
        griddles := Vector.ofFn fun g =>
          let p := dynBypass dyn st g
          { t.griddles[g] with pending := p, active := if wide64 p then p else 0 } }
    fab := { s.fab with
      assigned := bitAt (field dyn 0 2) 15
      modid := BitVec.ofNat 10 (field dyn 0 2)
      ports := Vector.ofFn s.bootPort } }
  let s2 := s1.quarNarrow
  if s.boot.cfgdef then (s2.logEvt (plainEvt clsNote Code.cfgDefaulted 0 0xFF 0xFF [])).msi 0 2 else s2

/-- The ROM runs (R345). -/
def State.coldBoot (s : State) : State :=
  let s1 := s.romRead
  let x := s1.flash.bcr
  if s1.bankOk x.active then (s1.startBank x.active false x.trial).firmConfig
  else if s1.bankOk (!x.active) then (s1.otherBank (!x.active)).firmConfig
  else s1.enterRecovery

/-- COLD_BOOT. -/
def execColdBoot (s : State) : Host.Outcome State Fault Refusal :=
  occurs s (s.boot.state == .rom && s.power.pwrgd && s.power.refclk && !s.power.tripped) State.coldBoot

/-! ## Confirmation and fallback (R346, R348, R353) -/

/-- The event of an activation's end. -/
def State.noteActivation (s : State) (code : Byte) : State := s.logEvt (plainEvt clsNote code 0 0xFF 0xFF [])

/-- The running image is confirmed: TRIAL is 0 and SVNF rises to its SVN. -/
def State.confirm (s : State) : State :=
  { s with
    boot := { s.boot with trial := false }
    flash := s.flash.putBcr ⟨s.boot.bank, false, s.flash.bcr.prev⟩
    fuses := s.fuses.blow (field s.boot.header 5 1) }

/-- A link in FABRIC mode takes the lower of the two versions again, without a retrain (R315). -/
def Port.renegotiate (p : Port) (own : Nat) : Port :=
  match p.peers.head? with
  | some r => if p.isUp && !p.eth then { p with ver := BitVec.ofNat 8 (min own r.ver.toNat) } else p
  | none => p

/-- Every link renegotiates its minor version. -/
def State.renegotiate (s : State) : State :=
  { s with fab := { s.fab with ports := s.fab.ports.map fun (p : Port) => p.renegotiate s.fabVer } }

/-- The activation's request is answered, and the warm reset ends. -/
def State.endActivation (s : State) (code : Byte) (ver : Nat) : State :=
  let a := s.crown.activation
  let s1 := { s with
    boot := { s.boot with state := .ready }
    crown := { s.crown with activation := none } }
  (match a.bind (·.ref) with
   | some r => (s1.reply r code (natLe 4 ver)).settle r.f
   | none => s1).warmEnd

/-- IMAGE_CONFIRM: the firmware has set READY; after an activation this also ends it. -/
def execImageConfirm (s : State) : Host.Outcome State Fault Refusal :=
  if s.boot.state = .activating then
    occurs s (s.mortar.load == none) fun s =>
      let s1 := s.confirm
      let s2 := { s1 with boot := { s1.boot with activations := wrapAdd s1.boot.activations 1 } }
      (((s2.noteActivation s2.someCode).tick.renegotiate).announce).endActivation Code.ok s2.fwVersion
  else occurs s (s.boot.state == .ready && s.boot.trial && !s.boot.recovery) State.confirm

/-- An activation falls back to PREV, and the ports retrain (R353). Its programs load at once, or once Mortar holds no job (R327). -/
def State.fallBack (s : State) : State :=
  let b := s.flash.bcr.prev
  let s1 := s.loadImage b
  let s2 := { s1 with
    boot := { s1.boot with fallback := true, trial := false }
    flash := s1.flash.putBcr ⟨b, false, b⟩
    mortar := if s1.mortar.idle then s1.mortar.loadNow else s1.mortar }
  let s3 := (List.finRange 14).foldl State.retrain ((s2.noteActivation s2.someCode).tick)
  s3.endActivation Code.internal ((s.crown.activation.map fun a => a.oldVer.toNat).getD s3.fwVersion)

/-- WATCHDOG_EXPIRY: the firmware has not set READY (R346). -/
def execWatchdogExpiry (s : State) : Host.Outcome State Fault Refusal :=
  if s.boot.state = .activating then occurs s true State.fallBack
  else occurs s (s.boot.state == .starting) fun s =>
    let o := !s.boot.bank
    if s.boot.triedOther || !s.bankOk o then s.enterRecovery else s.otherBank o

/-! ## Staging (R351, R352, R354) -/

/-- The bank that staging writes: the inactive one; A in recovery (R347). -/
def State.stageBank (s : State) : Bool := if s.boot.recovery then false else !s.boot.bank

/-- The STATIC section and signature of a CONFIG image: component 4 (log entry 32). -/
def imgStatic (img : List Byte) : Option (List Byte) :=
  ((compsOf img).find? fun c => c.id == 4 && c.len == 512 + 7856).map fun c => slice img c.off c.len

/-- Why an image is not staged, as CRN_FWSTAGE.REASON codes it. -/
def State.stageError (s : State) (img : List Byte) : Option Nat :=
  match imgError s.fuses img with
  | some c => some c
  | none =>
    if imgType img = 2 ∧ imgStatic img = none then some 1
    else if 0x1000000 < imgLen img then some 5
    else if s.boot.recovery = false ∧ field img 0x10 1 / 16 ≠ s.fabVer / 16 then some 6
    else if s.fab.ports.toList.any fun p => p.isUp && p.peers.any fun r => decide (r.fwver.toNat < field img 0xC 4) then some 7
    else none

/-- A staging ends with a status. -/
def State.stageEnd (s : State) (ref : Option ReqRef) (code : Byte) : State :=
  match ref with
  | some r => s.complete r code
  | none => s

/-- Steps 2 to 4: STAGED is cleared, the image checked, and the write to flash begun. A bank that is being written holds unspecified
bytes. -/
def State.stageBegin (s : State) (ref : Option ReqRef) (img : HostRead) : State :=
  let s1 := { s with boot := { s.boot with staged := false } }
  match img with
  | none => s1.stageEnd ref Code.internal
  | some b =>
    let cfg := imgType b == 2
    let s2 := { s1 with boot := { s1.boot with stageConfig := cfg } }
    match s.stageError b with
    | some c => { s2 with boot := { s2.boot with reason := BitVec.ofNat 4 c } }.stageEnd ref Code.badOperand
    | none =>
      let s3 := { s2 with
        crown := { s2.crown with stage := some ⟨ref, cfg, b.take (imgLen b)⟩ }
        boot := { s2.boot with pct := BitVec.ofNat 8 (Config.freeNat s2.fresh % 101) }
        flash := if cfg then s2.flash else s2.flash.putBank s2.stageBank (s2.freeBytes (imgLen b)) }
      { s3 with fresh := s3.fresh + imgLen b + 1 }

/-- Staging finds the module busy: another one runs, or an activation waits. -/
def State.stageBusy (s : State) : Bool := s.crown.stage.isSome || s.crown.activation.isSome

/-- FW_STAGE. -/
def execFwStage (f : Fin 64) (dma : HostRead) (s : State) : Host.Outcome State Fault Refusal :=
  cmdRow f 0x50 [(0, 8), (8, 4)] true false (fun s r b =>
    if s.stageBusy then s.reply r Code.busy
    else (s.reply r Code.accepted).stageBegin (some r) (dma.filter fun x => x.length == pay b 8 4)) s

/-- The image is in flash: STAGED for firmware; a configuration image replaces STATIC and SSIG (R351). -/
def State.stageDone (s : State) (x : StageRun) : State :=
  let s1 := { s with
    crown := { s.crown with stage := none }
    boot := { s.boot with pct := 100 } }
  if x.config then
    let c := (imgStatic x.image).getD []
    { s1 with
      flash := s1.flash.putCfg (c.take 512) (c.drop 512) s1.boot.dynSec
      boot := { s1.boot with cfgDirty := false } }
  else
    { s1 with
      flash := s1.flash.putBank s1.stageBank x.image
      boot := { s1.boot with staged := true } }

/-- FLASH_WRITE_DONE. -/
def execFlashWriteDone (ok : Bool) (s : State) : Host.Outcome State Fault Refusal :=
  occurs s (s.ready && s.crown.stage.isSome) fun s =>
    match s.crown.stage with
    | none => s
    | some x =>
      if ok then (s.stageDone x).stageEnd x.ref Code.ok
      else
        ({ s with
          crown := { s.crown with stage := none }
          boot := { s.boot with reason := 8 } }).stageEnd x.ref Code.internal

/-- PLDM_FIRMWARE_UPDATE: an image goes to the same staging path; without one it is ActivateFirmware. -/
def execPldmFirmwareUpdate (image : HostRead) (s : State) : Host.Outcome State Fault Refusal :=
  occurs s s.ready fun s =>
    match image with
    | some b => if s.stageBusy then s else s.stageBegin none (some b)
    | none =>
      if s.boot.staged && !s.boot.recovery && s.crown.activation.isNone then
        { s with crown := { s.crown with activation := some ⟨none, true, BitVec.ofNat 32 s.fwVersion⟩ } }
      else s

/-! ## Activation (R293, R353) -/

/-- FW_ACTIVATE: the drain starts. -/
def execFwActivate (f : Fin 64) (s : State) : Host.Outcome State Fault Refusal :=
  cmdRow f 0x51 [(0, 4)] true false (fun s r _ =>
    if !s.boot.staged then s.reply r Code.badOperand
    else if s.crown.activation.isSome then s.reply r Code.busy
    else { s with crown := { s.crown with activation := some ⟨some r, true, BitVec.ofNat 32 s.fwVersion⟩ } }) s

/-- Every job has ended. -/
def State.drained (s : State) : Bool := s.crown.jobs.all fun j => j.2.state.ended

/-- An activation drains. -/
def State.draining (s : State) : Bool := (s.crown.activation.map (·.draining)).getD false

/-- The record names the staged bank on trial, and the module resets warm; the ROM loads and verifies the image. -/
def State.activate (s : State) : State :=
  let old := s.boot.bank
  let s1 := { s with
    flash := s.flash.putBcr ⟨!old, true, old⟩
    boot := { s.boot with state := .activating, staged := false }
    crown := { s.crown with activation := s.crown.activation.map fun (a : Activation) => { a with draining := false } } }
  let s2 := s1.warmCore
  let s3 := { s2 with crown := { s2.crown with cache := [] } }
  if s3.bankOk (!old) then
    let s4 := s3.loadImage (!old)
    { s4 with boot := { s4.boot with fallback := false, trial := true } }
  else s3.fallBack

/-- FIRMWARE_ACTIVATION. -/
def execFirmwareActivation (s : State) : Host.Outcome State Fault Refusal :=
  occurs s (s.ready && s.draining && s.drained) State.activate

/-- DRAIN_TIMEOUT. -/
def execDrainTimeout (s : State) : Host.Outcome State Fault Refusal :=
  occurs s (s.ready && s.draining && !s.drained) fun s =>
    let s1 := { s with crown := { s.crown with activation := none } }
    match s.crown.activation.bind (·.ref) with
    | some r => (s1.reply r Code.busy).settle r.f
    | none => s1

/-- CONFIG_BLOCK_WRITE: Crown rewrites the block with every change so far; STATIC and SSIG stay as the block held them (R351). -/
def execConfigBlockWrite (s : State) : Host.Outcome State Fault Refusal :=
  occurs s (s.boot.cfgDirty && s.boot.state != .off && s.boot.state != .rom) fun s =>
    let b := s.flash.cfgBlock
    { s with
      flash := s.flash.putCfg (slice b 0x10 512) (slice b 0x210 7856) s.boot.dynSec
      boot := { s.boot with cfgDirty := false } }

/-! ## Attestation (R355, R357) -/

/-- Bytes 0x0000 to 0x20AF of the report (Table 20.6). -/
def State.report (s : State) (nonce : List Byte) : List Byte :=
  natLe 4 0x54415444 ++ natLe 2 1 ++ zeros 2 ++ natLe 4 s.fwVersion ++ natLe 1 (field s.boot.header 5 1) ++
    natLe 1 s.fuses.svnf ++ natLe 1 (b2n s.boot.bank) ++
    natLe 1 (b2n s.boot.cfgdef + 2 * b2n s.boot.fallback + 4 * b2n s.boot.trial) ++ natLe 4 s.boot.activations.toNat ++ zeros 12 ++
    padTo 32 nonce ++ padTo 160 s.boot.meas.flatten ++ s.infoHead ++ padTo 32 (Config.idPublicKey s.fuses.idseed) ++
    padTo 16 s.fuses.serial ++ zeros 168 ++ padTo 7856 s.flash.idcert

/-- The whole report with its signature. -/
def State.signedReport (s : State) (nonce : List Byte) : List Byte :=
  s.report nonce ++ padTo 17088 (Config.idSign s.fuses.idseed (s.report nonce))

/-- ATTEST. -/
def execAttest (f : Fin 64) (s : State) : Host.Outcome State Fault Refusal :=
  cmdRow f 0x52 [(0, 32), (0x20, 8), (0x28, 4)] false false (fun s r b =>
    if pay b 0x28 4 < 25456 then s.reply r Code.badOperand
    else
      ((s.reply r Code.accepted).toHost (.write r.f (pay b 0x20 8) (s.signedReport (slice b 0x10 32)))).complete r Code.ok
        (natLe 4 25456)) s

end Sys2Proof.Machine
end

