-- ==== Sys2Proof/Machine/Skillet.lean ====
section
/-! DEFINITION. Skillet.lean: the element-wise operations and SLOAD (R93 to R100, R246 to R249). -/

namespace Sys2Proof.Machine

/-- The parameters of a Skillet operation (Table 14.2). -/
structure Skl where
  op : Nat
  row0 : Nat
  rows : Nat
  crow : Nat
  merge : Bool
  k : Nat
  ch : Nat
  body : Bool
  bcast : Bool
  inter : Bool
  sgn : Bool
  close : Nat
  hasB : Bool
  mod : Nat
  mod2 : Nat
  deriving DecidableEq, Repr

/-- The parameters as the instruction gives them; the cache row is the physical one. -/
def Station.sklOf (t : Station) (iw : BitVec 128) : Skl where
  op := opOf iw
  row0 := t.param iw 24 16
  rows := t.param iw 40 16 + 1
  crow := t.crowOf iw (t.param iw 56 7)
  merge := t.param iw 63 1 == 1
  k := t.param iw 64 7 + 1
  ch := t.param iw 71 3 + 1
  body := t.param iw 74 1 == 1
  bcast := t.param iw 75 1 == 1
  inter := t.param iw 76 1 == 1
  sgn := t.param iw 77 1 == 1
  close := t.param iw 78 2
  hasB := d1Of iw != 0
  mod := t.mod0 iw
  mod2 := dMod2 (t.desc (d0Of iw))

/-! ## Rows and moduli (R95) -/

/-- The limb of a payload row (R95). -/
def Hdr.limbOfRow (h : Hdr) (r : Nat) : Nat :=
  if h.family = 0 then (r / (if h.layout = 2 then lweRows h.psid else lweW h.psid)) % h.limbs
  else (r / h.limbRows) % h.limbs

/-- Payload rows of an object. -/
def Hdr.rows (h : Hdr) : Nat := h.plen / 512

/-- The row of B that row r of A takes, if it takes one: a packed plaintext B of a packed ciphertext A holds one polynomial
(R95). -/
def rowOfB (op : Nat) (ha hb : Hdr) (r : Nat) : Option Nat :=
  if ha.family = 1 ∧ hb.family = 2 then
    if op = 0x43 then (if r < hb.rows then some r else none) else some (r % hb.rows)
  else some r

/-- The operation drops the second limb of a PS-T3 ciphertext (R99). -/
def dropsLimb (op : Nat) (h : Hdr) : Bool := op == 0x49 && h.psid == 3

/-- Rows per limb of one ciphertext (LWE_ROW) or one group (WORD_MAJOR). -/
def Hdr.unitRows (h : Hdr) : Nat := if h.layout = 2 then lweRows h.psid else lweW h.psid

/-- The limb-0 source row of output row r of a limb drop; its limb-1 partner lies one unit further (R99). -/
def Hdr.dropRow (h : Hdr) (r : Nat) : Nat := r / h.unitRows * (2 * h.unitRows) + r % h.unitRows

/-- The destination row of row r of A: the same row, or with SRESCALE the same polynomial, limb and row of an object with one
limb less; none for a row of the top limb (R94; log entry 20). -/
def dstRow (op : Nat) (h : Hdr) (r : Nat) : Option Nat :=
  if op = 0x48 then
    if h.limbOfRow r = h.level then none
    else some (r / (h.limbs * h.limbRows) * (h.level * h.limbRows) + r % (h.limbs * h.limbRows))
  else some r

/-! ## Cache rows (R97) -/

/-- A cache row's words under a modulus: SGN values modulo q; RES words, each of which must be canonical. -/
def CRow.vals (c : CRow) (q : Nat) : Option (List Nat) :=
  if c.sgn then some (c.words.map fun w => intMod q w.toInt)
  else if c.words.all fun w => decide (w.toNat < q) then some (c.words.map BitVec.toNat) else none

/-- The largest magnitude of centred coefficients, or 0. -/
def maxAbs (q : Nat) (cs : List Nat) : Nat := (cs.map fun c => (centred q c).natAbs).foldl max 0

/-- The sum of squares of centred coefficients. -/
def sumSq (q : Nat) (cs : List Nat) : Nat := (cs.map fun c => (centred q c).natAbs ^ 2).sum

/-- The cache rows an operation names. -/
def Skl.cacheRows (p : Skl) : List Nat :=
  if p.op = 0x4A then (List.range p.ch).map (p.crow + ·)
  else if p.op = 0x44 ∨ p.op = 0x46 ∨ (p.op = 0x43 ∧ p.hasB = false) then [p.crow] else []

/-- A cache row, if it is loaded. -/
def Station.crow (t : Station) (v : Fin 2) (r : Nat) : Option CRow := t.skillets[v].cache.get? r

/-- The coefficients of a named cache row under q; with BCAST entry 0 in all lanes. -/
def Station.coefs (t : Station) (v : Fin 2) (p : Skl) (r q : Nat) : Option (List Nat) :=
  ((t.crow v r).bind fun c => c.vals q).map fun l => if p.bcast then List.replicate 128 (l.headD 0) else l

/-! ## Output header and noise (Table 5.3, R246 to R248) -/

/-- The moduli of the rows an operation processes. -/
def Station.rowMods (t : Station) (p : Skl) (h : Hdr) : List Nat :=
  ((List.range p.rows).map fun i => h.limbOfRow (p.row0 + i)).eraseDups.map fun l => (t.modAt (p.mod + l)).q

/-- The groups of 128 of a WORD_MAJOR batch. -/
def Hdr.groups (h : Hdr) : Nat := ceilDiv h.count 128

/-- S of SSUM: the sum of squares over the coefficients an output element uses (R96). A RES cache row that serves rows of several
limbs is centred under each of their moduli and the largest value counts (DESIGN CHOICE, log entry 42). -/
def Station.ssumS (t : Station) (v : Fin 2) (p : Skl) (h : Hdr) : Nat :=
  (((List.range (min p.ch h.groups)).map fun k =>
    ((t.rowMods p h).map fun q => sumSq q ((t.coefs v p (p.crow + k) q).getD [])).foldl max 0)).sum

/-- The output NOISE of Table 5.3. The max abs(c) of SMULC over a RES cache row is the largest over the moduli of the rows processed
(DESIGN CHOICE, log entry 42). -/
def Station.sklNoise (t : Station) (v : Fin 2) (p : Skl) (ha hb hx : Hdr) (eks : Nat) : Nat :=
  let m := t.modAt
  if p.op = 0x40 ∨ p.op = 0x41 then
    if p.op = 0x40 ∧ p.close = 1 then logadd ha.noise eks
    else if p.op = 0x40 ∧ p.close = 2 then
      eMulRelin (setLogN ha.psid) ha.noise (ha.scale - hx.scale) hx.noise hx.scale eks
    else logadd ha.noise hb.noise
  else if p.op = 0x45 then
    if p.inter then ha.noise else eAdd (eMul ha.noise hb.noise) (if 0xFFFF ≤ hb.noise then 0xFFFF else (hb.noise + 16 * setLogN ha.psid : Nat))
  else if p.op = 0x46 then
    if p.inter then ha.noise
    else
      let mx := ((t.rowMods p ha).map fun q => maxAbs q ((t.coefs v p p.crow q).getD [])).foldl max 0
      if mx = 0 then 0 else eAdd ha.noise (ceilLog 32 mx : Nat)
  else if p.op = 0x48 then
    let k := (m (p.mod + ha.level)).k
    logadd (eAdd ha.noise (- (32 * (k - 1) : Nat))) (eRescale ha.n)
  else if p.op = 0x49 then
    let q0 := (m p.mod).q
    let drop := if dropsLimb p.op ha then floorLogQ 32 (q0 * (m (p.mod + 1)).q) q0 else floorLogQ 32 q0 (m p.mod2).q
    logadd (eAdd ha.noise (- drop)) (eSwitch (lweN ha.psid))
  else if p.op = 0x4A then
    let sq := t.ssumS v p ha
    if sq = 0 then 0 else eAdd ha.noise (ceilLog 16 sq : Nat)
  else ha.noise

/-- The output SCALE: the product's for SMUL and SMAC, less log2 q of the top limb for SRESCALE, A's otherwise. A plaintext's SCALE
that would fall below 0 is not stated by the manual: it is free. -/
def Station.sklScale (t : Station) (p : Skl) (ha hb : Hdr) (free : Nat) : Nat :=
  if p.op = 0x45 ∨ p.op = 0x47 then ha.scale + hb.scale
  else if p.op = 0x48 then
    let l := log2Fix (t.modAt (p.mod + ha.level)).q
    if l ≤ ha.scale then ha.scale - l else free % 2 ^ 32
  else ha.scale

/-- The destination header (R99, R246). -/
def Station.sklHdr (t : Station) (v : Fin 2) (p : Skl) (ha hb hx : Hdr) (eks free : Nat) : Hdr :=
  Hdr.sized { ha with
    level := if p.op = 0x48 ∨ dropsLimb p.op ha = true then ha.level - 1 else ha.level
    noise := t.sklNoise v p ha hb hx eks
    scale := t.sklScale p ha hb free
    count := if p.op = 0x4A then ceilDiv ha.groups p.ch else ha.count }

/-! ## Issue-time checks (R99, R100, Table 5.4) -/

/-- The operation accepts the family of A (Table 5.3). -/
def sklFamily (op family : Nat) : Bool :=
  if op = 0x44 ∨ op = 0x49 ∨ op = 0x4A then family == 0
  else if op = 0x45 ∨ op = 0x47 ∨ op = 0x48 then family != 0
  else true

/-- The operation accepts the layout of A, whose family it accepts (Table 5.3, R31). -/
def sklLayout (p : Skl) (h : Hdr) : Bool :=
  layoutOfFamily h &&
    (if p.op = 0x44 ∨ p.op = 0x4A ∨ (p.op = 0x43 ∧ p.body = true) then h.layout == 3
     else if p.op = 0x48 then h.layout == 0 || h.layout == 4
     else true)

/-- The family of B that the operation takes with A (Table 5.3, R95). -/
def familyOfB (p : Skl) (ha hb : Hdr) : Bool :=
  if p.op = 0x40 ∨ p.op = 0x41 then hb.family != 2
  else if p.op = 0x43 then hb.family == 2 && ha.family != 0
  else if p.inter then hb.family != 0 else hb.family == 2

/-- The layout of B, whose family the operation accepts: one of its family, and EVAL for the plaintext of a product (Table 5.3,
R31). -/
def layoutOfB (p : Skl) (hb : Hdr) : Bool :=
  layoutOfFamily hb && !(p.op == 0x45 && hb.family == 2 && hb.layout != 1)

/-- B agrees with A in PSID, LAYOUT and row count; a packed plaintext B of a ciphertext in LEVEL; a sum in LEVEL and SCALE
(R95, Table 2.9). -/
def agreesB (p : Skl) (ha hb : Hdr) : Bool :=
  hb.psid == ha.psid && hb.layout == ha.layout &&
    (if ha.family = 1 ∧ hb.family = 2 then hb.level == ha.level else hb.rows == ha.rows) &&
    (if p.op = 0x40 ∨ p.op = 0x41 then hb.level == ha.level && decide (ha.scale ≤ hb.scale + 256 ∧ hb.scale ≤ ha.scale + 256) else true)

/-- The rows of A that an operation reads, counted from its payload. Of an object at LEVEL 0 a limb drop could read limb 0 alone. -/
def Skl.readRows (p : Skl) (ha : Hdr) : List Nat :=
  (List.range p.rows).flatMap fun i =>
    let r := p.row0 + i
    if dropsLimb p.op ha && ha.level != 0 then [ha.dropRow r, ha.dropRow r + ha.unitRows]
    else if p.op = 0x48 then [r, r / (ha.limbs * ha.limbRows) * (ha.limbs * ha.limbRows) + ha.level * ha.limbRows + r % ha.limbRows]
    else [r]

/-- The rows of DST that an operation writes. -/
def Skl.writtenRows (p : Skl) (ha : Hdr) : List Nat :=
  if p.op = 0x4A then
    let rpg := ha.limbs * lweW ha.psid
    (List.range p.rows).map fun i => (p.row0 + i) / rpg / p.ch / 128 * rpg + (p.row0 + i) % rpg
  else (List.range p.rows).filterMap fun i => dstRow p.op ha (p.row0 + i)

/-- The rows of an object that the operation names when it does not accept the object's family or layout: those that ROW0 and
ROWS count (R45, R171). -/
def Skl.plainRows (p : Skl) : List Nat := (List.range p.rows).map (p.row0 + ·)

/-- Payload rows that ROW0 and ROWS count: the output's for a limb drop (R99), A's for every other operation. With SRESCALE the
rows of A's c1 move down past the top limb of c0 (DESIGN CHOICE, log entry 20). -/
def Skl.limit (p : Skl) (ha : Hdr) : Nat := if dropsLimb p.op ha && ha.level == 1 then ha.rows / 2 else ha.rows

/-- The scale bound of a packed product: the sum of k over the limbs, less 2 (R44, R249). -/
def Station.scaleBound (t : Station) (p : Skl) (ha : Hdr) : Nat :=
  (((List.range ha.limbs).map fun l => (t.modAt (p.mod + l)).k).sum - 2) * 65536

/-- What an operation reads at issue: the headers of A, B, DST and XE and whether each passes R29. -/
structure SklIn where
  ha : Hdr
  hb : Hdr
  hd : Hdr
  hx : Hdr
  okA : Bool
  okB : Bool
  okD : Bool
  okX : Bool
  /-- A source is shorter than its PLEN. -/
  short : Bool
  deriving DecidableEq, Repr

/-- The headers as they stand. -/
def Station.sklIn (t : Station) (ks : Option KeySet) (p : Skl) (e : QEntry) : SklIn :=
  let hd := fun (a : Int) => t.rd a.toNat 64
  { ha := Hdr.ofBytes (hd e.ea0), hb := Hdr.ofBytes (hd e.ea1), hd := Hdr.ofBytes (hd e.eaX), hx := Hdr.ofBytes (hd e.eaE),
    okA := hdrOk ks (hd e.ea0), okB := !p.hasB || hdrOk ks (hd e.ea1), okD := p.op != 0x47 || hdrOk ks (hd e.eaX),
    okX := hdrOk ks (hd e.eaE)
    short := !lenOk (t.desc (d0Of e.iw)) (Hdr.ofBytes (hd e.ea0)).plen ||
      (p.hasB && !lenOk (t.desc (d1Of e.iw)) (Hdr.ofBytes (hd e.ea1)).plen) ||
      (p.op == 0x47 && !lenOk (t.desc (t.xd e.iw)) (Hdr.ofBytes (hd e.eaX)).plen) }

/-- SRESCALE of a ciphertext whose SCALE is below log2 of the top limb's modulus: s falls below 0, where every E exceeds the
budget (R42, R43). -/
def Station.belowScale (t : Station) (p : Skl) (ha : Hdr) : Bool :=
  p.op == 0x48 && ha.family == 1 && decide (ha.scale < log2Fix (t.modAt (p.mod + ha.level)).q)

/-- The issue-time checks of a Skillet operation in the order of R45. Of an object whose family or layout is not accepted the rows
that ROW0 and ROWS count are bound-checked. The MODTAB entries tested are those of the limbs that the rows processed belong to,
and with a rescale all of A's: R52 speaks of any limb of the operand (DESIGN CHOICE, log entry 41). -/
def sklFault (t : Station) (v : Fin 2) (p : Skl) (e : QEntry) (i : SklIn) (tag : Word) (out : Hdr) :
    Option Byte :=
  let fam := sklFamily p.op i.ha.family
  let ok := i.okA && fam && layoutOfFamily i.ha
  let famB := familyOfB p i.ha i.hb
  let close2 := p.op == 0x40 && p.close == 2
  let row := fun (a : Int) (r : Nat) => (a + 512 + ((512 * r : Nat) : Int), 512)
  firstFault [
    (decide (e.ea0 % 512 ≠ 0 ∨ e.eaX % 512 ≠ 0) || (p.hasB && decide (e.ea1 % 512 ≠ 0)) ||
      (close2 && decide (e.eaE % 512 ≠ 0)), Code.alignFault),
    (!t.allIn ([(e.ea0, 512), (e.eaX, 512)] ++ (if p.hasB then [(e.ea1, 512)] else []) ++ (if close2 then [(e.eaE, 512)] else [])),
      Code.boundFault),
    (i.okA && !t.allIn (((if ok then p.readRows i.ha else p.plainRows).map (row e.ea0)) ++
      ((if ok then p.writtenRows i.ha else p.plainRows).map (row e.eaX))), Code.boundFault),
    (ok && p.hasB && i.okB &&
      !t.allIn ((List.range p.rows).filterMap fun k => (rowOfB p.op i.ha i.hb (p.row0 + k)).map (row e.ea1)), Code.boundFault),
    (!i.okA || !i.okB || !i.okD || i.short, Code.badOperand),
    (fam && !sklLayout p i.ha, Code.badOperand),
    (p.hasB && famB && !layoutOfB p i.hb, Code.badOperand),
    (p.op == 0x47 && sklFamily p.op i.hd.family && !layoutOfFamily i.hd, Code.badOperand),
    (ok && decide (p.limit i.ha < p.row0 + p.rows), Code.badOperand),
    (ok && !((List.range p.rows).all fun k => (t.modAt (p.mod + i.ha.limbOfRow (p.row0 + k))).valid), Code.badOperand),
    (ok && (p.op == 0x48 || dropsLimb p.op i.ha) && !t.modsOk p.mod i.ha.limbs, Code.badOperand),
    (ok && p.op == 0x49 && !dropsLimb p.op i.ha && !(t.modAt p.mod2).valid, Code.badOperand),
    (p.cacheRows.any fun r => decide (127 < r) || (t.crow v r).isNone, Code.badOperand),
    (p.op == 0x47 && !p.inter, Code.badOperand),
    (p.op == 0x40 && (p.close == 3 || (p.close == 1 && t.xe e.iw != 0)), Code.badOperand),
    (!fam, Code.paramMismatch),
    (p.op == 0x40 && p.close != 0 && i.ha.family == 0, Code.paramMismatch),
    (p.hasB && (!famB || !agreesB p i.ha i.hb), Code.paramMismatch),
    (p.op == 0x47 && (i.hd.psid != i.ha.psid || i.hd.layout != i.ha.layout || i.hd.rows != i.ha.rows ||
      decide (i.hd.scale > i.ha.scale + i.hb.scale + 256 ∨ i.ha.scale + i.hb.scale > i.hd.scale + 256)), Code.paramMismatch),
    (close2 && (!i.okX || i.hx.psid != i.ha.psid || i.hx.ktag != i.ha.ktag || decide (i.ha.scale < i.hx.scale)),
      Code.paramMismatch),
    (p.merge && !mergeOk (t.rd e.eaX.toNat 64) out.bytes, Code.paramMismatch),
    (tagBad tag i.ha || (p.hasB && tagBad tag i.hb) || (p.op == 0x47 && tagBad tag i.hd), Code.keyTagMismatch),
    ((p.op == 0x48 || dropsLimb p.op i.ha) && i.ha.level == 0, Code.levelExhausted),
    ((p.op == 0x45 || p.op == 0x47) && decide (t.scaleBound p i.ha < out.scale), Code.levelExhausted),
    (!p.inter && (overBudget out || t.belowScale p i.ha), Code.noiseBudget)]

/-! ## Execution -/

/-- The words of a row, when each is canonical (R49). -/
def Station.canonRow (t : Station) (q off : Nat) : Option (List Nat) :=
  let ws := t.row off
  if ws.all fun w => decide (w < q) then some ws else none

/-- The second input of row r: a row of B, a cache row, nothing, or none where a word is not canonical. -/
def Station.sklSecond (t : Station) (v : Fin 2) (p : Skl) (e : QEntry) (ha hb : Hdr) (q r : Nat) : Option (List Nat) :=
  if p.op = 0x44 then some ((t.crow v p.crow).map fun c => c.words.map BitVec.toNat |>.take 4).toList.flatten
  else if p.hasB then
    match rowOfB p.op ha hb r with
    | some rb => t.canonRow q (e.ea1.toNat + 512 + 512 * rb)
    | none => some []
  else if p.cacheRows.isEmpty then some []
  else t.coefs v p p.crow q

/-- The result words of a row x with second input y, and d for SMAC (Table 5.3). -/
def sklWords (p : Skl) (ha : Hdr) (q q2 r : Nat) (x y d : List Nat) : List Nat :=
  if p.op = 0x40 then List.zipWith (fun a b => (a + b) % q) x y
  else if p.op = 0x41 then List.zipWith (subMod q) x y
  else if p.op = 0x42 then x.map fun a => if a = 0 then 0 else q - a
  else if p.op = 0x43 then
    if y.isEmpty ∨ (p.body = true ∧ r % lweW ha.psid ≠ lweW ha.psid - 1) then x else List.zipWith (fun a b => (a + b) % q) x y
  else if p.op = 0x44 then
    x.zipIdx.map fun ai => if bitAt (y.getD (ai.2 / 32) 0) (ai.2 % 32) then subMod q 0 ai.1 else ai.1
  else if p.op = 0x47 then List.zipWith (· + ·) d (List.zipWith (· * ·) x y) |>.map (· % q)
  else if p.op = 0x49 then x.map fun a => (a * q2 + q / 2) / q % q2
  else List.zipWith (fun a b => a * b % q) x y

/-- One row of SRESCALE and of a limb drop: (a - [a_top]) × q_top^-1 mod q (Table 5.3). -/
def rescaleWords (q qTop : Nat) (x top : List Nat) : List Nat :=
  List.zipWith (fun a b => subMod q a (intMod q (centred qTop b)) * invMod q qTop % q) x top

/-- One output row: its place in DST's payload and its words; none where an input word is not canonical. A row of the top limb
of SRESCALE is read and writes nothing. -/
def Station.sklRow (t : Station) (v : Fin 2) (p : Skl) (e : QEntry) (ha hb : Hdr) (r : Nat) : Option (List (Nat × List Nat)) :=
  let src := e.ea0.toNat + 512
  if dropsLimb p.op ha then
    let q0 := (t.modAt p.mod).q
    let q1 := (t.modAt (p.mod + 1)).q
    match t.canonRow q0 (src + 512 * ha.dropRow r), t.canonRow q1 (src + 512 * (ha.dropRow r + ha.unitRows)) with
    | some x, some y => some [(r, rescaleWords q0 q1 x y)]
    | _, _ => none
  else if p.op = 0x48 then
    let q := (t.modAt (p.mod + ha.limbOfRow r)).q
    let qt := (t.modAt (p.mod + ha.level)).q
    let top := r / (ha.limbs * ha.limbRows) * (ha.limbs * ha.limbRows) + ha.level * ha.limbRows + r % ha.limbRows
    match t.canonRow q (src + 512 * r), t.canonRow qt (src + 512 * top) with
    | some x, some y => some ((dstRow p.op ha r).toList.map fun d => (d, rescaleWords q qt x y))
    | _, _ => none
  else
    let q := (t.modAt (p.mod + ha.limbOfRow r)).q
    let d := if p.op = 0x47 then t.canonRow q (e.eaX.toNat + 512 + 512 * r) else some []
    match t.canonRow q (src + 512 * r), t.sklSecond v p e ha hb q r, d with
    | some x, some y, some d => some [(r, sklWords p ha q (t.modAt p.mod2).q r x y d)]
    | _, _, _ => none

/-- One product sum of SSUM: row r of A with the coefficients of its group's cache row, unreduced (R96). -/
def Station.ssumTerm (t : Station) (v : Fin 2) (p : Skl) (e : QEntry) (ha : Hdr) (r : Nat) : Option Nat :=
  let rpg := ha.limbs * lweW ha.psid
  let q := (t.modAt (p.mod + ha.limbOfRow r)).q
  match t.canonRow q (e.ea0.toNat + 512 + 512 * r), t.coefs v p (p.crow + r / rpg % p.ch) q with
  | some x, some c => some (List.zipWith (· * ·) c x).sum
  | _, _ => none

/-- What SSUM writes: one word for each output element and row that its input rows reach (R96). -/
def Station.ssumWrites (t : Station) (v : Fin 2) (p : Skl) (e : QEntry) (ha : Hdr) : Option (List (Nat × List Byte)) :=
  let rpg := ha.limbs * lweW ha.psid
  let rs := (List.range p.rows).map (p.row0 + ·)
  (allSome (rs.map fun r => t.ssumTerm v p e ha r)).map fun terms =>
    let keyed := List.zip rs terms
    let outs := (rs.map fun r => (r / rpg / p.ch, r % rpg)).eraseDups
    outs.map fun ej =>
      let total := ((keyed.filter fun rt => (rt.1 / rpg / p.ch, rt.1 % rpg) == ej).map Prod.snd).sum
      let q := (t.modAt (p.mod + ha.limbOfRow ej.2)).q
      (e.eaX.toNat + 512 + (ej.1 / 128 * rpg + ej.2) * 512 + 4 * (ej.1 % 128), natLe 4 (total % q))

/-- What an operation writes to DST's payload. -/
def Station.sklWrites (t : Station) (v : Fin 2) (p : Skl) (e : QEntry) (ha hb : Hdr) : Option (List (Nat × List Byte)) :=
  if p.op = 0x4A then t.ssumWrites v p e ha
  else
    (allSome ((List.range p.rows).map fun k => t.sklRow v p e ha hb (p.row0 + k))).map fun rs =>
      rs.flatten.map fun dw => (e.eaX.toNat + 512 + 512 * dw.1, rowBytes dw.2)

/-- A Skillet operation: checks at issue, then its rows; a word that is not canonical faults as it enters (R49, R100). The rows
reach DST with the signal; until then they hold no defined contents (log entry 9). -/
def planSkillet (v : Fin 2) (s : State) (t : Station) (e : QEntry) : Plan :=
  let p := t.sklOf e.iw
  let ks := s.stnKeySet t
  let i := t.sklIn ks p e
  let eks := (ks.map KeySet.eKs).getD 0
  let out := t.sklHdr v p i.ha i.hb i.hx eks (Config.freeNat s.fresh)
  match sklFault t v p e i (s.stnTag t) out with
  | some c => .fault c
  | none =>
    match t.sklWrites v p e i.ha i.hb with
    | none => .fault Code.badOperand
    | some ws =>
      let n := if p.op = 0x4A then p.rows else ws.length
      .go { t.blur s.fresh ws with skillets := vupd t.skillets v fun k => { k with rows := wrapAdd k.rows n } }
        { e with hdrs := [⟨e.eaX.toNat, out.bytes, p.merge⟩], out := ws }

/-- SADD: a + b; with CLOSE it closes a key switch or a relinearised product (R248). -/
def execSadd (st : Fin 16) (g : Fin 2) (ecc : EccEvent) (s : State) : Host.Outcome State Fault Refusal := opRead st (qSkillet g) 0x40 ecc (planSkillet g) s
/-- SSUB: a - b. -/
def execSsub (st : Fin 16) (g : Fin 2) (ecc : EccEvent) (s : State) : Host.Outcome State Fault Refusal := opRead st (qSkillet g) 0x41 ecc (planSkillet g) s
/-- SNEG: q - a, or 0. -/
def execSneg (st : Fin 16) (g : Fin 2) (ecc : EccEvent) (s : State) : Host.Outcome State Fault Refusal := opRead st (qSkillet g) 0x42 ecc (planSkillet g) s
/-- SADDC: a + c from a packed plaintext or a cache row. -/
def execSaddc (st : Fin 16) (g : Fin 2) (ecc : EccEvent) (s : State) : Host.Outcome State Fault Refusal := opRead st (qSkillet g) 0x43 ecc (planSkillet g) s
/-- SNEGM: -a in the lanes of a mask. -/
def execSnegm (st : Fin 16) (g : Fin 2) (ecc : EccEvent) (s : State) : Host.Outcome State Fault Refusal := opRead st (qSkillet g) 0x44 ecc (planSkillet g) s
/-- SMUL: a × b. -/
def execSmul (st : Fin 16) (g : Fin 2) (ecc : EccEvent) (s : State) : Host.Outcome State Fault Refusal := opRead st (qSkillet g) 0x45 ecc (planSkillet g) s
/-- SMULC: a × c from a cache row. -/
def execSmulc (st : Fin 16) (g : Fin 2) (ecc : EccEvent) (s : State) : Host.Outcome State Fault Refusal := opRead st (qSkillet g) 0x46 ecc (planSkillet g) s
/-- SMAC: d + a × b. -/
def execSmac (st : Fin 16) (g : Fin 2) (ecc : EccEvent) (s : State) : Host.Outcome State Fault Refusal := opRead st (qSkillet g) 0x47 ecc (planSkillet g) s
/-- SRESCALE: the top limb is divided out. -/
def execSrescale (st : Fin 16) (g : Fin 2) (ecc : EccEvent) (s : State) : Host.Outcome State Fault Refusal := opRead st (qSkillet g) 0x48 ecc (planSkillet g) s
/-- SMODSW: a modulus switch, or the limb drop of PS-T3. -/
def execSmodsw (st : Fin 16) (g : Fin 2) (ecc : EccEvent) (s : State) : Host.Outcome State Fault Refusal := opRead st (qSkillet g) 0x49 ecc (planSkillet g) s
/-- SSUM: a weighted sum over the lanes. -/
def execSsum (st : Fin 16) (g : Fin 2) (ecc : EccEvent) (s : State) : Host.Outcome State Fault Refusal := opRead st (qSkillet g) 0x4A ecc (planSkillet g) s

/-- SLOAD loads K cache rows, tagged RES or SGN; an SGN value outside -2^15 to 2^15 faults as its row enters, and no further row
is written (R97). -/
def planSload (v : Fin 2) (_ : State) (t : Station) (e : QEntry) : Plan :=
  let p := t.sklOf e.iw
  match firstFault [(decide (e.ea0 % 512 ≠ 0), Code.alignFault), (!t.inWin e.ea0 (512 * p.k), Code.boundFault),
      (decide (128 < p.crow + p.k), Code.badOperand)] with
  | some c => .fault c
  | none =>
    let rows := (List.range p.k).map fun i => (p.crow + i, wordsOf (t.rd (e.ea0.toNat + 512 * i) 512))
    let good := rows.takeWhile fun r => !p.sgn || r.2.all fun w => decide (w.toInt.natAbs ≤ 2 ^ 15)
    let t' := { t with skillets := vupd t.skillets v fun k =>
      { k with cache := good.foldl (fun c r => c.put r.1 ⟨p.sgn, r.2⟩) k.cache } }
    if good.length = p.k then .go t' e else .stop t' Code.badOperand

/-- SLOAD. -/
def execSload (st : Fin 16) (g : Fin 2) (ecc : EccEvent) (s : State) : Host.Outcome State Fault Refusal := opRead st (qSkillet g) 0x4B ecc (planSload g) s

end Sys2Proof.Machine
end

