-- ==== Sys2Proof/Machine/Card.lean ====
section
/-! DEFINITION. Card.lean: CXPOSE, CAUTO and CPERM (R117 to R132). -/

namespace Sys2Proof.Machine

/-! ## Overlap (R129) -/

/-- The length of an object's range: header row and payload; the header row alone where its header fails R29. -/
def objLen (ok : Bool) (h : Hdr) : Nat := if ok then 512 + h.plen else 512

/-- OVERLAP for an operation that may run in place: ranges that share a byte, but for identical ranges of a payload of at most
256 KiB (R129). -/
def cardOverlap (inPlace : Bool) (src : Int) (n : Nat) (dst : Int) (m : Nat) : Bool :=
  overlaps src n dst m && !(inPlace && decide (src = dst ∧ n = m ∧ n ≤ 512 + 262144))

/-! ## CXPOSE (R120 to R123) -/

/-- The parameters of a CXPOSE (Table 7.2). -/
structure Cxp where
  toRow : Bool
  win : Bool
  walign : Bool
  merge : Bool
  pin : Nat
  ch : Nat
  k : Nat
  st : Nat
  pad : Nat
  wn : Nat
  deriving DecidableEq, Repr

/-- The parameters as the instruction gives them (Table 14.1, Table 14.2). -/
def Station.cxpOf (t : Station) (iw : BitVec 128) : Cxp where
  toRow := bitAt (modsOf iw) 0
  win := bitAt (modsOf iw) 1
  walign := bitAt (modsOf iw) 2
  merge := bitAt (modsOf iw) 3
  pin := t.param iw 0 16 + 1
  ch := t.param iw 16 12 + 1
  k := t.param iw 28 6 + 1
  st := t.param iw 34 6 + 1
  pad := t.param iw 40 6
  wn := t.param iw 46 16 + 1

/-- Wb: elements of one window. -/
def Cxp.wb (p : Cxp) : Nat := if p.walign then ceilDiv (p.k * p.ch) 128 * 128 else p.k * p.ch

/-- DCOUNT (R120). -/
def Cxp.dcount (p : Cxp) (h : Hdr) : Nat := if p.win then p.wn * p.wb else h.count

/-- src(o): the source element of output element o, or none for a zero element (R121). -/
def Cxp.srcOf (p : Cxp) (o : Nat) : Option Nat :=
  if !p.win then some o
  else
    let u := o % p.wb
    let pos : Int := ((o / p.wb * p.st + u / p.ch : Nat) : Int) - (p.pad : Int)
    if p.k * p.ch ≤ u ∨ pos < 0 ∨ (p.pin : Int) ≤ pos then none else some (pos.toNat * p.ch + u % p.ch)

/-- The destination header (R120, R128). -/
def Cxp.outHdr (p : Cxp) (h : Hdr) : Hdr := Hdr.sized { h with layout := if p.toRow then 2 else 3, count := p.dcount h }

/-- The source ranges a CXPOSE reads: every row of a WORD_MAJOR batch, or the rows of the elements it names. With WIN ON the rows of
elements that no window names are not read and not bound-checked (DESIGN CHOICE, log entry 46). -/
def Cxp.srcRanges (p : Cxp) (h : Hdr) (src : Int) : List (Int × Nat) :=
  if p.toRow then [(src + 512, h.plen)]
  else if p.win then
    let eb := lweElemBytes h.psid h.limbs
    ((List.range (p.dcount h)).filterMap p.srcOf).map fun x => (src + 512 + ((x * eb : Nat) : Int), eb)
  else [(src + 512, h.count * lweElemBytes h.psid h.limbs)]

/-- The issue-time checks of a CXPOSE (Table 7.4). Of a source of the wrong family the payload is bound-checked by its PLEN (R45); it
gives no output size, so the destination's range is then the header row alone (DESIGN CHOICE, log entry 46). -/
def cxposeFault (ks : Option KeySet) (tag : Word) (t : Station) (e : QEntry) : Option Byte :=
  let p := t.cxpOf e.iw
  let hb := t.rd e.ea0.toNat 64
  let h := Hdr.ofBytes hb
  let ok := hdrOk ks hb
  let fit := ok && h.family == 0
  let out := p.outHdr h
  firstFault [
    (decide (e.ea0 % 512 ≠ 0 ∨ e.ea1 % 512 ≠ 0), Code.alignFault),
    (!t.allIn [(e.ea0, 512), (e.ea1, 512)], Code.boundFault),
    (ok && !t.allIn (if fit then (e.ea1 + 512, out.plen) :: p.srcRanges h e.ea0 else [(e.ea0 + 512, h.plen)]), Code.boundFault),
    (cardOverlap false e.ea0 (objLen ok h) e.ea1 (if fit then 512 + out.plen else 512), Code.overlap),
    (!t.srcOk ks (d0Of e.iw) hb, Code.badOperand),
    (fit && decide (h.layout ≠ if p.toRow then 3 else 2), Code.badOperand),
    (p.win && p.toRow, Code.badOperand),
    (!p.win && t.param e.iw 0 62 != 0, Code.badOperand),
    (p.win && decide (p.k ≤ p.pad), Code.badOperand),
    (ok && p.win && decide (h.count < p.pin * p.ch), Code.badOperand),
    (h.family != 0, Code.paramMismatch),
    (fit && p.merge && !mergeOk (t.rd e.ea1.toNat 64) out.bytes, Code.paramMismatch),
    (tagBad tag h, Code.keyTagMismatch)]

/-- The bytes of word j of limb l of an LWE_ROW element. -/
def Station.rowWord (t : Station) (h : Hdr) (src x l j : Nat) : List Byte :=
  t.rd (src + 512 + x * lweElemBytes h.psid h.limbs + l * lweRows h.psid * 512 + 4 * j) 4

/-- The bytes of word j of limb l of a WORD_MAJOR element. -/
def Station.wmWord (t : Station) (h : Hdr) (src x l j : Nat) : List Byte :=
  t.rd (src + 512 + ((x / 128 * h.limbs + l) * lweW h.psid + j) * 512 + 4 * (x % 128)) 4

/-- The payload of a TO_WM: row j of a group holds word j of its 128 elements, zero elements and elements from DCOUNT on as
zero (R122). -/
def Station.toWm (t : Station) (p : Cxp) (h : Hdr) (src : Nat) : List Byte :=
  let dc := p.dcount h
  (List.range (ceilDiv dc 128)).flatMap fun g => (List.range h.limbs).flatMap fun l =>
    (List.range (lweW h.psid)).flatMap fun j => (List.range 128).flatMap fun i =>
      match (if g * 128 + i < dc then p.srcOf (g * 128 + i) else none) with
      | some x => t.rowWord h src x l j
      | none => zeros 4

/-- The payload of a TO_ROW: element by element, words from w on written as zero (R122). -/
def Station.toRowBytes (t : Station) (h : Hdr) (src : Nat) : List Byte :=
  (List.range h.count).flatMap fun x => (List.range h.limbs).flatMap fun l =>
    padTo (lweRows h.psid * 512) ((List.range (lweW h.psid)).flatMap fun j => t.wmWord h src x l j)

/-- The Card after an operation's rows went through it: the buffer holds the last of them, the route those of a CPERM, and the
destination holds no defined contents before the signal (R117, R131, log entry 9). -/
def Station.cardDone (t : Station) (fresh : Nat) (ws : List (Nat × List Byte)) (route : List Nat) : Station :=
  let bs := ws.flatMap Prod.snd
  { t.blur fresh ws with cardBuf := bs.drop (bs.length - 524288), cardRoute := route }

/-- CXPOSE moves words without computing on them, and does not check them (R117, R128). -/
def planCxpose (s : State) (t : Station) (e : QEntry) : Plan :=
  match cxposeFault (s.stnKeySet t) (s.stnTag t) t e with
  | some c => .fault c
  | none =>
    let p := t.cxpOf e.iw
    let h := Hdr.ofBytes (t.rd e.ea0.toNat 64)
    let out := p.outHdr h
    let bytes := if p.toRow then t.toRowBytes h e.ea0.toNat else t.toWm p h e.ea0.toNat
    .go (t.cardDone s.fresh [(e.ea1.toNat + 512, bytes)] [])
      { e with hdrs := [⟨e.ea1.toNat, out.bytes, p.merge⟩], rows := out.rows, out := [(e.ea1.toNat + 512, bytes)] }

/-- CXPOSE. -/
def execCxpose (st : Fin 16) (ecc : EccEvent) (s : State) : Host.Outcome State Fault Refusal := opRead st qCard 0x60 ecc planCxpose s

/-! ## CAUTO (R124, R125) -/

/-- X → X^g on one limb in coefficient order. -/
def autoCoef (q n g : Nat) (a : List Nat) : List Nat :=
  -- the source of output o is the i with g × i = o or o + N modulo 2N
  let pairs := a.zipIdx.map fun x => (g * x.2 % (2 * n), x.1)
  let low := Array.replicate n 0
  (pairs.foldl (fun (out : Array Nat) x =>
    if x.1 < n then out.setIfInBounds x.1 x.2 else out.setIfInBounds (x.1 - n) ((q - x.2) % q)) low).toList

/-- X → X^g on one limb in EVAL order: a permutation (R124). -/
def autoEval (logn g : Nat) (a : List Nat) : List Nat :=
  let arr := a.toArray
  let n := 2 ^ logn
  (List.range n).map fun i => arr.getD (brv logn ((g * (2 * brv logn i + 1) - 1) / 2 % n)) 0

/-- The issue-time checks of a CAUTO (Table 7.4). -/
def cautoFault (ks : Option KeySet) (tag : Word) (t : Station) (e : QEntry) : Option Byte :=
  let g := t.param e.iw 0 18
  let merge := t.param e.iw 18 1 == 1
  let hb := t.rd e.ea0.toNat 64
  let h := Hdr.ofBytes hb
  let ok := hdrOk ks hb
  let fit := ok && h.family != 0
  firstFault [
    (decide (e.ea0 % 512 ≠ 0 ∨ e.ea1 % 512 ≠ 0), Code.alignFault),
    (!t.allIn [(e.ea0, 512), (e.ea1, 512)], Code.boundFault),
    (ok && !t.allIn [(e.ea0 + 512, h.plen), (e.ea1 + 512, h.plen)], Code.boundFault),
    (cardOverlap true e.ea0 (objLen ok h) e.ea1 (objLen ok h), Code.overlap),
    (!t.srcOk ks (d0Of e.iw) hb, Code.badOperand),
    (fit && !layoutOfFamily h, Code.badOperand),
    (ok && decide (g % 2 = 0 ∨ 2 * h.n ≤ g), Code.badOperand),
    (ok && !t.modsOk (t.mod0 e.iw) h.limbs, Code.badOperand),
    (h.family == 0, Code.paramMismatch),
    (fit && !t.modsServe (t.mod0 e.iw) h.limbs (setLogN h.psid), Code.paramMismatch),
    (fit && merge && !mergeOk (t.rd e.ea1.toNat 64) h.sized.bytes, Code.paramMismatch),
    (tagBad tag h, Code.keyTagMismatch)]

/-- CAUTO: every limb of every polynomial is permuted; a word that is not canonical faults as it enters (R49, R128). -/
def planCauto (s : State) (t : Station) (e : QEntry) : Plan :=
  match cautoFault (s.stnKeySet t) (s.stnTag t) t e with
  | some c => .fault c
  | none =>
    let h := Hdr.ofBytes (t.rd e.ea0.toNat 64)
    let g := t.param e.iw 0 18
    let limbs := (List.range (h.polys * h.limbs)).map fun m =>
      ((t.modAt (t.mod0 e.iw + m % h.limbs)).q, t.limbAt (e.ea0.toNat + 512 + m * h.n * 4) h.n)
    if limbs.all fun l => l.2.all fun w => decide (w < l.1) then
      let out := limbs.map fun l => if h.layout = 1 then autoEval (setLogN h.psid) g l.2 else autoCoef l.1 h.n g l.2
      let ws := [(e.ea1.toNat + 512, out.flatMap rowBytes)]
      .go (t.cardDone s.fresh ws [])
        { e with hdrs := [⟨e.ea1.toNat, h.sized.bytes, t.param e.iw 18 1 == 1⟩], rows := h.rows, out := ws }
    else .fault Code.badOperand

/-- CAUTO. -/
def execCauto (st : Fin 16) (ecc : EccEvent) (s : State) : Host.Outcome State Fault Refusal := opRead st qCard 0x61 ecc planCauto s

/-! ## CPERM (R126, R127) -/

/-- Entry i of a CPERM's table. -/
def permEntry (bs : List Byte) (i : Nat) : Nat := field bs (2 * i) 2

/-- The SRC fields are a permutation of 0 to 127 (R126). -/
def permOk (bs : List Byte) : Bool :=
  (List.range 128).all fun j => ((List.range 128).map fun i => fld (permEntry bs i) 0 7).contains j

/-- The issue-time checks of a CPERM (Table 7.4). -/
def cpermFault (ks : Option KeySet) (tag : Word) (t : Station) (e : QEntry) : Option Byte :=
  let merge := bitAt (modsOf e.iw) 0
  let hb := t.rd e.ea0.toNat 64
  let h := Hdr.ofBytes hb
  let ok := hdrOk ks hb
  let tb := t.rd e.ea2.toNat 256
  firstFault [
    (decide (e.ea0 % 512 ≠ 0 ∨ e.ea1 % 512 ≠ 0 ∨ e.ea2 % 512 ≠ 0), Code.alignFault),
    (!t.allIn [(e.ea0, 512), (e.ea1, 512), (e.ea2, 512)], Code.boundFault),
    (ok && !t.allIn [(e.ea0 + 512, h.plen), (e.ea1 + 512, h.plen)], Code.boundFault),
    (cardOverlap true e.ea0 (objLen ok h) e.ea1 (objLen ok h), Code.overlap),
    (!t.srcOk ks (d0Of e.iw) hb, Code.badOperand),
    (h.family == 0 && h.layout != 3, Code.badOperand),
    (h.family == 2 && !layoutOfFamily h, Code.badOperand),
    (!permOk tb, Code.badOperand),
    ((List.range 128).any fun i => fld (permEntry tb i) 7 7 != 0, Code.badOperand),
    (ok && !t.modsOk (t.mod0 e.iw) h.limbs, Code.badOperand),
    (h.family == 1, Code.paramMismatch),
    (merge && !mergeOk (t.rd e.ea1.toNat 64) h.sized.bytes, Code.paramMismatch),
    (tagBad tag h, Code.keyTagMismatch)]

/-- One row through the table: moved, negated, zeroed (R126). -/
def permRow (q : Nat) (tb : List Byte) (row : List Nat) : List Nat :=
  (List.range 128).map fun i =>
    let en := permEntry tb i
    let x := row.getD (fld en 0 7) 0
    if bitAt en 14 then 0 else if bitAt en 15 then (q - x) % q else x

/-- CPERM applies its table to every payload row, whose modulus is that of R95. -/
def planCperm (s : State) (t : Station) (e : QEntry) : Plan :=
  match cpermFault (s.stnKeySet t) (s.stnTag t) t e with
  | some c => .fault c
  | none =>
    let h := Hdr.ofBytes (t.rd e.ea0.toNat 64)
    let tb := t.rd e.ea2.toNat 256
    let rows := (List.range h.rows).map fun r =>
      ((t.modAt (t.mod0 e.iw + h.limbOfRow r)).q, t.row (e.ea0.toNat + 512 + 512 * r))
    if rows.all fun r => r.2.all fun w => decide (w < r.1) then
      let ws := [(e.ea1.toNat + 512, rows.flatMap fun r => rowBytes (permRow r.1 tb r.2))]
      .go (t.cardDone s.fresh ws ((List.range 128).map fun i => fld (permEntry tb i) 0 7))
        { e with hdrs := [⟨e.ea1.toNat, h.sized.bytes, bitAt (modsOf e.iw) 0⟩], rows := h.rows, out := ws }
    else .fault Code.badOperand

/-- CPERM. -/
def execCperm (st : Fin 16) (ecc : EccEvent) (s : State) : Host.Outcome State Fault Refusal := opRead st qCard 0x62 ecc planCperm s

end Sys2Proof.Machine
end

