-- ==== Sys2Proof/Machine/FabCmd.lean ====
section
/-! DEFINITION. FabCmd.lean: FAB_CONFIG and FAB_STATUS (R286, R297, R298, R351). -/

namespace Sys2Proof.Machine

/-- A change of the module ID (R298): every port retrains, and the configuration block is to be written (R351). -/
def State.setModid (s : State) (m : Nat) : State :=
  if s.fab.assigned ∧ s.fab.modid.toNat = m then s
  else
    let s1 := { s with
      fab := { s.fab with assigned := true, modid := BitVec.ofNat 10 m }
      boot := { s.boot with dynSec := splice s.boot.dynSec 0 (natLe 2 (0x8000 + m)), cfgDirty := true } }
    (List.finRange 14).foldl State.retrain s1

/-- PORTMODE with a port's bit as given. -/
def modeBits (old p : Nat) (eth : Bool) : Nat := if bitAt old p = eth then old else if eth then old + 2 ^ p else old - 2 ^ p

/-- A port's mode and EtherType; a change of mode retrains the port (R297). -/
def State.setPort (s : State) (p : Fin 14) (eth : Bool) (etype : Nat) : State :=
  let x := s.fab.ports[p]
  let s1 := if x.eth = eth then s else (s.retrain p).updPort p fun x => { x with eth := eth }
  let s2 := s1.updPort p fun x => { x with etype := BitVec.ofNat 16 etype }
  let dyn := splice (splice s.boot.dynSec 2 (natLe 2 (modeBits (field s.boot.dynSec 2 2) p.val eth))) 4 (natLe 2 etype)
  if x.eth = eth ∧ x.etype.toNat = etype then s2
  else { s2 with boot := { s2.boot with dynSec := dyn, cfgDirty := true } }

/-- FAB_CONFIG: the module ID with PORT 0xFF, refused while a session is in use; otherwise one port. -/
def execFabConfig (f : Fin 64) (s : State) : Host.Outcome State Fault Refusal :=
  cmdRow f 0x60 [(0, 2), (2, 1), (3, 1), (4, 2)] true false (fun s r b =>
    let m := pay b 0 2
    if pay b 2 1 = 0xFF then
      if 1024 ≤ m then s.reply r Code.badOperand
      else if !s.noSession then s.reply r Code.busy
      else (s.setModid m).reply r Code.ok
    else if h : pay b 2 1 < 14 then
      if !s.portPresent ⟨pay b 2 1, h⟩ || decide (2 ≤ pay b 3 1) then s.reply r Code.badOperand
      else (s.setPort ⟨pay b 2 1, h⟩ (pay b 3 1 == 1) (pay b 4 2)).reply r Code.ok
    else s.reply r Code.badOperand) s

/-- STATE of Table 17.2. -/
def PState.code : PState → Nat
  | .disabled => 0
  | .down => 1
  | .train => 2
  | .align => 3
  | .cap => 4
  | .up => 5
  | .mismatch => 6

/-- FAB_PSTATE: PEER is valid in CAP and UP. -/
def Port.pstate (p : Port) : Nat :=
  let peer := if p.state = .up ∨ p.state = .cap then (p.peers.head?.map fun r => r.modid.toNat).getD 0 else 0
  p.ver.toNat * 2 ^ 24 + peer * 2 ^ 12 + b2n p.eth * 2 ^ 8 + p.state.code

/-- The 16 bytes of FAB_STATUS: FAB_PSTATE, FAB_LINKCNT, FAB_FRMCNT, FAB_STALE. -/
def Port.status (p : Port) : List Byte :=
  natLe 4 p.pstate ++ natLe 4 (p.replay.toNat * 2 ^ 16 + p.retrain.toNat * 2 ^ 8) ++
    natLe 4 (p.drop.toNat * 2 ^ 24 + p.rep.toNat * 2 ^ 16 + p.gap.toNat * 2 ^ 8) ++ natLe 4 p.stale.toNat

/-- FAB_STATUS. -/
def execFabStatus (f : Fin 64) (s : State) : Host.Outcome State Fault Refusal :=
  cmdRow f 0x61 [(0, 1)] true false (fun s r b =>
    if h : pay b 0 1 < 14 then
      if s.portPresent ⟨pay b 0 1, h⟩ then s.reply r Code.ok s.fab.ports[pay b 0 1].status else s.reply r Code.badOperand
    else s.reply r Code.badOperand) s

end Sys2Proof.Machine
end

