-- ==== Sys2Proof/Machine/Funnel.lean ====
section
/-! DEFINITION. Funnel.lean: key streams: the map cache, opening, page checks, seeded expansion, launch and closing (R146 to R164). -/

namespace Sys2Proof.Machine

/-! ## The map cache (R146, R150) -/

/-- Change a station's Funnel. -/
def State.updFunnel (s : State) (st : Fin 16) (f : Funnel → Funnel) : State := s.updStn st fun t => { t with funnel := f t.funnel }

/-- The cached entry of a map index. -/
def Funnel.cached (f : Funnel) (m : Nat) : Option KpmEntry := (f.cache.find? fun x => x.1 == m).map Prod.snd

/-- An entry comes into its set, most recently used; the least recently used of more than four leaves (R146). -/
def Funnel.fill (f : Funnel) (m : Nat) (e : KpmEntry) : Funnel :=
  let rest := f.cache.filter fun x => x.1 != m
  let keep := ((rest.filter fun x => x.1 % 1024 == m % 1024).take 3).map Prod.fst
  { f with cache := (m, e) :: rest.filter fun x => x.1 % 1024 != m % 1024 || keep.contains x.1 }

/-- A use of a cached entry makes it the most recently used. -/
def Funnel.touch (f : Funnel) (m : Nat) : Funnel :=
  match f.cached m with
  | some e => f.fill m e
  | none => f

/-- The address of map entry m as this Funnel's base registers give it. -/
def Funnel.mapAddr (f : Funnel) (m : Nat) : Nat := 2 ^ 20 * (f.base.toNat / 2 ^ 20) + 16 * m

/-- The aligned pair of entries comes into the cache, the one that was asked for most recently used (R150). -/
def Funnel.fillPair (f : Funnel) (m : Nat) (b : List Byte) : Funnel :=
  (f.fill (m / 2 * 2 + (1 - m % 2)) (KpmEntry.ofBytes (b.drop (16 * (1 - m % 2))))).fill m (KpmEntry.ofBytes (b.drop (16 * (m % 2))))

/-- A miss: it is counted, and one Sieve read brings the aligned pair, which fills the cache; none where the read is poisoned
(R150). -/
def State.mapMiss (s : State) (st : Fin 16) (m : Nat) : State × Option KpmEntry :=
  let r := (s.updFunnel st fun f => { f with miss := wrapAdd f.miss 1 }).sieve (s.stations[st].funnel.mapAddr (m / 2 * 2))
  match r.2 with
  | none => (r.1, none)
  | some b => (r.1.updFunnel st fun f => f.fillPair m b, some (KpmEntry.ofBytes (b.drop (16 * (m % 2)))))

/-- The map entry of a page: from the cache, or by one Sieve read (R150, R158). -/
def State.mapEntry (s : State) (st : Fin 16) (m : Nat) : State × Option KpmEntry :=
  match s.stations[st].funnel.cached m with
  | some e => (s.updFunnel st fun f => f.touch m, some e)
  | none => s.mapMiss st m

/-! ## Objects and parts -/

/-- The descriptor of an object (R148). -/
def Funnel.object (f : Funnel) (kind index : Nat) : Option ObjDesc := f.dir.find? fun d => d.kind == kind && d.index == index

/-- The part a stream delivers now. -/
def KeyStream.cur (x : KeyStream) : KeyPart := x.parts.getD x.part ⟨0, 0, 0, 0⟩

/-- The object a stream delivers now. -/
def Funnel.curObject (f : Funnel) (x : KeyStream) : Option ObjDesc := f.object x.cur.kind x.cur.index

/-- Samples of an object of the job's key set (Table 9.5). -/
def samplesOf (ks : KeySet) (kind index : Nat) : Nat :=
  let d := ks.digitPs
  if kind = 1 then lweN d * (2 * decLevels d)
  else if kind = 2 then 2 ^ setLogN d * ksLevels d
  else if kind = 3 then 1
  else if kind = 4 ∨ kind = 5 then ks.dnum
  else if index = 0 then 2 ^ setLogN d * ksLevels d
  else lweN d * 3

/-- Mask words of one sample and limb (Table 9.5). -/
def maskWords (ks : KeySet) (kind index : Nat) : Nat :=
  if kind = 1 then 2 ^ setLogN ks.digitPs
  else if kind = 2 ∨ (kind = 6 ∧ index = 0) then lweN ks.digitPs
  else 2 ^ setLogN ks.packedPs

/-- The unit of expansion number u in bus order: sample, limb, and the block of 128 mask words it takes, or none when it takes
the whole mask; with the body words it needs (Table 9.5). -/
def unitAt (ks : KeySet) (kind index limbs u : Nat) : Nat × Nat × Option Nat × Nat :=
  let m := maskWords ks kind index
  if kind = 1 then (u / limbs, u % limbs, none, m)
  else if kind = 2 ∨ (kind = 6 ∧ index = 0) then (u / limbs, u % limbs, none, 1)
  else if kind = 6 then (u / (m / 128), 0, some (u % (m / 128)), 128)
  else
    let d := samplesOf ks kind index
    let v := u % (m / 128 * d)
    (v % d, u / (m / 128 * d), some (v / d), 128)

/-- The mask words among the first `n` groups of SHAKE128 output: the low K bits of each group that are below q (R153). -/
def acceptedWords (input : List Byte) (q k n : Nat) : List Nat :=
  ((wordsOf (shake128 input (4 * n))).map fun w => w.toNat % 2 ^ k).filter fun w => decide (w < q)

/-- The first m accepted words, from as much output as that takes: the output is doubled until there are m (R153). -/
def sampleGo (input : List Byte) (q k m : Nat) : Nat → Nat → List Nat
  | 0, n => (acceptedWords input q k n).take m
  | fuel + 1, n =>
    let ws := acceptedWords input q k n
    if m ≤ ws.length then ws.take m else sampleGo input q k m fuel (2 * n)

/-- sample_mask(seed, r, l, q, K, m) (R153). -/
def sampleMask (seed : List Byte) (r l q k m : Nat) : List Nat := sampleGo (seed ++ natLe 4 r ++ natLe 2 l) q k m 64 (2 * m)

/-! ## Expansion (R153, R155) -/

/-- The words that one unit puts on the bus: mask and body in the order of its kind (Table 9.5). -/
def unitWords (ks : KeySet) (t : Station) (p : KeyPart) (seed : List Byte) (limbs u : Nat) (body : List Nat) : List Nat :=
  let x := unitAt ks p.kind p.index limbs u
  let m := t.modAt (p.mod + x.2.1)
  match x.2.2.1 with
  | none => sampleMask seed x.1 x.2.1 m.q m.k (maskWords ks p.kind p.index) ++ body
  | some b => body ++ (sampleMask seed x.1 x.2.1 m.q m.k (128 * (b + 1))).drop (128 * b)

/-- Bytes of mask that a unit expands. -/
def unitMaskBytes (ks : KeySet) (p : KeyPart) (limbs u : Nat) : Nat :=
  if (unitAt ks p.kind p.index limbs u).2.2.1.isSome then 512 else 4 * maskWords ks p.kind p.index

/-- The number of the sample-limb pair of a unit in bus order, as samples are dealt to a pool (R155). -/
def unitPair (ks : KeySet) (p : KeyPart) (limbs u : Nat) : Nat :=
  let x := unitAt ks p.kind p.index limbs u
  if p.kind = 1 ∨ p.kind = 2 ∨ p.kind = 6 then x.1 * limbs + x.2.1 else x.2.1 * samplesOf ks p.kind p.index + x.1

/-- The stations of a die whose Funnels are in its pool. -/
def State.poolOf (s : State) (die : Nat) : List (Fin 16) :=
  (List.finRange 16).filter fun st => st.val / 4 == die && s.stations[st].funnel.pooled

/-- The dies that have a member of a group. -/
def State.groupDies (s : State) (grp : Nat) : List Nat :=
  (((s.crown.groups.get? grp).map fun g => g.members.map fun m => m.val / 4).getD []).eraseDups

/-- Every die that delivers the stream expands the unit in its pool: the Funnel it is dealt to counts the bytes (R155). -/
def State.countExpand (s : State) (grp pair bytes : Nat) : State :=
  (s.groupDies grp).foldl (fun s die =>
    let pool := s.poolOf die
    match pool[pair % pool.length]? with
    | some st => s.updFunnel st fun f => { f with xbytes := wrapAdd f.xbytes bytes }
    | none => s) s

/-- Expand as many units as the body words that have arrived allow; a full object goes on the bus as stored. -/
def State.expandGo (ks : KeySet) (t : Station) (d : ObjDesc) : Nat → State → KeyStream → State × KeyStream
  | 0, s, x => (s, x)
  | fuel + 1, s, x =>
    let need := (unitAt ks x.cur.kind x.cur.index d.limbs x.unit).2.2.2
    if x.body.length < 4 * need ∨ need = 0 then (s, x)
    else
      let body := ofWords (wordsOf (x.body.take (4 * need)))
      let ws := unitWords ks t x.cur x.seed d.limbs x.unit body
      let s1 := s.countExpand x.grp (x.dealt + unitPair ks x.cur d.limbs x.unit) (unitMaskBytes ks x.cur d.limbs x.unit)
      State.expandGo ks t d fuel s1 { x with
        body := x.body.drop (4 * need)
        launch := x.launch ++ toWords ws
        unit := x.unit + 1
        pairs := max x.pairs (unitPair ks x.cur d.limbs x.unit + 1) }

/-- Expand what has arrived (R153): FORM 0 is delivered as stored. -/
def State.expand (s : State) (st : Fin 16) (ks : KeySet) (d : ObjDesc) (x : KeyStream) : State × KeyStream :=
  if d.form = 0 then (s, { x with launch := x.launch ++ wordsOf x.body, body := [] })
  else s.expandGo ks s.stations[st] d (x.body.length / 4 + 1) x

/-! ## Page checks (R149, R158 to R160) -/

/-- What a page header check finds: passed, or the code of its first failing step. -/
def pageCheck (tag : Word) (d : ObjDesc) (page : Nat) (e : KpmEntry) (hdr : List Byte) : Option Byte :=
  if !e.valid || e.loc == 3 then some Code.keyPageFault
  else if field hdr 60 4 != crc32c (hdr.take 60) then some Code.keyPageFault
  else if field hdr 0 4 != tag.toNat || e.ktag != tag then some Code.keyTagMismatch
  else if field hdr 4 1 != d.kind || field hdr 8 4 != d.index || field hdr 5 1 != d.form || field hdr 6 1 != d.psid ||
      field hdr 12 4 != page || field hdr 16 8 != 1048064 * page then some Code.keyPageFault
  else none

/-- The bytes of a page from its source: module memory, or what a peer or the host returned after the link's own recovery and
one retry. Poisoned data is MEM_POISON, a read that failed twice KEY_PAGE_FAULT (R161). -/
def State.pageBytes (s : State) (e : KpmEntry) (off len : Nat) (remote : PageRead) : State × Except Byte (List Byte) :=
  if e.loc = 0 then
    let r := s.memGet (e.paddr + off) len
    (r.1, match r.2 with | some b => .ok b | none => .error Code.memPoison)
  else
    match remote with
    | .bytes b => (s, .ok (slice b off len))
    | .poisoned => (s, .error Code.memPoison)
    | .failed => (s, .error Code.keyPageFault)

/-- One page's check: its map entry, then bytes 0 to 63 of its header, which the pre-check reads through the Sieve. -/
def State.checkPage (s : State) (st : Fin 16) (tag : Word) (d : ObjDesc) (page : Nat) (hdr : PageRead) (viaSieve : Bool) :
    State × Except Byte (KpmEntry × List Byte) :=
  let r := s.mapEntry st (d.first + page)
  match r.2 with
  | none => (r.1, .error Code.memPoison)
  | some e =>
    if !e.valid || e.loc == 3 then (r.1, .error Code.keyPageFault)
    else
      let s1 := if viaSieve && e.loc == 0 then (r.1.countSieve e.paddr).countSieve (e.paddr + 32) else r.1
      let b := s1.pageBytes e 0 64 hdr
      match b.2 with
      | .error c => (b.1, .error c)
      | .ok bs =>
        match pageCheck tag d page e bs with
        | some c => (b.1, .error c)
        | none => (b.1, .ok (e, bs))

/-- A stream fails: the lead records the code, every Funnel drops the object's entries, and the consumers' job ends ABORTED,
which closes the stream (R160). -/
def State.streamFail (s : State) (st : Fin 16) (code : Byte) (mapidx : Nat) (d : Option ObjDesc) : State :=
  let s1 := s.updFunnel st fun f => { f with code := code, mapidx := BitVec.ofNat 19 mapidx }
  let s2 := match d with
    | some d => s1.invalidate d.first d.pages
    | none => s1
  s2.instrFault st code

/-! ## FSTREAM and STREAM_OPEN (R151, R245) -/

/-- The parts of an FSTREAM: KEYREF descriptors from D1 on, with REP from its PARAM (R245). -/
def Station.partsOf (t : Station) (iw : BitVec 128) : List KeyPart :=
  (List.range (t.param iw 0 2 + 1)).map fun p =>
    let d := t.desc (d1Of iw + p)
    ⟨fld (dAddr d) 0 8, fld (dAddr d) 8 24, dMod d, t.param iw (2 + 8 * p) 8⟩

/-- The physical group that the GROUP descriptor D0 names (R231). -/
def Station.groupOf (t : Station) (iw : BitVec 128) : Nat := ((t.gmap[fld (dAddr (t.desc (d0Of iw))) 0 6]?).map Fin.val).getD 64

/-- A job may use its key set: it is ACTIVE, or was retired after the job's admission (R37, R38). -/
def keySetUsable (ks : Option KeySet) : Bool :=
  match ks with
  | some k => k.state == .active || k.state == .retired
  | none => false

/-- FSTREAM's own faults (Table 9.7). -/
def fstreamFault (ks : Option KeySet) (t : Station) (iw : BitVec 128) : Option Byte :=
  let parts := t.partsOf iw
  let limbs := fun (p : KeyPart) => ((t.funnel.object p.kind p.index).map (·.limbs)).getD 1
  firstFault [
    (parts.any fun p => p.rep == 0, Code.badOperand),
    (parts.any fun p => !t.modsOk p.mod (limbs p), Code.badOperand),
    (!keySetUsable ks, Code.keyUnverified),
    (parts.any fun p => (t.funnel.object p.kind p.index).isNone, Code.keyPageFault)]

/-- FSTREAM: its own faults arise at issue and are recorded by the lead; then it waits for the limits. -/
def execFstream (st : Fin 16) (s : State) : Host.Outcome State Fault Refusal :=
  occurs s (s.jobRuns s.stations[st] && (s.stations[st].issuedOp qFunnel 0x18).isSome) fun s =>
    match s.stations[st].issuedOp qFunnel 0x18 with
    | some (i, e) =>
      match fstreamFault (s.stnKeySet s.stations[st]) s.stations[st] e.iw with
      | some c => s.streamFail st c 0 none
      | none => s.startOp st qFunnel i (.go s.stations[st] { e with left := 1 })
    | none => s

/-- The stream of a group, with the station of its lead and its place among the streams that Funnel leads. -/
def State.streamOf (s : State) (grp : Nat) : Option (Fin 16 × Nat × KeyStream) :=
  (List.finRange 16).findSome? fun st =>
    (firstWith (fun (x : KeyStream) => x.grp == grp) s.stations[st].funnel.streams).map fun ix => (st, ix.1, ix.2)

/-- The first FSTREAM of the station that waits for the limits and passes them: fewer than eight open streams here, and none open
on its group anywhere (R151). -/
def State.openable (s : State) (st : Fin 16) : Option (Nat × QEntry) :=
  let t := s.stations[st]
  (firstWith (fun (e : QEntry) => e.phase == .running && opOf e.iw == 0x18 && e.left == 1 && e.done == 0) t.queues[qFunnel]).filter
    fun ie => decide (t.funnel.streams.length < 8) && (s.streamOf (t.groupOf ie.2.iw)).isNone

/-- STREAM_OPEN: the stream opens and its pre-check begins. -/
def execStreamOpen (st : Fin 16) (s : State) : Host.Outcome State Fault Refusal :=
  occurs s (s.jobRuns s.stations[st] && (s.openable st).isSome) fun s =>
    match s.openable st with
    | some (i, e) =>
      let t := s.stations[st]
      let x : KeyStream := {
        grp := t.groupOf e.iw
        phase := .precheck
        parts := t.partsOf e.iw
        rounds := t.param e.iw 34 16
        part := 0
        rep := 0
        round := 0
        unit := 0
        pages := 0
        rows := 0
        body := []
        launch := []
        seed := []
        dealt := 0
        pairs := 0 }
      s.putStn st { t.updAt qFunnel i (fun e => { e with done := 1 }) with
        funnel := { t.funnel with streams := t.funnel.streams ++ [x] } }
    | none => s

/-! ## PRECHECK_DONE, MAP_CACHE_FILL (R150, R158) -/

/-- The pages of every part of a stream, in part and page order. -/
def Funnel.pagesOf (f : Funnel) (x : KeyStream) : List (ObjDesc × Nat) :=
  x.parts.flatMap fun p => match f.object p.kind p.index with
    | some d => (List.range d.pages).map fun n => (d, n)
    | none => []

/-- Check every page in order; the first failure is the one reported (log entry 22). `hdrs` gives, page by page, what a peer or the
host returned. -/
def State.precheckGo (st : Fin 16) (tag : Word) :
    List (ObjDesc × Nat) → List PageRead → State → State × Option (Byte × ObjDesc × Nat)
  | [], _, s => (s, none)
  | (d, n) :: ps, hs, s =>
    let r := s.checkPage st tag d n (hs.headD .failed) true
    let rest := State.precheckGo st tag ps hs.tail r.1
    match r.2 with
    | .error c => (rest.1, some (c, d, n))
    | .ok _ => rest

/-- Change stream j of a station's Funnel. -/
def State.updStream (s : State) (st : Fin 16) (j : Nat) (f : KeyStream → KeyStream) : State :=
  s.updFunnel st fun x => { x with streams := lupd x.streams j f }

/-- The FSTREAM entry of a group's open stream has completed its pre-check: it signals next. -/
def Station.prechecked (t : Station) (grp : Nat) : Station :=
  { t with queues := vupd t.queues qFunnel fun l => l.map fun e =>
    if e.phase = .running ∧ opOf e.iw = 0x18 ∧ e.done = 1 ∧ t.groupOf e.iw = grp then { e with left := 0 } else e }

/-- The FSTREAM of a group whose stream is in its pre-check. -/
def Station.fstreamOf (t : Station) (grp : Nat) : Option QEntry :=
  t.queues[qFunnel].find? fun e => e.phase == .running && opOf e.iw == 0x18 && e.done == 1 && t.groupOf e.iw == grp

/-- PRECHECK_DONE: every page's map entry and header have been checked; the stream runs and its FSTREAM signals next, or FSTREAM raises
its signal and the stream fails with the code of the first failing page (R151, R158, R160). -/
def execPrecheckDone (st : Fin 16) (j : Nat) (hdrs : List PageRead) (s : State) : Host.Outcome State Fault Refusal :=
  occurs s (s.jobRuns s.stations[st] &&
      ((s.stations[st].funnel.streams[j]?).map fun x => x.phase == .precheck).getD false) fun s =>
    match s.stations[st].funnel.streams[j]? with
    | some x =>
      let r := State.precheckGo st (s.stnTag s.stations[st]) (s.stations[st].funnel.pagesOf x) hdrs s
      match r.2 with
      | some (c, d, n) =>
        let s1 := match s.stations[st].fstreamOf x.grp with
          | some e => r.1.raise st e.iw
          | none => r.1
        s1.streamFail st c (d.first + n) (some d)
      | none => (r.1.updStream st j fun x => { x with phase := .running }).updStn st fun t => t.prechecked x.grp
    | none => s

/-- A page among the next 16 of an open part that this Funnel leads: the entries that it reads ahead. The part now delivered goes on
from the pages that have arrived, another from its first page (R150). -/
def Funnel.walks (f : Funnel) (m : Nat) : Option ObjDesc :=
  f.streams.findSome? fun x => x.parts.zipIdx.findSome? fun p => (f.object p.1.kind p.1.index).filter fun d =>
    let next := d.first + (if p.2 = x.part then x.pages else 0)
    decide (next ≤ m ∧ m < next + 16 ∧ m < d.first + d.pages)

/-- MAP_CACHE_FILL: on a miss the aligned pair of entries is read through the Sieve and fills the cache; poisoned data ends the
stream (R150, R207). -/
def execMapCacheFill (st : Fin 16) (m : Nat) (s : State) : Host.Outcome State Fault Refusal :=
  occurs s (s.jobRuns s.stations[st] && (s.stations[st].funnel.walks m).isSome && (s.stations[st].funnel.cached m).isNone) fun s =>
    let r := s.mapMiss st m
    match r.2 with
    | none => r.1.streamFail st Code.memPoison m (s.stations[st].funnel.walks m)
    | some _ => r.1

/-! ## PAGE_ARRIVAL (R157, R159) -/

/-- Stream j of a station, when it delivers and its repetition has pages still to come. -/
def State.fetching (s : State) (st : Fin 16) (j : Nat) : Option (KeyStream × ObjDesc) :=
  let f := s.stations[st].funnel
  (f.streams[j]?).bind fun x =>
    if x.phase = .precheck then none
    else (f.curObject x).bind fun d => if x.pages < d.pages then some (x, d) else none

/-- Every row of the repetition has been launched. -/
def KeyStream.repDone (x : KeyStream) (d : ObjDesc) : Bool := x.pages == d.pages && decide (x.launch.length < 128)

/-- The stream goes on to its next repetition, part or round; none when its last round has ended or it is closing (R151). -/
def KeyStream.next (x : KeyStream) : Option KeyStream :=
  let y := { x with unit := 0, pages := 0, rows := 0, body := [], launch := [], dealt := x.dealt + x.pairs, pairs := 0 }
  if x.phase = .closing then none
  else if x.rep + 1 < x.cur.rep then some { y with rep := x.rep + 1 }
  else if x.part + 1 < x.parts.length then some { y with rep := 0, part := x.part + 1 }
  else if x.rounds = 0 ∨ x.round + 1 < x.rounds then some { y with rep := 0, part := 0, round := x.round + 1 }
  else none

/-- The FCLOSEs that wait for a group's stream signal next. -/
def Station.closedGroup (t : Station) (grp : Nat) : Station :=
  { t with queues := vupd t.queues qFunnel fun l => l.map fun e =>
    if e.phase = .running ∧ opOf e.iw = 0x19 ∧ t.groupOf e.iw = grp then { e with left := 0 } else e }

/-- A group's stream has closed: its lead drops it, and every FCLOSE that waits for it may signal (R151). -/
def State.closeStream (s : State) (st : Fin 16) (j : Nat) (grp : Nat) : State :=
  (s.updFunnel st fun f => { f with streams := f.streams.eraseIdx j }).mapStns
    (fun m => ((s.crown.groups.get? grp).map fun g => s.holds g.job m).getD false) fun t => t.closedGroup grp

/-- The lead's stream goes on: as it is, or, once its repetition is done, to the next one, or it closes. -/
def State.goOn (s : State) (st : Fin 16) (j : Nat) (d : ObjDesc) (x : KeyStream) : State :=
  if x.repDone d then
    match x.next with
    | some z => s.updStream st j fun _ => z
    | none => s.closeStream st j x.grp
  else s.updStream st j fun _ => x

/-- PAGE_ARRIVAL: the page's header is checked again; its payload is used only after it has passed, and is expanded into bus
order (R153, R159). -/
def execPageArrival (st : Fin 16) (j : Nat) (remote : PageRead) (s : State) : Host.Outcome State Fault Refusal :=
  occurs s (s.jobRuns s.stations[st] && (s.fetching st j).isSome) fun s =>
    match s.fetching st j, s.stnKeySet s.stations[st] with
    | some (x, d), some ks =>
      let r := s.checkPage st (s.stnTag s.stations[st]) d x.pages remote false
      match r.2 with
      | .error c => r.1.streamFail st c (d.first + x.pages) (some d)
      | .ok (e, hdr) =>
        let p := r.1.pageBytes e 512 (field hdr 24 4) remote
        match p.2 with
        | .error c => p.1.streamFail st c (d.first + x.pages) (some d)
        | .ok bs =>
          let s1 := p.1.updFunnel st fun f => { f with pagesOk := wrapAdd f.pagesOk 1 }
          let x1 := { x with pages := x.pages + 1, body := x.body ++ bs, seed := slice hdr 28 32 }
          let y := s1.expand st ks d x1
          y.1.goOn st j d y.2
    | _, _ => s

/-! ## Launch (R110, R152, R156, R157) -/

/-- An engine of a station that consumes a group's rows. -/
inductive Consumer where
  | griddle (g : Fin 2)
  | kettle (k : Fin 8)
  | blocker
  deriving DecidableEq, Repr

/-- A Griddle consumes the group: its running GKEYDOT names it. -/
def Station.gkdEntry (t : Station) (g : Fin 2) (grp : Nat) : Option QEntry :=
  ((t.runningOp (qGriddle g) [0x22]).filter fun ie => (t.grpOf ie.2.iw).map Fin.val == some grp).map Prod.snd

/-- A Kettle consumes the group: its running KREFRESH names it, or its last one did and the next in its queue does (R109). -/
def Station.ktlUses (t : Station) (k : Fin 8) (grp : Nat) : Bool :=
  let kt := t.kettles[k]
  kt.funcs != 0 && kt.grp == grp &&
    (kt.phase != .idle || t.queues[qKettle k].any fun e => opOf e.iw == 0x50 && (t.grpOf e.iw).map Fin.val == some grp)

/-- The consumers of a group on one station. -/
def Station.consumers (t : Station) (grp : Nat) : List Consumer :=
  ((List.finRange 2).filter fun g => (t.gkdEntry g grp).isSome).map Consumer.griddle ++
    ((List.finRange 8).filter fun k => t.ktlUses k grp).map Consumer.kettle ++
    (if t.blkEntry.isSome && t.blocker.grp == grp then [.blocker] else [])

/-- A consumer takes rows of an object: a GKEYDOT those of a relinearisation or rotation key (Table 2.4). -/
def Station.takes (t : Station) (c : Consumer) (p : KeyPart) : Bool :=
  match c with
  | .griddle _ => p.kind == 4 || p.kind == 5
  | .kettle k => (p.kind, p.index) == t.kettles[k].wants
  | .blocker => (t.blkEntry.map fun ie => (p.kind, p.index) == t.blkWants ie.2).getD false

/-- A consumer has room for a row: a Griddle in its 64 KiB key FIFO, for words its instruction still needs (R83). -/
def Station.roomFor (t : Station) (ks : Option KeySet) (grp : Nat) (c : Consumer) : Bool :=
  match c with
  | .griddle g =>
    let n := t.griddles[g].keyFifo.length
    decide (n + 128 ≤ 16384) &&
      ((t.gkdEntry g grp).map fun e => decide (n + 128 ≤ e.left * (256 * t.kdD e.iw))).getD false
  | .kettle k => t.kettles[k].room
  | .blocker => (t.blkEntry.map fun ie => t.blkRoom ks ie.2).getD false

/-- A consumer takes a row; none where a Blocker operand holds a word that is not canonical. -/
def Station.receive (t : Station) (ks : Option KeySet) (c : Consumer) (ws : List Word) : Option Station :=
  match c with
  | .griddle g => some (t.updGriddle g fun x => { x with keyFifo := x.keyFifo ++ ws })
  | .kettle k => some (t.updKettle k fun x => x.take ws)
  | .blocker => match t.blkEntry with
    | some (i, e) => t.blkTake ks i e ws
    | none => some t

/-- The members of a group that still hold the job's role, with their consumers. -/
def State.groupConsumers (s : State) (grp : Nat) : List (Fin 16 × Consumer) :=
  match s.crown.groups.get? grp with
  | some g => (g.members.filter fun m => s.holds g.job m).flatMap fun m => (s.stations[m].consumers grp).map fun c => (m, c)
  | none => []

/-- A row reaches one consumer: a part that is not the object it needs faults PARAM_MISMATCH (R152). -/
def State.deliver (p : KeyPart) (ws : List Word) (s : State) (mc : Fin 16 × Consumer) : State :=
  let t := s.stations[mc.1]
  if !s.jobRuns t then s
  else if !t.takes mc.2 p then s.instrFault mc.1 Code.paramMismatch
  else match t.receive (s.stnKeySet t) mc.2 ws with
    | some t' => s.putStn mc.1 t'
    | none => s.instrFault mc.1 Code.badOperand

/-- Every die that has a member can deliver the stream's current object: a seeded one needs an enabled Funnel in the die's pool
(R155). -/
def State.diesDeliver (s : State) (lead : Fin 16) (x : KeyStream) : Bool :=
  ((s.stations[lead].funnel.curObject x).map (·.form)).getD 0 == 0 || (s.groupDies x.grp).all fun d => !(s.poolOf d).isEmpty

/-- The row a group can launch: 128 words are queued, every die can deliver them, every consumer has room, and there is a consumer, or
the stream is closing (log entry 22). -/
def State.launchable (s : State) (grp : Nat) : Option (Fin 16 × Nat × KeyStream) :=
  (s.streamOf grp).filter fun l =>
    let cs := s.groupConsumers grp
    l.2.2.phase != .precheck && decide (128 ≤ l.2.2.launch.length) && (!cs.isEmpty || l.2.2.phase == .closing) &&
      s.diesDeliver l.1 l.2.2 && cs.all fun c => s.stations[c.1].roomFor (s.stnKeySet s.stations[c.1]) grp c.2

/-- The lead's stream after a row has launched. -/
def State.launched (s : State) (st : Fin 16) (j : Nat) (x : KeyStream) : State :=
  match s.stations[st].funnel.curObject x with
  | none => s
  | some d => s.goOn st j d { x with launch := x.launch.drop 128, rows := x.rows + 1 }

/-- KEY_ROW_LAUNCH: a row is delivered on every segment of its group in one ACLK. `waits` is how long the segment of each compute die
held a granted slot idle; a segment of the group counts it in FNL_SLOTWAIT of its die's Funnels (R157). -/
def execKeyRowLaunch (grp : Fin 64) (wait : List Nat) (s : State) : Host.Outcome State Fault Refusal :=
  occurs s (s.launchable grp.val).isSome fun s =>
    match s.launchable grp.val with
    | none => s
    | some (st, j, x) =>
      let s1 := (s.groupDies grp.val).foldl (fun s d => s.mapStns (fun m => m.val / 4 == d) fun t =>
        { t with funnel := { t.funnel with slotwait := wrapAdd t.funnel.slotwait (wait.getD d 0) } }) s
      let s2 := (s.groupConsumers grp.val).foldl (State.deliver x.cur (x.launch.take 128)) s1
      if s2.jobRuns s2.stations[st] then s2.launched st j x else s2

/-! ## FCLOSE (R151, R245) -/

/-- The FCLOSE that has issued, unless its group's stream is still in its pre-check. -/
def State.closable (s : State) (st : Fin 16) : Option (Nat × QEntry) :=
  (s.stations[st].issuedOp qFunnel 0x19).filter fun ie =>
    ((s.streamOf (s.stations[st].groupOf ie.2.iw)).map fun l => l.2.2.phase != .precheck).getD true

/-- FCLOSE: a group with no open stream signals at once; a stream of whose repetition no row has launched closes at once; any
other closes at the end of the repetition in progress. -/
def execFclose (st : Fin 16) (s : State) : Host.Outcome State Fault Refusal :=
  occurs s (s.jobRuns s.stations[st] && (s.closable st).isSome) fun s =>
    match s.closable st with
    | none => s
    | some (i, e) =>
      let grp := s.stations[st].groupOf e.iw
      match s.streamOf grp with
      | none => s.startOp st qFunnel i (.go s.stations[st] e)
      | some (lead, j, x) =>
        let s1 := s.startOp st qFunnel i (.go s.stations[st] { e with left := 1 })
        if x.rows = 0 then s1.closeStream lead j grp else s1.updStream lead j fun y => { y with phase := .closing }

end Sys2Proof.Machine
end

