-- ==== Sys2Proof/Machine/Mailbox.lean ====
section
/-! DEFINITION. Mailbox.lean: what the host and Band do at a function's mailbox page: rings, doorbells, request entries and their
receipts, completion entries, vector 0 (R277 to R285, R294, R295). -/

namespace Sys2Proof.Machine

/-! ## Enabling the rings (R278) -/

/-- EN goes from 0 to 1: the rings start empty and the counters at 0. -/
def Mbx.start (m : Mbx) : Mbx :=
  { m with
    en := true
    rqHead := 0
    rqTail := 0
    cqHead := 0
    cqTail := 0
    rxnext := 0
    txnext := 0
    phase := true
    index := 0
    check := 0
    alive := 0
    bells := 0
    fetching := false
    block := 0
    blockBad := false
    exam := none }

/-- EN goes from 1 to 0: fetching stops, and what is not yet written is discarded. -/
def Mbx.halt (m : Mbx) : Mbx :=
  { m with en := false, fetching := false, bells := 0, block := 0, blockBad := false, exam := none, replies := [] }

/-- The coalescing fields that MBX_CTRL holds. -/
def Mbx.setCoal (m : Mbx) (val : Word) : Mbx :=
  { m with coalt := BitVec.ofNat 16 (fld val.toNat 16 16), coaln := BitVec.ofNat 8 (fld val.toNat 8 8) }

/-- MBX_CTRL_WRITE: the coalescing fields, and EN. -/
def execMbxCtrlWrite (f : Fin 64) (val : Word) (s : State) : Host.Outcome State Fault Refusal :=
  occurs s s.linkUp fun s =>
    let s1 := s.updMbx f fun m => m.setCoal val
    let en := bitAt val.toNat 0
    let s2 :=
      if en && !s.mbx[f].en then s1.updMbx f Mbx.start
      else if !en && s.mbx[f].en then (s1.dropReplies f).updMbx f Mbx.halt
      else s1
    s2.signalCheck f

/-! ## Doorbells and requests (R282, R283) -/

/-- DOORBELL: a write of MBX_RQ_TAIL; while EN is 0 it is not fetched and not remembered. -/
def execDoorbell (f : Fin 64) (val : Word) (s : State) : Host.Outcome State Fault Refusal :=
  occurs s s.linkUp fun s => s.updMbx f fun m =>
    let m1 := { m with rqTail := val.setWidth 8 }
    if m.en then { m1 with bells := m.bells + 1, fetching := true } else m1

/-- The hardware writes MBX_RECEIPT; a receipt that covers a result other than PASS raises vector 1 (R283). -/
def State.receipt (s : State) (f : Fin 64) : State :=
  let bad := s.mbx[f].blockBad
  let s1 := s.updMbx f fun m =>
    { m with
      rseq := wrapAdd m.rseq m.bells
      index := (m.exam.map fun x => x.1).getD m.index
      check := (m.exam.map fun x => x.2.1).getD m.check
      alive := (m.exam.map fun x => x.2.2).getD m.alive
      exam := none
      bells := 0
      block := 0
      blockBad := false }
  if bad then s1.msi f 1 else s1

/-- The result of a request entry's checks (Table 16.5), as MBX_RECEIPT.CHECK codes it. -/
def Mbx.checkEntry (m : Mbx) (b : List Byte) : Nat :=
  if field b 0xFC 4 != crc32c (b.take 0xFC) then 3
  else match aliveClass 16 m.rxnext.toNat (field b 0xFA 2) with
    | .pass => 0
    | .rep => 1
    | .gap => 2

/-- The page after an entry has been examined: counters, indices and counts of Table 16.5. Crown gets the entry with its alive value
and its CRC stripped (R321). -/
def Mbx.examined (m : Mbx) (res : Nat) (alive : BitVec 16) (b : List Byte) : Mbx :=
  let m1 := { m with
    exam := some (m.rqHead, BitVec.ofNat 2 res, alive)
    block := m.block + 1
    blockBad := m.blockBad || res != 0 }
  match res with
  | 0 => { m1 with rxnext := m.rxnext + 1, rqHead := m.rqHead + 1, taken := m.taken ++ [⟨m.rqHead, b.take 0xFA ++ zeros 6⟩] }
  | 1 => { m1 with rqHead := m.rqHead + 1, repCnt := satAdd m.repCnt 1 }
  | 2 => { m1 with fetching := false, gapCnt := satAdd m.gapCnt 1 }
  | _ => { m1 with fetching := false, crcCnt := satAdd m.crcCnt 1 }

/-- The NOTE of a check count that has just saturated (R382). -/
def State.noteMbx (s : State) (f : Fin 64) (old : Mbx) : State :=
  let new := s.mbx[f]
  let note := fun (b : Bool) (n : Nat) (s : State) => s.noteIf b (satKey 4 f.val n) 4 (BitVec.ofNat 8 f.val) 0xFF 0x34
  note (justSat old.crcCnt new.crcCnt) 2 (note (justSat old.repCnt new.repCnt) 1 (note (justSat old.gapCnt new.gapCnt) 0 s))

/-- A fetched entry is examined. A read that failed at the host link is a CRC result with an INTERNAL note; its ALIVE is not
known. -/
def State.examine (s : State) (f : Fin 64) (entry : HostRead) : State :=
  let old := s.mbx[f]
  let s1 := match entry.filter fun b => b.length == 256 with
    | some b => s.updMbx f fun m => m.examined (m.checkEntry b) (BitVec.ofNat 16 (field b 0xFA 2)) b
    | none =>
      ((s.updMbx f fun m => m.examined 3 ((Config.freeWord s.fresh).setWidth 16) []).logEvt
        (plainEvt clsNote Code.internal 4 (BitVec.ofNat 8 f.val) 0xFF [])).tick
  (s1.noteMbx f old).settle f

/-- After an entry: the fetch stops at the tail, and a receipt covers a block of 16 or a stop. -/
def State.afterEntry (s : State) (f : Fin 64) : State :=
  let s1 := if s.mbx[f].rqHead = s.mbx[f].rqTail then s.updMbx f fun m => { m with fetching := false } else s
  if s1.mbx[f].block = 16 || !s1.mbx[f].fetching then s1.receipt f else s1

/-- REQUEST_ENTRY_FETCH: the next entry is examined, or, when none is new, a receipt covers the doorbells. -/
def execRequestEntryFetch (f : Fin 64) (entry : HostRead) (s : State) : Host.Outcome State Fault Refusal :=
  occurs s (s.ready && s.mbx[f].en && s.mbx[f].fetching) fun s =>
    if s.mbx[f].rqHead = s.mbx[f].rqTail then (s.updMbx f fun m => { m with fetching := false }).receipt f
    else (s.examine f entry).afterEntry f

/-! ## Completions (R280, R281, R295) -/

/-- MBX_CQ_HEAD_WRITE: the host has consumed entries. -/
def execMbxCqHeadWrite (f : Fin 64) (val : Word) (s : State) : Host.Outcome State Fault Refusal :=
  occurs s s.linkUp fun s => s.updMbx f fun m => { m with cqHead := val.setWidth 8 }

/-- COMPLETION_ENTRY_WRITE: the oldest reply or completion is written once the ring has room. -/
def execCompletionEntryWrite (f : Fin 64) (s : State) : Host.Outcome State Fault Refusal :=
  occurs s (s.linkUp && s.mbx[f].en && !s.mbx[f].replies.isEmpty && s.mbx[f].room) fun s => s.writeEntry f

/-- VECTOR_0_TIMER: COALT has passed since the first unsignalled entry. -/
def execVector0Timer (f : Fin 64) (s : State) : Host.Outcome State Fault Refusal :=
  occurs s (s.linkUp && decide (0 < s.mbx[f].unsignalled) && s.mbx[f].coalt != 0) fun s => s.signal0 f

/-! ## Bad accesses and counts (R277, R283) -/

/-- BAR0_BAD_ACCESS: a read completes with Unsupported Request, a write is dropped; a NOTE is logged either way. -/
def execBar0BadAccess (f : Fin 64) (_off : Nat) (isRead : Bool) (s : State) : Host.Outcome State Fault Refusal :=
  occurs s s.linkUp fun s =>
    let s1 := if isRead then s.toHost (.cplUR f) else s
    s1.logEvt (plainEvt clsNote Code.badOperand 4 (BitVec.ofNat 8 f.val) 0xFF [])

/-- MBX_CHKCNT_CLR: the three counts are zeroed. -/
def execMbxChkcntClr (f : Fin 64) (s : State) : Host.Outcome State Fault Refusal :=
  occurs s s.linkUp fun s =>
    (s.updMbx f fun m => { m with crcCnt := 0, repCnt := 0, gapCnt := 0 }).unmark
      [satKey 4 f.val 0, satKey 4 f.val 1, satKey 4 f.val 2]

end Sys2Proof.Machine
end

