-- ==== Sys2Proof/Machine/Monitors.lean ====
section
/-! DEFINITION. Monitors.lean: monitor units, snapshots, and the quarantine pass (R84, R375 to R381, R385 to R387). -/

namespace Sys2Proof.Machine

/-! ## Configuration (R375, R379) -/

/-- EN. -/
def MonUnit.en (u : MonUnit) : Bool := bitAt u.cfga.toNat 31
/-- LOG. -/
def MonUnit.log2 (u : MonUnit) : Bool := bitAt u.cfga.toNat 30
/-- CLRSNAP. -/
def MonUnit.clrSnap (u : MonUnit) : Bool := bitAt u.cfga.toNat 29
/-- SRC. -/
def MonUnit.src (u : MonUnit) : Nat := fld u.cfga.toNat 16 8
/-- INST. -/
def MonUnit.inst (u : MonUnit) : Nat := fld u.cfga.toNat 0 16
/-- LO: only [4:0] under LOG. -/
def MonUnit.lo (u : MonUnit) : Nat := if u.log2 then u.cfgb.toNat % 32 else u.cfgb.toNat

/-- Sources without an INST in Table 22.1. -/
def srcAlone (src : Nat) : Bool := [0x0B, 0x12, 0x13, 0x14].contains src

/-- The source and its place exist on this module (Table 22.1). -/
def Grade.srcOk (g : Grade) (src i : Nat) : Bool :=
  if [0x01, 0x02, 0x10].contains src then decide (i < 8) && bitAt g.sites.toNat i
  else if src = 3 then
    decide (i < 256 ∧ fld i 2 2 = 0) || (decide (i / 256 = 1 ∧ fld i 7 1 = 0 ∧ fld i 3 1 = 0 ∧ fld i 4 3 < 4) &&
      bitAt g.iodies.toNat (fld i 4 3))
  else if src = 4 then decide (i < 256 ∧ fld i 3 1 = 0)
  else if src = 5 ∨ src = 6 then decide (i < 16)
  else if src = 7 then decide (i < 14) && bitAt g.iodies.toNat (if i < 2 then 0 else (i + 2) / 4)
  else if src = 8 ∨ src = 9 ∨ src = 0x0A then decide (i < 64)
  else if src = 0x11 then decide (i < 4) || (decide (i < 8) && bitAt g.iodies.toNat (i - 4))
  else srcAlone src

/-- MON_STAT.ACTIVE. -/
def MonUnit.active (u : MonUnit) (g : Grade) : Bool := u.en && g.srcOk u.src u.inst && u.cfgc != 0

/-- Accumulated values cleared: MIN all ones, the rest 0 (R377). -/
def MonUnit.clear (u : MonUnit) : MonUnit :=
  { MonUnit.reset with cfga := u.cfga, cfgb := u.cfgb, cfgc := u.cfgc }

/-- MON_CFG_WRITE: the register takes the value, and the unit is cleared. -/
def execMonCfgWrite (u : Fin 64) (reg : MonReg) (val : Word) (s : State) : Host.Outcome State Fault Refusal :=
  occurs s s.linkUp fun s => { s with mon := { s.mon with units := vupd s.mon.units u fun x =>
    (match reg with
      | .cfga => { x with cfga := val &&& 0xE0FFFFFF }
      | .cfgb => { x with cfgb := val }
      | .cfgc => { x with cfgc := val }).clear } }

/-! ## Samples (R376 to R378) -/

/-- The histogram bin of a sample. -/
def MonUnit.bin (u : MonUnit) (v : Nat) : Nat :=
  if u.log2 then (if v < 2 ^ u.lo then 0 else min 31 (Nat.log2 v + 1 - u.lo))
  else if v < u.lo then 0 else min 31 ((v - u.lo) / u.cfgc.toNat)

/-- A sample would take COUNT, SUM or its bin past the maximum. -/
def MonUnit.full (u : MonUnit) (v : Nat) : Bool :=
  decide (u.count.toNat + 1 = 2 ^ 48 ∨ 2 ^ 64 ≤ u.sum.toNat + v) || u.bins.toList.getD (u.bin v) 0 == 0xFFFFFFFF

/-- The unit takes a sample. -/
def MonUnit.take (u : MonUnit) (v : Nat) : MonUnit :=
  { u with
    mn := BitVec.ofNat 32 (min u.mn.toNat v)
    mx := BitVec.ofNat 32 (max u.mx.toNat v)
    count := u.count + 1
    sum := u.sum + BitVec.ofNat 64 v
    bins := vupdN u.bins (u.bin v) fun x => x + 1 }

/-- One unit meets a sample: it stops at saturation, which is logged once (R378). -/
def State.monSample (s : State) (u : Fin 64) (v : Nat) : State :=
  let x := s.mon.units[u]
  if x.sat then s
  else if x.full v then
    let s1 := { s with mon := { s.mon with units := vupd s.mon.units u fun y => { y with sat := true, satLogged := true } } }
    if x.satLogged then s1
    else (s1.logEvt (plainEvt clsNote s1.someCode 0 (BitVec.ofNat 8 u.val) 0xFF (natLe 4 (0x1040C + 0x10 * u.val)))).tick
  else { s with mon := { s.mon with units := vupd s.mon.units u fun y => y.take v } }

/-- The unit watches a source. -/
def MonUnit.watches (u : MonUnit) (g : Grade) (src i : Nat) : Bool :=
  u.active g && u.src == src && (srcAlone src || u.inst == i)

/-- MONITOR_SAMPLE: every active unit that watches the source takes it; a sample saturates at 32 bits. -/
def execMonitorSample (src inst v : Nat) (s : State) : Host.Outcome State Fault Refusal :=
  occurs s (s.linkUp && s.grade.srcOk src inst) fun s =>
    (List.finRange 64).foldl (fun s u =>
      if s.mon.units[u].watches s.grade src inst then s.monSample u (min v 0xFFFFFFFF) else s) s

/-! ## Snapshots (R380, Table 22.2) -/

/-- MON_SNAPSHOT. -/
def execMonSnapshot (f : Fin 64) (s : State) : Host.Outcome State Fault Refusal :=
  cmdRow f 0x08 [(0, 8), (8, 8)] true false (fun s r b =>
    let n := s.mon.snapNo + 1
    let x : SnapReq := ⟨r, BitVec.ofNat 64 (pay b 0 8), pay b 8 8, n⟩
    ({ s with
      mon := { s.mon with snapNo := n }
      crown := { s.crown with snaps := s.crown.snaps ++ [x] } }).reply r Code.accepted) s

/-- The clock code of a source. -/
def srcClock (src i : Nat) : Nat :=
  if src = 1 ∨ src = 2 then 2
  else if src = 3 then (if 256 ≤ i then 3 else 0)
  else if src = 4 ∨ src = 5 then 0
  else if src = 6 then 1
  else if src = 7 ∨ src = 0x0B then 3
  else if src = 8 ∨ src = 9 ∨ src = 0x0A then 4
  else 6

/-- A unit's record. -/
def MonUnit.record (x : MonUnit) (g : Grade) (u : Nat) (num : Word) : List Byte :=
  let live := x.active g
  natLe 1 u ++ natLe 1 x.src ++ natLe 2 x.inst ++ natLe 1 (if live then srcClock x.src x.inst else 0) ++
    natLe 1 (b2n live + 2 * b2n x.sat + 4 * b2n x.log2 + 8 * b2n x.clrSnap) ++ zeros 2 ++ natLe 4 num.toNat ++
    natLe 4 x.mn.toNat ++ natLe 4 x.mx.toNat ++ zeros 4 ++ natLe 8 x.count.toNat ++ natLe 8 x.sum.toNat ++
    natLe 4 x.cfgb.toNat ++ natLe 4 x.cfgc.toNat ++ bytesOf x.bins.toList ++ zeros 80

/-- The records of one command leave for the host and into BAR0, in ascending unit order. -/
def State.snapWrite (s : State) (q : SnapReq) : State :=
  (bitsSet 64 q.mask.toNat).zipIdx.foldl (fun s x =>
    let rc := (s.mon.units.toList.getD x.1 MonUnit.reset).record s.grade x.1 q.num
    { s with mon := { s.mon with area := s.mon.area.put x.1 rc } }.toHost (.write q.ref.f (q.addr + 256 * x.2) rc)) s

/-- Units named with CLRSNAP clear in the latch cycle. -/
def State.snapClear (s : State) (q : SnapReq) : State :=
  let f := fun (u : Fin 64) =>
    if bitAt q.mask.toNat u.val && s.mon.units[u].clrSnap then s.mon.units[u].clear else s.mon.units[u]
  { s with mon := { s.mon with units := Vector.ofFn f } }

/-- SNAPSHOT_FREEZE: the oldest command's freeze edge. -/
def execSnapshotFreeze (s : State) : Host.Outcome State Fault Refusal :=
  occurs s (s.ready && !s.crown.snaps.isEmpty) fun s =>
    match s.crown.snaps with
    | [] => s
    | q :: rest =>
      ((({ s with crown := { s.crown with snaps := rest } }.snapWrite q).snapClear q).complete q.ref Code.ok)

/-! ## Quarantine (R385, R386) -/

/-- A Griddle is held until the next warm reset; its column group is to be bypassed from then on (R84, R351). -/
def State.hold (s : State) (st : Fin 16) (g : Fin 2) : State :=
  let p := s.stations[st].griddles[g].pending ||| s.stations[st].chk[(⟨g.val, by omega⟩ : Fin 12)].groups
  let s1 := s.updStn st fun t => { t with griddles := vupd t.griddles g fun x => { x with held := true, pending := p } }
  { s1 with boot := { s1.boot with
    dynSec := splice s1.boot.dynSec (8 + 2 * (2 * st.val + g.val)) (natLe 2 p.toNat)
    cfgDirty := true } }.unitEvent st g.val

/-- The masks of a Griddle's failures name a single group, and its bypass leaves at least 64 columns. -/
def State.holdable (s : State) (st : Fin 16) (g : Fin 2) : Bool :=
  let gr := s.stations[st].chk[(⟨g.val, by omega⟩ : Fin 12)].groups
  let p := s.stations[st].griddles[g].pending ||| gr
  popCount 16 gr.toNat == 1 && decide (popCount 16 p.toNat ≤ 8)

/-- A checked engine reaches a condition of Table 22.5. -/
def ChkCnt.exceeds (c : ChkCnt) : Bool := decide (2 ≤ c.fails.toNat ∨ c.last.toNat + 4096 ≤ c.replays.toNat)

/-- Table 22.5 on one engine. An engine that is out of service already stays as it is. -/
def State.judge (s : State) (st : Fin 16) (e : Nat) : State :=
  if bitAt s.crown.quar[st].toNat e then s
  else if h : e < 12 then
    let c := s.stations[st].chk[(⟨e, h⟩ : Fin 12)]
    if h2 : e < 2 then
      let g : Fin 2 := ⟨e, h2⟩
      if !s.griddleOn st g || !c.exceeds then s
      else if 2 ≤ c.fails.toNat ∧ s.holdable st g = true then s.hold st g
      else s.quarantine st e
    else if c.exceeds then s.quarantine st e else s
  else if 2 ≤ s.stations[st].internals.getD e 0 then s.quarantine st e
  else s

/-- A station with four uncorrectable words is withdrawn. -/
def State.withdraw (s : State) (st : Fin 16) : State :=
  if 4 ≤ s.stations[st].pantry.uncorr.toNat ∧ bitAt s.crown.withdrawn.toNat st.val = false then
    ({ s with crown := { s.crown with withdrawn := s.crown.withdrawn ||| BitVec.ofNat 16 (2 ^ st.val) } }).unitEvent st 22
  else s

/-- One station in a pass: its engines in ascending index, then the station; the counts read are kept. -/
def State.passStn (s : State) (st : Fin 16) : State :=
  (((List.range 22).foldl (fun s e => s.judge st e) s).withdraw st).updStn st fun t =>
    { t with chk := t.chk.map fun c => { c with last := c.replays } }

/-- QUARANTINE_PASS. -/
def execQuarantinePass (s : State) : Host.Outcome State Fault Refusal :=
  occurs s (s.ready && !s.boot.recovery) fun s => (List.finRange 16).foldl State.passStn s

end Sys2Proof.Machine
end

