-- ==== Sys2Proof/Machine/Regs.lean ====
section
/-! DEFINITION. Regs.lean: REGISTER_WRITE and the CLR bits of the counts (R6, R60, R61, R84, R147, R168, R170, R181, R201, R206, R215,
R278, R302, R303, R313, R324, R360, R364). -/

namespace Sys2Proof.Machine

/-! ## CLR bits -/

/-- The module has power, and its registers answer. -/
def State.powered (s : State) : Bool := s.boot.state != .off

/-- CHKCNT_CLR: REPLAYS and FAILS are zeroed (R60). -/
def execChkcntClr (st : Fin 16) (eng : Fin 12) (s : State) : Host.Outcome State Fault Refusal :=
  occurs s s.powered fun s =>
    (s.updChk st eng fun c => { c with replays := 0, fails := 0, last := 0 }).unmark
      [satKey 1 (st.val * 12 + eng.val) 0, satKey 1 (st.val * 12 + eng.val) 1]

/-- PAN_ECC_CLR. -/
def execPanEccClr (st : Fin 16) (s : State) : Host.Outcome State Fault Refusal :=
  occurs s s.powered fun s =>
    (s.updStn st fun t => { t with pantry := { t.pantry with corr := 0, uncorr := 0 } }).unmark
      [satKey 2 st.val 0, satKey 2 st.val 1]

/-- MEM_ERRCNT_CLR: an absent stack has no counts. -/
def execMemErrcntClr (site : Fin 8) (s : State) : Host.Outcome State Fault Refusal :=
  occurs s (s.powered && bitAt s.grade.sites.toNat site.val) fun s =>
    (s.updStack site.val fun x => { x with detect := 0, recov := 0, poisonCnt := 0 }).unmark
      [satKey 3 site.val 0, satKey 3 site.val 1, satKey 3 site.val 2]

/-- FAB_LINKCNT_CLR. -/
def execFabLinkcntClr (p : Fin 14) (s : State) : Host.Outcome State Fault Refusal :=
  occurs s (s.powered && s.portPresent p) fun s =>
    (s.updPort p fun x => { x with replay := 0, retrain := 0 }).unmark [satKey 5 p.val 0, satKey 5 p.val 1]

/-- FAB_FRMCNT_CLR. -/
def execFabFrmcntClr (p : Fin 14) (s : State) : Host.Outcome State Fault Refusal :=
  occurs s (s.powered && s.portPresent p) fun s =>
    (s.updPort p fun x => { x with drop := 0, rep := 0, gap := 0 }).unmark
      [satKey 6 p.val 0, satKey 6 p.val 1, satKey 6 p.val 2]

/-! ## Writes of single registers -/


/-- PAN_WIN: VALID, SIZE, BASE. -/
def winOfWord (v : Nat) : Win := ⟨bitAt v 31, BitVec.ofNat 10 (fld v 16 10), BitVec.ofNat 9 (fld v 0 9)⟩

/-- PAN_REGION: the views and timings of regions that a window of a job with a running instruction overlaps stay (R169; log entry
54). -/
def Station.setRegion (t : Station) (v : Nat) : Station :=
  let w := t.pantry.wins[t.win]
  let busy := t.held && t.queues.toList.any fun q => q.any fun e => e.phase == .running
  let keep : Byte := if busy && w.valid then regionBits w.base.toNat w.size.toNat else 0
  let mix := fun (old new : Byte) => (old &&& keep) ||| (new &&& ~~~keep)
  { t with pantry := { t.pantry with
    timed := mix t.pantry.timed (BitVec.ofNat 8 (fld v 8 8))
    dual := mix t.pantry.dual (BitVec.ofNat 8 (fld v 0 8)) } }

/-- A window has the properties of R170 beside the other windows of its Pantry. -/
def Pantry.winOk (p : Pantry) (k : Fin 4) (w : Win) : Bool :=
  !w.valid || (decide (1 ≤ w.size.toNat ∧ w.base.toNat + w.size.toNat ≤ 512) &&
    (List.finRange 4).all fun i => i == k || !p.wins[i].valid ||
      decide (w.base.toNat + w.size.toNat ≤ p.wins[i].base.toNat ∨ p.wins[i].base.toNat + p.wins[i].size.toNat ≤ w.base.toNat))

/-- PAN_WIN: a word that R170 forbids is not taken, nor is one for the window of a job that holds the station (log entry 54). -/
def Station.setWin (t : Station) (k : Fin 4) (v : Nat) : Station :=
  if (t.held && t.win == k) || !t.pantry.winOk k (winOfWord v) then t
  else { t with pantry := { t.pantry with wins := t.pantry.wins.set k (winOfWord v) } }

/-- GRD_BYPASS: PENDING, recorded in the configuration block (R84, R351). -/
def State.setBypass (s : State) (st : Fin 16) (g : Fin 2) (v : Nat) : State :=
  let s1 := s.updStn st fun t => { t with griddles := vupd t.griddles g fun x => { x with pending := BitVec.ofNat 16 v } }
  { s1 with boot := { s1.boot with
    dynSec := splice s1.boot.dynSec (8 + 2 * (2 * st.val + g.val)) (natLe 2 v)
    cfgDirty := true } }

/-- A size of BAR2 that a function may have: a power of two from 1 GiB to 64 GiB (R276). -/
def barSizeOk (v : Nat) : Bool := [1, 2, 4, 8, 16, 32, 64].contains v

/-- Configuration space: what Table 16.1 supports is taken, and nothing else (R273, R276; log entry 48). -/
def State.writeCfg (s : State) (reg : RegTarget) (v : Nat) : State :=
  match reg with
  | .cfgVfEnable => { s with cfg := { s.cfg with vfEnable := bitAt v 0 } }
  | .cfgBar2 vf =>
    if !barSizeOk v then s
    else if vf then { s with bars := { s.bars with vf := v } } else { s with bars := { s.bars with pf := v } }
  | .cfgPower f =>
    let bit := BitVec.ofNat 64 (2 ^ f.val)
    { s with cfg := { s.cfg with d3hot := if v % 4 = 3 then s.cfg.d3hot ||| bit else s.cfg.d3hot &&& ~~~bit } }
  | .cfgMps => if v < 3 then { s with cfg := { s.cfg with mps := 128 * 2 ^ v } } else s
  | .cfgMrrs => if v < 6 then { s with cfg := { s.cfg with mrrs := 128 * 2 ^ v } } else s
  | _ => s

/-- MEM_RGNA: the fields of one word of an entry; SB stays. -/
def Region.setA (r : Region) (v : Nat) : Region := { regionOfWords v 0 with sb := r.sb }

/-- MEM_MARGIN: the offsets, and RUN, which is ignored outside margin mode (R215). -/
def State.setMarginReg (s : State) (site : Fin 8) (v : Nat) : State :=
  let s1 := s.setMargin site.val (fld v 28 4) (fld v 21 7) (fld v 14 7) (fld v 9 5) (fld v 4 5)
  if s.mem.margin && bitAt v 0 then s1.updStack site.val fun x => { x with running := true } else s1

/-- MBX_BASE: writable only while EN is 0; [11:0] of the low words are reserved (R278). -/
def Mbx.setBase (m : Mbx) (k : Fin 4) (val : Word) : Mbx :=
  if m.en then m else { m with base := m.base.set k (if k.val % 2 = 0 then val &&& 0xFFFFF000 else val) }

/-- A word of the MSI-X table; a vector that is pending and no longer masked is sent (Table 16.2). -/
def State.setMsix (s : State) (f : Fin 64) (vec : Fin 32) (k : Fin 4) (val : Word) : State :=
  let s1 := s.updMbx f fun m => { m with msix := m.msix.put (4 * vec.val + k.val) val }
  if bitAt s1.mbx[f].pba.toNat vec.val && !s1.mbx[f].masked vec.val then
    (s1.updMbx f fun m => { m with pba := m.pba ^^^ BitVec.ofNat 32 (2 ^ vec.val) }).msi f vec.val
  else s1

/-- CLK_STATUS: FABLOSS, UNLOCK and REFLOSS are cleared by ones. -/
def Power.clkClear (p : Power) (v : Nat) : Power :=
  { p with
    fabLoss := p.fabLoss &&& ~~~ BitVec.ofNat 4 (fld v 4 4)
    unlock := p.unlock && !bitAt v 2
    refLoss := p.refLoss && !bitAt v 1 }

/-- The write of a register. -/
def State.writeReg (s : State) (reg : RegTarget) (val : Word) : State :=
  let v := val.toNat
  match reg with
  | .grdBypass st g => s.setBypass st g (v % 2 ^ 16)
  | .fnlKpmBaseLo _ => s.setKpmBase fun b => BitVec.ofNat 64 (b.toNat / 2 ^ 32 * 2 ^ 32 + v / 2 ^ 20 * 2 ^ 20)
  | .fnlKpmBaseHi _ => s.setKpmBase fun b => BitVec.ofNat 64 (v * 2 ^ 32 + b.toNat % 2 ^ 32)
  | .panRegion st => s.updStn st fun t => t.setRegion v
  | .panWin st w => s.updStn st fun t => t.setWin w v
  | .memRgnA r => if s.boot.state ≠ .rom then s else { s with mem := { s.mem with regions := vupd s.mem.regions r fun x => x.setA v } }
  | .memRgnB r => if s.boot.state ≠ .rom then s else { s with mem := { s.mem with regions := vupd s.mem.regions r fun x =>
      { x with sb := BitVec.ofNat 7 (fld v 0 7) } } }
  | .memMargin site => if bitAt s.grade.sites.toNat site.val then s.setMarginReg site v else s
  | .mbxBase f k => s.updMbx f fun m => m.setBase k val
  | .msixTable f vec k => s.setMsix f vec k val
  | .bndStatus u => s.bndWrite u (.status val)
  | .bndRes u => s.bndWrite u .res
  | .bndAstat u => s.bndWrite u (.astat 0)
  | .mrtStatus => s.updMortar fun m => { m with cfgErr := m.cfgErr && !bitAt v 3, qOvf := m.qOvf && !bitAt v 2 }
  | .mrtSubmit k => s.updMortar fun m => { m with submit := vupdN m.submit k.val fun _ => val }
  | .clkStatus => { s with power := s.power.clkClear v }
  | .pwrCap => { s with power := { s.power with cap := BitVec.ofNat 16 (capInForce (fld v 0 16)) } }
  | .fabEth p =>
    if s.portPresent p then s.updPort p fun x =>
      { x with
        pcp3 := BitVec.ofNat 4 (fld v 28 4)
        vid := BitVec.ofNat 12 (fld v 16 12)
        etype := BitVec.ofNat 16 (fld v 0 16) }
    else s
  | .fabEthPcp p =>
    if s.portPresent p then s.updPort p fun x =>
      { x with
        pcp2 := BitVec.ofNat 4 (fld v 8 4)
        pcp1 := BitVec.ofNat 4 (fld v 4 4)
        pcp0 := BitVec.ofNat 4 (fld v 0 4) }
    else s
  | .cfgVfEnable => s.writeCfg .cfgVfEnable v
  | .cfgBar2 vf => s.writeCfg (.cfgBar2 vf) v
  | .cfgPower f => s.writeCfg (.cfgPower f) v
  | .cfgMps => s.writeCfg .cfgMps v
  | .cfgMrrs => s.writeCfg .cfgMrrs v
  | .readOnly => s

/-- REGISTER_WRITE. -/
def execRegisterWrite (reg : RegTarget) (val : Word) (s : State) : Host.Outcome State Fault Refusal :=
  occurs s s.powered fun s => s.writeReg reg val

end Sys2Proof.Machine
end

