-- ==== Sys2Proof/Machine/Dispatch.lean ====
section
/-! DEFINITION. Dispatch.lean: one arm for each command of the operation table. -/

namespace Sys2Proof.Machine

/-- The effect of a command on everything but the queue of waiting commands. -/
def exec (i : Instr) (s : State) : Host.Outcome State Fault Refusal :=
  match i with
  | .nop st => Sys2Proof.Machine.execNop st s
  | .endCode st => Sys2Proof.Machine.execEndCode st s
  | .cset st => Sys2Proof.Machine.execCset st s
  | .cmpset st => Sys2Proof.Machine.execCmpset st s
  | .cload st ecc => Sys2Proof.Machine.execCload st ecc s
  | .cloadWordArrival st => Sys2Proof.Machine.execCloadWordArrival st s
  | .cstore st => Sys2Proof.Machine.execCstore st s
  | .loop st => Sys2Proof.Machine.execLoop st s
  | .mload st => Sys2Proof.Machine.execMload st s
  | .ahdr st ecc => Sys2Proof.Machine.execAhdr st ecc s
  | .esync st q => Sys2Proof.Machine.execEsync st q s
  | .xfer st e => Sys2Proof.Machine.execXfer st e s
  | .xgather st e => Sys2Proof.Machine.execXgather st e s
  | .fstream st => Sys2Proof.Machine.execFstream st s
  | .fclose st => Sys2Proof.Machine.execFclose st s
  | .gload st g ecc => Sys2Proof.Machine.execGload st g ecc s
  | .gmac st g ecc => Sys2Proof.Machine.execGmac st g ecc s
  | .gkeydot st g ecc => Sys2Proof.Machine.execGkeydot st g ecc s
  | .wntt st g ecc => Sys2Proof.Machine.execWntt st g ecc s
  | .sadd st g ecc => Sys2Proof.Machine.execSadd st g ecc s
  | .ssub st g ecc => Sys2Proof.Machine.execSsub st g ecc s
  | .sneg st g ecc => Sys2Proof.Machine.execSneg st g ecc s
  | .saddc st g ecc => Sys2Proof.Machine.execSaddc st g ecc s
  | .snegm st g ecc => Sys2Proof.Machine.execSnegm st g ecc s
  | .smul st g ecc => Sys2Proof.Machine.execSmul st g ecc s
  | .smulc st g ecc => Sys2Proof.Machine.execSmulc st g ecc s
  | .smac st g ecc => Sys2Proof.Machine.execSmac st g ecc s
  | .srescale st g ecc => Sys2Proof.Machine.execSrescale st g ecc s
  | .smodsw st g ecc => Sys2Proof.Machine.execSmodsw st g ecc s
  | .ssum st g ecc => Sys2Proof.Machine.execSsum st g ecc s
  | .sload st g ecc => Sys2Proof.Machine.execSload st g ecc s
  | .krefresh st k ecc => Sys2Proof.Machine.execKrefresh st k ecc s
  | .cxpose st ecc => Sys2Proof.Machine.execCxpose st ecc s
  | .cauto st ecc => Sys2Proof.Machine.execCauto st ecc s
  | .cperm st ecc => Sys2Proof.Machine.execCperm st ecc s
  | .bextract st ecc => Sys2Proof.Machine.execBextract st ecc s
  | .bpack st ecc => Sys2Proof.Machine.execBpack st ecc s
  | .dispatch st => Sys2Proof.Machine.execDispatch st s
  | .engineIssue st q => Sys2Proof.Machine.execEngineIssue st q s
  | .instructionSignal st q => Sys2Proof.Machine.execInstructionSignal st q s
  | .remoteSignal src dst => Sys2Proof.Machine.execRemoteSignal src dst s
  | .staleAnswer st => Sys2Proof.Machine.execStaleAnswer st s
  | .griddlePass st g v ecc => Sys2Proof.Machine.execGriddlePass st g v ecc s
  | .gkeydotBlock st g v => Sys2Proof.Machine.execGkeydotBlock st g v s
  | .whiskStage st g v => Sys2Proof.Machine.execWhiskStage st g v s
  | .kettleRotationStart st k stall => Sys2Proof.Machine.execKettleRotationStart st k stall s
  | .kettleElementStep st k v => Sys2Proof.Machine.execKettleElementStep st k v s
  | .keySwitchRound st k v => Sys2Proof.Machine.execKeySwitchRound st k v s
  | .bextractPass st => Sys2Proof.Machine.execBextractPass st s
  | .descriptorFetch st e ecc => Sys2Proof.Machine.execDescriptorFetch st e ecc s
  | .descriptorStart st e => Sys2Proof.Machine.execDescriptorStart st e s
  | .chunkIssue st e => Sys2Proof.Machine.execChunkIssue st e s
  | .chunkLand st e c ecc => Sys2Proof.Machine.execChunkLand st e c ecc s
  | .xferSignal st e => Sys2Proof.Machine.execXferSignal st e s
  | .hostDmaChunk st e c bytes crc alive => Sys2Proof.Machine.execHostDmaChunk st e c bytes crc alive s
  | .streamOpen st => Sys2Proof.Machine.execStreamOpen st s
  | .precheckDone st j hdrs => Sys2Proof.Machine.execPrecheckDone st j hdrs s
  | .mapCacheFill st m => Sys2Proof.Machine.execMapCacheFill st m s
  | .pageArrival st j remote => Sys2Proof.Machine.execPageArrival st j remote s
  | .keyRowLaunch grp wait => Sys2Proof.Machine.execKeyRowLaunch grp wait s
  | .remotePantryAccess src dst => Sys2Proof.Machine.execRemotePantryAccess src dst s
  | .windowZeroingDone st w => Sys2Proof.Machine.execWindowZeroingDone st w s
  | .memUnitAccess ma acc => Sys2Proof.Machine.execMemUnitAccess ma acc s
  | .memCrcReread ma fails => Sys2Proof.Machine.execMemCrcReread ma fails s
  | .sieveRead st e ecc => Sys2Proof.Machine.execSieveRead st e ecc s
  | .bar2Access f off len wr => Sys2Proof.Machine.execBar2Access f off len wr s
  | .stackTemperatureReading site t => Sys2Proof.Machine.execStackTemperatureReading site t s
  | .memZeroingDone ok => Sys2Proof.Machine.execMemZeroingDone ok s
  | .marginPointTest site pass => Sys2Proof.Machine.execMarginPointTest site pass s
  | .jobAdmission j img btab ticket => Sys2Proof.Machine.execJobAdmission j img btab ticket s
  | .stationPartComplete st => Sys2Proof.Machine.execStationPartComplete st s
  | .commitPoint j => Sys2Proof.Machine.execCommitPoint j s
  | .jobTimeLimit j => Sys2Proof.Machine.execJobTimeLimit j s
  | .jobAbortCleanup j => Sys2Proof.Machine.execJobAbortCleanup j s
  | .mbxCtrlWrite f val => Sys2Proof.Machine.execMbxCtrlWrite f val s
  | .doorbell f val => Sys2Proof.Machine.execDoorbell f val s
  | .requestEntryFetch f entry => Sys2Proof.Machine.execRequestEntryFetch f entry s
  | .mbxCqHeadWrite f val => Sys2Proof.Machine.execMbxCqHeadWrite f val s
  | .completionEntryWrite f => Sys2Proof.Machine.execCompletionEntryWrite f s
  | .vector0Timer f => Sys2Proof.Machine.execVector0Timer f s
  | .bar0BadAccess f off isRead => Sys2Proof.Machine.execBar0BadAccess f off isRead s
  | .deviceInfo f => Sys2Proof.Machine.execDeviceInfo f s
  | .funcConfig f => Sys2Proof.Machine.execFuncConfig f s
  | .powerCap f => Sys2Proof.Machine.execPowerCap f s
  | .resetWarm f => Sys2Proof.Machine.execResetWarm f s
  | .resetCold f => Sys2Proof.Machine.execResetCold f s
  | .stationReset f => Sys2Proof.Machine.execStationReset f s
  | .memMargin f => Sys2Proof.Machine.execMemMargin f s
  | .monSnapshot f => Sys2Proof.Machine.execMonSnapshot f s
  | .sessionOpen f => Sys2Proof.Machine.execSessionOpen f s
  | .sessionClose f => Sys2Proof.Machine.execSessionClose f s
  | .sessionModlist f dma => Sys2Proof.Machine.execSessionModlist f dma s
  | .sessionQuery f => Sys2Proof.Machine.execSessionQuery f s
  | .keysetRegister f dma objs => Sys2Proof.Machine.execKeysetRegister f dma objs s
  | .keysetVerify f dma => Sys2Proof.Machine.execKeysetVerify f dma s
  | .keysetActivate f => Sys2Proof.Machine.execKeysetActivate f s
  | .keysetRetire f => Sys2Proof.Machine.execKeysetRetire f s
  | .bufAlloc f => Sys2Proof.Machine.execBufAlloc f s
  | .bufFree f => Sys2Proof.Machine.execBufFree f s
  | .bufCommit f => Sys2Proof.Machine.execBufCommit f s
  | .bufQuery f => Sys2Proof.Machine.execBufQuery f s
  | .bufMap f => Sys2Proof.Machine.execBufMap f s
  | .bufUnmap f => Sys2Proof.Machine.execBufUnmap f s
  | .bufDma f dma => Sys2Proof.Machine.execBufDma f dma s
  | .jobSubmit f => Sys2Proof.Machine.execJobSubmit f s
  | .jobAbort f => Sys2Proof.Machine.execJobAbort f s
  | .jobQuery f => Sys2Proof.Machine.execJobQuery f s
  | .fwStage f dma => Sys2Proof.Machine.execFwStage f dma s
  | .flashWriteDone ok => Sys2Proof.Machine.execFlashWriteDone ok s
  | .fwActivate f => Sys2Proof.Machine.execFwActivate f s
  | .firmwareActivation => Sys2Proof.Machine.execFirmwareActivation s
  | .drainTimeout => Sys2Proof.Machine.execDrainTimeout s
  | .attest f => Sys2Proof.Machine.execAttest f s
  | .fabConfig f => Sys2Proof.Machine.execFabConfig f s
  | .fabStatus f => Sys2Proof.Machine.execFabStatus f s
  | .fabExport f => Sys2Proof.Machine.execFabExport f s
  | .fabUnexport f => Sys2Proof.Machine.execFabUnexport f s
  | .pldmFirmwareUpdate image => Sys2Proof.Machine.execPldmFirmwareUpdate image s
  | .portTrain p => Sys2Proof.Machine.execPortTrain p s
  | .capExchange p cap => Sys2Proof.Machine.execCapExchange p cap s
  | .mismatchRetry p => Sys2Proof.Machine.execMismatchRetry p s
  | .flitReceive p flit => Sys2Proof.Machine.execFlitReceive p flit s
  | .flitReplayTimeout p => Sys2Proof.Machine.execFlitReplayTimeout p s
  | .dataFrame p frame => Sys2Proof.Machine.execDataFrame p frame s
  | .creditFrame p frame => Sys2Proof.Machine.execCreditFrame p frame s
  | .ackFrame p frame => Sys2Proof.Machine.execAckFrame p frame s
  | .staleFrame p frame => Sys2Proof.Machine.execStaleFrame p frame s
  | .readFrame p frame => Sys2Proof.Machine.execReadFrame p frame s
  | .rdataFrame p frame => Sys2Proof.Machine.execRdataFrame p frame s
  | .holdFrame p frame => Sys2Proof.Machine.execHoldFrame p frame s
  | .capFrame p frame => Sys2Proof.Machine.execCapFrame p frame s
  | .frameRelay p frame => Sys2Proof.Machine.execFrameRelay p frame s
  | .endToEndRetransmit ses slot => Sys2Proof.Machine.execEndToEndRetransmit ses slot s
  | .holdTimer => Sys2Proof.Machine.execHoldTimer s
  | .frameHoldLimit => Sys2Proof.Machine.execFrameHoldLimit s
  | .ethernetCapBroadcast p => Sys2Proof.Machine.execEthernetCapBroadcast p s
  | .sendDataFrame st e => Sys2Proof.Machine.execSendDataFrame st e s
  | .bndCtrlWrite u val => Sys2Proof.Machine.execBndCtrlWrite u val s
  | .bndInit u => Sys2Proof.Machine.execBndInit u s
  | .bndFeed8 u val => Sys2Proof.Machine.execBndFeed8 u val s
  | .bndFeed16 u val => Sys2Proof.Machine.execBndFeed16 u val s
  | .bndFeed32 u val => Sys2Proof.Machine.execBndFeed32 u val s
  | .bndRunWrite u hi val => Sys2Proof.Machine.execBndRunWrite u hi val s
  | .bndAnextWrite u val => Sys2Proof.Machine.execBndAnextWrite u val s
  | .bndAchk u val => Sys2Proof.Machine.execBndAchk u val s
  | .bndAstatClr u => Sys2Proof.Machine.execBndAstatClr u s
  | .bndResultRead u reg => Sys2Proof.Machine.execBndResultRead u reg s
  | .mrtSubmit val => Sys2Proof.Machine.execMrtSubmit val s
  | .mrtCancel val => Sys2Proof.Machine.execMrtCancel val s
  | .mrtResultRead => Sys2Proof.Machine.execMrtResultRead s
  | .mrtSlotWrite n val => Sys2Proof.Machine.execMrtSlotWrite n val s
  | .mrtMemWrite w val => Sys2Proof.Machine.execMrtMemWrite w val s
  | .mortarJobStart => Sys2Proof.Machine.execMortarJobStart s
  | .mortarCheckPhaseEnd => Sys2Proof.Machine.execMortarCheckPhaseEnd s
  | .mortarYieldPoint => Sys2Proof.Machine.execMortarYieldPoint s
  | .mortarJobEnd => Sys2Proof.Machine.execMortarJobEnd s
  | .mortarProgramLoad => Sys2Proof.Machine.execMortarProgramLoad s
  | .perstNAssert => Sys2Proof.Machine.execPerstNAssert s
  | .coldBoot => Sys2Proof.Machine.execColdBoot s
  | .watchdogExpiry => Sys2Proof.Machine.execWatchdogExpiry s
  | .imageConfirm => Sys2Proof.Machine.execImageConfirm s
  | .configBlockWrite => Sys2Proof.Machine.execConfigBlockWrite s
  | .hotReset => Sys2Proof.Machine.execHotReset s
  | .functionLevelReset f => Sys2Proof.Machine.execFunctionLevelReset f s
  | .p1PowerUp => Sys2Proof.Machine.execP1PowerUp s
  | .undervoltageLockout => Sys2Proof.Machine.execUndervoltageLockout s
  | .thermtrip => Sys2Proof.Machine.execThermtrip s
  | .referenceLoss ref => Sys2Proof.Machine.execReferenceLoss ref s
  | .powerCapSample watts mv10 frac => Sys2Proof.Machine.execPowerCapSample watts mv10 frac s
  | .smbusAlertResponse => Sys2Proof.Machine.execSmbusAlertResponse s
  | .tapInstruction ins => Sys2Proof.Machine.execTapInstruction ins s
  | .monitorSample src inst v => Sys2Proof.Machine.execMonitorSample src inst v s
  | .monCfgWrite u reg val => Sys2Proof.Machine.execMonCfgWrite u reg val s
  | .snapshotFreeze => Sys2Proof.Machine.execSnapshotFreeze s
  | .errorLogWrite => Sys2Proof.Machine.execErrorLogWrite s
  | .quarantinePass => Sys2Proof.Machine.execQuarantinePass s
  | .chkcntClr st eng => Sys2Proof.Machine.execChkcntClr st eng s
  | .panEccClr st => Sys2Proof.Machine.execPanEccClr st s
  | .memErrcntClr site => Sys2Proof.Machine.execMemErrcntClr site s
  | .mbxChkcntClr f => Sys2Proof.Machine.execMbxChkcntClr f s
  | .fabLinkcntClr p => Sys2Proof.Machine.execFabLinkcntClr p s
  | .fabFrmcntClr p => Sys2Proof.Machine.execFabFrmcntClr p s
  | .registerWrite reg val => Sys2Proof.Machine.execRegisterWrite reg val s
  | .dieTemperatureReading temps => Sys2Proof.Machine.execDieTemperatureReading temps s
  | .portSignalLoss p => Sys2Proof.Machine.execPortSignalLoss p s
  | .refclk100Present => Sys2Proof.Machine.execRefclk100Present s
  | .pfcFrame p prios pause => Sys2Proof.Machine.execPfcFrame p prios pause s
  | .reservedFtypeFrame p frame => Sys2Proof.Machine.execReservedFtypeFrame p frame s

end Sys2Proof.Machine
end

