-- ==== Sys2Proof/Safety.lean ====
section
/-! DEFINITION. Safety.lean: when a command takes its effect, in the terms that the statements use. A command whose condition does
not hold leaves the state as it was (log entry 1), so each statement of an effect names the condition first. -/

namespace Sys2Proof.Machine

/-- No reference has been lost since the last cold reset: what the module does is specified (R360). -/
def State.Specified (s : State) : Prop := s.power.unspecified = false

/-- The instruction `iw`, with this opcode, is the next of a station that dispatches, and its wait is satisfied (R221, R225). -/
def State.Executes (s : State) (st : Fin 16) (op : Nat) (iw : BitVec 128) : Prop :=
  s.Specified ∧ s.jobRuns s.stations[st] = true ∧ s.stations[st].run = true ∧ s.stations[st].load = none ∧
    s.stations[st].code[s.stations[st].pc]? = some iw ∧ opOf iw = op ∧ s.stations[st].waitNow iw = true

/-- Entry `i` of a queue of a station whose job runs has issued with this opcode, and its operation has not started (R222). -/
def State.Issued (s : State) (st : Fin 16) (q : Fin 22) (op i : Nat) (e : QEntry) : Prop :=
  s.Specified ∧ s.jobRuns s.stations[st] = true ∧ s.stations[st].issuedOp q op = some (i, e)

/-- Entry `i` of a queue of a station whose job runs is running with this opcode, and has check units left (R56). -/
def State.Running (s : State) (st : Fin 16) (q : Fin 22) (op i : Nat) (e : QEntry) : Prop :=
  s.Specified ∧ s.jobRuns s.stations[st] = true ∧ s.stations[st].runningOp q [op] = some (i, e)

/-- The 8-byte word at Pantry window offset `a` may be read and written narrowly: it is aligned, in the window and in a DUAL
region (R168, R171). -/
def Station.Narrow (t : Station) (a : Nat) : Prop := a % 8 = 0 ∧ t.inWin a 8 = true ∧ t.pantry.isDual (t.phys a) = true

/-! ## Requests (16) -/

/-- The commands that are taken in recovery: DEVICE_INFO, RESET_COLD and FW_STAGE (R347). -/
def recoveryOps : List Nat := [0x01, 0x05, 0x50]

/-- Crown takes the request entry `e` at the head of a function's ring as the command with this opcode: READY is set, no activation of
the function's holds it back, its LEN is that of the fields, and its reserved bytes are 0 (R279, R284, R286, R347). -/
def State.Takes (s : State) (f : Fin 64) (op : Nat) (fields : List (Nat × Nat)) (e : ReqEntry) : Prop :=
  s.Specified ∧ s.heads f op = some e ∧ entryOk fields e.bytes = true ∧ (s.boot.recovery = false ∨ op ∈ recoveryOps)

/-- The entry names a session that its function may command: one in use, the function's own or any for the PF (R255). -/
def State.Owns (s : State) (f : Fin 64) (e : ReqEntry) : Prop :=
  reqSession e.bytes < 16384 ∧ (s.session (reqSession e.bytes)).body.state ≠ .free ∧
    ((s.session (reqSession e.bytes)).body.func = f ∨ f = 0)

/-! ## The module as a whole -/

/-- Every memory is in its canonical form. -/
def State.Canonical (s : State) : Prop := s.mem.data.wf = true ∧ ∀ st : Fin 16, s.stations[st].pantry.mem.wf = true

/-- The parts of the module. -/
inductive Part where
  | power | boot | flash | fuses | stations | net | mem | crown | mbx | bars | cfg | hostOut | band | mortar | mon | fab | ioSes
  deriving DecidableEq, Repr

/-- A part is the same in two states. -/
def Part.same : Part → State → State → Prop
  | .power, s, t => t.power = s.power
  | .boot, s, t => t.boot = s.boot
  | .flash, s, t => t.flash = s.flash
  | .fuses, s, t => t.fuses = s.fuses
  | .stations, s, t => t.stations = s.stations
  | .net, s, t => t.net = s.net
  | .mem, s, t => t.mem = s.mem
  | .crown, s, t => t.crown = s.crown
  | .mbx, s, t => t.mbx = s.mbx
  | .bars, s, t => t.bars = s.bars
  | .cfg, s, t => t.cfg = s.cfg
  | .hostOut, s, t => t.hostOut = s.hostOut
  | .band, s, t => t.band = s.band
  | .mortar, s, t => t.mortar = s.mortar
  | .mon, s, t => t.mon = s.mon
  | .fab, s, t => t.fab = s.fab
  | .ioSes, s, t => t.ioSes = s.ioSes

/-! ## Frames (17) -/

/-- A device frame of this type is at a port, R303 lets it through, and it is for this module or a CAP (R303, R312). -/
def State.Meets (s : State) (p : Fin 14) (frame : List Byte) (ftype : Nat) : Prop :=
  s.Specified ∧ s.fab.ports[p].frameAt frame = true ∧ field (s.fab.ports[p].dev frame) 1 1 = ftype ∧ s.frameGood p frame = true ∧
    s.foreign p (s.fab.ports[p].dev frame) = false

end Sys2Proof.Machine

namespace Sys2Proof

/-! ## What each command may touch -/

/-- What the sequencer touches when an instruction moves on: its own station. -/
def stationPart : List Machine.Part := [.stations]

/-- What a signal touches: the scoreboards, and the messages between stations. -/
def signalParts : List Machine.Part := [.stations, .net]

/-- What the start of an operation touches: its station, and the job that a fault ends. -/
def startParts : List Machine.Part := [.stations, .crown, .mortar]

/-- What an operation with checked reads or check units touches: its station, the log, and the job that a fault ends. -/
def engineParts : List Machine.Part := [.stations, .crown, .mortar, .mon]

/-- What a message that may end a job touches. -/
def messageParts : List Machine.Part := [.stations, .net, .crown, .mortar]

/-- What reads of module memory by a station touch: the controllers count, and a fault ends the job. -/
def streamParts : List Machine.Part := [.stations, .mem, .crown, .mortar, .mon]

/-- What a transfer over the fabric touches, and the job that its fault ends. -/
def linkParts : List Machine.Part := [.stations, .crown, .mortar, .mon, .fab]

/-- What a controller touches. -/
def memoryParts : List Machine.Part := [.mem, .mon]

/-- What a change of Crown's records touches: the record and the reply. -/
def recordParts : List Machine.Part := [.crown, .mbx, .mon]

/-- What a command that gives out or zeroes module memory touches. -/
def spaceParts : List Machine.Part := [.mem, .crown, .mbx, .mon]

/-- What a registration or the retirement of key sets touches: their map entries go from memory and from the Funnels' caches. -/
def keyParts : List Machine.Part := [.stations, .mem, .crown, .mbx, .mon]

/-- What the end of a job or a session touches. -/
def endParts : List Machine.Part := [.stations, .mem, .crown, .mbx, .hostOut]

/-- What a mailbox page's own registers touch. -/
def pageParts : List Machine.Part := [.mbx, .mon]

/-- What an examined entry or a report touches; whose turn it is belongs to Crown (R284). -/
def entryParts : List Machine.Part := [.crown, .mbx, .hostOut, .mon]

/-- What a port touches, with the counts it reports. -/
def portParts : List Machine.Part := [.mon, .fab]

/-- What a warm reset touches. -/
def warmParts : List Machine.Part := [.power, .stations, .net, .mem, .crown, .mbx, .hostOut, .band, .mortar, .mon, .ioSes]

/-- What a reset that starts at the link or at the PF touches: configuration space as well. -/
def linkResetParts : List Machine.Part := warmParts ++ [.bars, .cfg]

/-- What a cold reset touches: all but the flash and the fuses. -/
def coldParts : List Machine.Part := [.power, .boot, .stations, .net, .mem, .crown, .mbx, .bars, .cfg, .hostOut, .band, .mortar, .mon, .fab, .ioSes]

/-- The parts of the module that a command may change. -/
def Instr.parts : Instr → List Machine.Part
  | .nop _ => signalParts
  | .endCode _ => signalParts
  | .cset _ => signalParts
  | .cmpset _ => signalParts
  | .cload _ _ => engineParts
  | .cloadWordArrival _ => signalParts
  | .cstore _ => messageParts
  | .loop _ => signalParts
  | .mload _ => startParts
  | .ahdr _ _ => engineParts
  | .esync _ _ => startParts
  | .xfer _ _ => startParts
  | .xgather _ _ => startParts
  | .fstream _ => startParts
  | .fclose _ => startParts
  | .gload _ _ _ => engineParts
  | .gmac _ _ _ => engineParts
  | .gkeydot _ _ _ => engineParts
  | .wntt _ _ _ => engineParts
  | .sadd _ _ _ => engineParts
  | .ssub _ _ _ => engineParts
  | .sneg _ _ _ => engineParts
  | .saddc _ _ _ => engineParts
  | .snegm _ _ _ => engineParts
  | .smul _ _ _ => engineParts
  | .smulc _ _ _ => engineParts
  | .smac _ _ _ => engineParts
  | .srescale _ _ _ => engineParts
  | .smodsw _ _ _ => engineParts
  | .ssum _ _ _ => engineParts
  | .sload _ _ _ => engineParts
  | .krefresh _ _ _ => engineParts
  | .cxpose _ _ => engineParts
  | .cauto _ _ => engineParts
  | .cperm _ _ => engineParts
  | .bextract _ _ => engineParts
  | .bpack _ _ => engineParts
  | .dispatch _ => stationPart
  | .engineIssue _ _ => stationPart
  | .instructionSignal _ _ => [.stations, .net, .crown, .mortar, .mon]
  | .remoteSignal _ _ => signalParts
  | .staleAnswer _ => messageParts
  | .griddlePass _ _ _ _ => engineParts
  | .gkeydotBlock _ _ _ => engineParts
  | .whiskStage _ _ _ => engineParts
  | .kettleRotationStart _ _ _ => stationPart
  | .kettleElementStep _ _ _ => engineParts
  | .keySwitchRound _ _ _ => engineParts
  | .bextractPass _ => stationPart
  | .xferSignal _ _ => signalParts
  | .windowZeroingDone _ _ => stationPart
  | .stationPartComplete _ => stationPart
  | .jobTimeLimit _ => startParts
  | .chkcntClr _ _ => [.stations, .mon]
  | .panEccClr _ => [.stations, .mon]
  | .descriptorFetch _ _ _ => streamParts
  | .descriptorStart _ _ => linkParts
  | .chunkIssue _ _ => [.stations, .net, .mem, .crown, .mortar, .mon, .fab]
  | .chunkLand _ _ _ _ => [.stations, .mem, .crown, .mortar, .mon, .fab]
  | .hostDmaChunk _ _ _ _ _ _ => [.stations, .net, .crown, .hostOut, .mortar, .mon]
  | .streamOpen _ => stationPart
  | .precheckDone _ _ _ => .net :: streamParts
  | .mapCacheFill _ _ => streamParts
  | .pageArrival _ _ _ => streamParts
  | .keyRowLaunch _ _ => startParts
  | .remotePantryAccess _ _ => [.stations, .net, .crown, .mortar, .mon]
  | .sieveRead _ _ _ => streamParts
  | .dataFrame _ _ => [.stations, .crown, .mon, .fab, .ioSes]
  | .creditFrame _ _ => [.crown, .mon, .fab]
  | .ackFrame _ _ => [.stations, .crown, .mon, .fab]
  | .staleFrame _ _ => linkParts
  | .readFrame _ _ => [.mem, .mon, .fab, .ioSes]
  | .rdataFrame _ _ => [.stations, .net, .crown, .mortar, .mon, .fab]
  | .holdFrame _ _ => portParts
  | .capFrame _ _ => portParts
  | .frameRelay _ _ => portParts
  | .endToEndRetransmit _ _ => linkParts
  | .sendDataFrame _ _ => [.stations, .crown, .fab]
  | .memUnitAccess _ _ => memoryParts
  | .memCrcReread _ _ => memoryParts
  | .bar2Access _ _ _ _ => [.mem, .hostOut, .mon]
  | .stackTemperatureReading _ _ => memoryParts
  | .memErrcntClr _ => memoryParts
  | .memZeroingDone _ => [.boot, .mem, .mon]
  | .marginPointTest _ _ => [.mem, .crown, .mbx]
  | .commitPoint _ => endParts
  | .jobAbortCleanup _ => endParts
  | .mbxCtrlWrite _ _ => endParts
  | .completionEntryWrite _ => endParts
  | .funcConfig _ => recordParts
  | .memMargin _ => spaceParts
  | .monSnapshot _ => recordParts
  | .sessionOpen _ => recordParts
  | .sessionClose _ => endParts ++ [.mon]
  | .sessionModlist _ _ => recordParts
  | .keysetRegister _ _ _ => keyParts
  | .keysetActivate _ => keyParts
  | .keysetRetire _ => keyParts
  | .bufAlloc _ => spaceParts
  | .bufFree _ => recordParts
  | .bufCommit _ => recordParts
  | .bufMap _ => recordParts
  | .bufUnmap _ => recordParts
  | .jobSubmit _ => recordParts
  | .fwActivate _ => recordParts
  | .drainTimeout => recordParts
  | .fabExport _ => recordParts
  | .fabUnexport _ => recordParts
  | .snapshotFreeze => [.crown, .mbx, .hostOut, .mon]
  | .jobAdmission _ _ _ _ => [.stations, .crown, .mbx, .mortar]
  | .keysetVerify _ _ => [.crown, .mbx, .mortar, .mon]
  | .jobAbort _ => [.stations, .crown, .mbx, .mortar, .mon]
  | .mrtResultRead => [.crown, .mbx, .mortar]
  | .stationReset _ => [.stations, .mem, .crown, .mbx, .mortar, .mon]
  | .bufDma _ _ => [.mem, .crown, .mbx, .hostOut, .mon, .ioSes]
  | .doorbell _ _ => [.mbx]
  | .requestEntryFetch _ _ => entryParts
  | .mbxCqHeadWrite _ _ => [.mbx]
  | .vector0Timer _ => [.mbx, .hostOut]
  | .bar0BadAccess _ _ _ => [.hostOut, .mon]
  | .deviceInfo _ => recordParts
  | .sessionQuery _ => recordParts
  | .bufQuery _ => recordParts
  | .jobQuery _ => recordParts
  | .attest _ => entryParts
  | .fabStatus _ => recordParts
  | .mbxChkcntClr _ => pageParts
  | .powerCap _ => [.power, .crown, .mbx, .mon]
  | .portTrain _ => [.fab]
  | .capExchange _ _ => portParts
  | .mismatchRetry _ => [.fab]
  | .flitReceive _ _ => [.fab]
  | .flitReplayTimeout _ => linkParts
  | .holdTimer => [.fab]
  | .frameHoldLimit => linkParts
  | .ethernetCapBroadcast _ => [.fab]
  | .fabLinkcntClr _ => portParts
  | .fabFrmcntClr _ => portParts
  | .portSignalLoss _ => linkParts
  | .pfcFrame _ _ _ => [.fab]
  | .reservedFtypeFrame _ _ => portParts
  | .fabConfig _ => [.boot, .stations, .crown, .mbx, .mortar, .mon, .fab]
  | .referenceLoss _ => [.power, .stations, .crown, .mortar, .mon, .fab]
  | .fwStage _ _ => [.boot, .flash, .crown, .mbx, .mon]
  | .flashWriteDone _ => [.boot, .flash, .crown, .mbx]
  | .pldmFirmwareUpdate _ => [.boot, .flash, .crown]
  | .configBlockWrite => [.boot, .flash]
  | .mortarProgramLoad => [.boot, .mortar]
  | .resetWarm _ => warmParts
  | .hotReset => linkResetParts
  | .functionLevelReset _ => linkResetParts
  | .firmwareActivation => warmParts ++ [.boot, .flash, .fab]
  | .watchdogExpiry => [.power, .boot, .flash, .stations, .mem, .crown, .mbx, .hostOut, .mortar, .mon, .fab]
  | .imageConfirm => [.power, .boot, .flash, .fuses, .stations, .mem, .crown, .mbx, .hostOut, .mon, .fab]
  | .coldBoot => [.power, .boot, .flash, .stations, .mem, .crown, .mbx, .hostOut, .mortar, .mon, .fab]
  | .resetCold _ => coldParts
  | .perstNAssert => coldParts
  | .p1PowerUp => coldParts
  | .undervoltageLockout => coldParts
  | .thermtrip => coldParts
  | .refclk100Present => coldParts
  | .bndCtrlWrite _ _ => [.band, .mon]
  | .bndInit _ => [.band]
  | .bndFeed8 _ _ => [.band]
  | .bndFeed16 _ _ => [.band]
  | .bndFeed32 _ _ => [.band]
  | .bndRunWrite _ _ _ => [.band]
  | .bndAnextWrite _ _ => [.band]
  | .bndAchk _ _ => [.band]
  | .bndAstatClr _ => [.band]
  | .bndResultRead _ _ => [.hostOut, .band]
  | .mrtSubmit _ => [.mortar]
  | .mrtCancel _ => [.mortar]
  | .mrtSlotWrite _ _ => [.mortar]
  | .mrtMemWrite _ _ => [.mortar]
  | .mortarJobStart => [.mortar]
  | .mortarCheckPhaseEnd => [.mortar]
  | .mortarYieldPoint => [.mortar]
  | .mortarJobEnd => [.mortar]
  | .powerCapSample _ _ _ => [.power]
  | .smbusAlertResponse => [.power]
  | .tapInstruction _ => [.power]
  | .dieTemperatureReading _ => [.power]
  | .monitorSample _ _ _ => [.mon]
  | .monCfgWrite _ _ _ => [.mon]
  | .errorLogWrite => [.power, .mbx, .hostOut, .mon]
  | .quarantinePass => [.boot, .stations, .crown, .mon]
  | .registerWrite _ _ => [.power, .boot, .stations, .mem, .crown, .mbx, .bars, .cfg, .hostOut, .band, .mortar, .fab]

end Sys2Proof
end

