-- ==== Sys2Proof/Certificates/Slice0/Obligations.lean ====
section
/-! DEFINITION. Obligations.lean: the statements for the provers. -/

open Sys2Proof Sys2Proof.Machine

/-- A step takes the command at the front of the queue and runs it with the queue's rest; on an empty queue it leaves the state
as it is (log entry 1). -/
def Obligations.StepRunsFront : Prop :=
  ∀ (c : Instr) (rest : List Instr) (s : State),
    step { s with pending := c :: rest } = exec c { s with pending := rest } ∧ step { s with pending := [] } = .next { s with pending := [] }

/-! ## The sequencer (13, 14) -/

/-- NOP, END, CSET and CMPSET, when they are next and their wait holds, have their effect, advance PC and raise their signal; LOOP
increments its counter, and dispatch goes on at the next instruction when the new value GE the comparator as it stood before, otherwise
at the ADDR of D0 (R225 to R227, R239). -/
def Obligations.ControlOperations : Prop :=
  ∀ (st : Fin 16) (s : State) (iw : BitVec 128),
    (s.Executes st 0x01 iw → exec (.nop st) s = .next (s.controlDone st iw s.stations[st])) ∧
    (s.Executes st 0x02 iw →
      exec (.endCode st) s = .next (s.controlDone st iw { s.stations[st] with run := false, ended := true })) ∧
    (s.Executes st 0x03 iw →
      exec (.cset st) s = .next (s.controlDone st iw { s.stations[st] with
        ctrs := vupdN s.stations[st].ctrs (modsFld iw 0 5) fun _ => BitVec.ofNat 32 (s.stations[st].param iw 0 32) })) ∧
    (s.Executes st 0x04 iw →
      exec (.cmpset st) s = .next (s.controlDone st iw { s.stations[st] with
        cmps := vupdN s.stations[st].cmps (modsFld iw 0 3) fun _ =>
          ⟨BitVec.ofNat 32 (s.stations[st].param iw 0 32), BitVec.ofNat 16 (s.stations[st].param iw 32 16),
            BitVec.ofNat 5 (s.stations[st].param iw 48 5)⟩ })) ∧
    (s.Executes st 0x07 iw →
      let t := s.stations[st]
      let v := t.ctr (modsFld iw 0 5) + 1
      exec (.loop st) s = .next ((s.putStn st { t with
        ctrs := vupdN t.ctrs (modsFld iw 0 5) fun _ => v
        pc := if (v - t.cmpVal (modsFld iw 5 3)).toNat < 2 ^ 31 then t.pc + 1 else dAddr (t.desc (d0Of iw)) }).raise st iw))

/-- CLOAD reads the 8-byte word at D0 and holds dispatch; CLOAD_WORD_ARRIVAL gives the counter the word's low 32 bits and raises
the CLOAD's signal; CSTORE writes the counter, zero-extended, at D0 (R168, R226, R239). -/
def Obligations.ScratchpadWords : Prop :=
  ∀ (st : Fin 16) (s : State) (iw : BitVec 128) (a : Nat), s.stations[st].ea (d0Of iw) = a → s.stations[st].Narrow a →
    (s.Executes st 0x05 iw →
      exec (.cload st .clean) s = .next (s.putStn st { s.stations[st] with
        pc := s.stations[st].pc + 1
        load := some ⟨iw, BitVec.ofNat 5 (modsFld iw 0 5), BitVec.ofNat 64 (leNat (s.stations[st].rd a 8))⟩ })) ∧
    (s.Executes st 0x06 iw →
      exec (.cstore st) s = .next (s.controlDone st iw
        (s.stations[st].wr a (natLe 8 (s.stations[st].ctr (modsFld iw 0 5)).toNat)))) ∧
    (∀ l : LoadPend, s.Specified → s.jobRuns s.stations[st] = true → s.stations[st].load = some l →
      exec (.cloadWordArrival st) s = .next ((s.putStn st { s.stations[st] with
        ctrs := vupdN s.stations[st].ctrs l.ctr.toNat fun _ => l.word.setWidth 32
        load := none }).raise st l.iw))

/-- DISPATCH puts the next instruction, with its sampled addresses and comparator values, at the end of its engine's queue when
that has room, and advances PC; ENGINE_ISSUE issues a queue's next entry (R221, R222, R225, R229). -/
def Obligations.DispatchAndIssue : Prop :=
  ∀ (st : Fin 16) (s : State), s.Specified → s.jobRuns s.stations[st] = true →
    (∀ iw : BitVec 128, s.stations[st].run = true → s.stations[st].load = none →
      s.stations[st].code[s.stations[st].pc]? = some iw → (opOf iw = 0 ∨ 8 ≤ opOf iw) →
      s.stations[st].queues[s.stations[st].queueOf iw].length < 16 →
      exec (.dispatch st) s = .next (s.putStn st { s.stations[st] with
        pc := s.stations[st].pc + 1
        nextXid := s.stations[st].nextXid + 1
        queues := vupd s.stations[st].queues (s.stations[st].queueOf iw) fun l => l ++ [s.stations[st].entryOf iw] })) ∧
    (∀ (q : Fin 22) (i : Nat) (e : QEntry), s.issuable st q = some (i, e) →
      exec (.engineIssue st q) s = .next (s.putStn st
        (s.stations[st].updAt q i fun x => { x with phase := .issued })))

/-- INSTRUCTION_SIGNAL writes the results and then the headers, takes the entry off its queue and raises its signal; a locked update
whose row no longer agrees ends the job with PARAM_MISMATCH (R58, R79, R81, R226). STATION_PART_COMPLETE: END has dispatched and every queue is
empty (R227). -/
def Obligations.SignalsAndPartEnd : Prop :=
  ∀ (st : Fin 16) (s : State), s.Specified → s.jobRuns s.stations[st] = true →
    (∀ (q : Fin 22) (i : Nat) (e : QEntry), s.stations[st].signalable q = some (i, e) →
      (∀ t : Station, s.stations[st].putOut e = some t →
        exec (.instructionSignal st (q, .clean)) s = .next ((s.putStn st ((t.dropAt q i).endOp q e)).raise st e.iw)) ∧
      (s.stations[st].putOut e = none →
        exec (.instructionSignal st (q, .clean)) s = .next (s.instrFault st Code.paramMismatch)) ∧
      ((∀ h ∈ e.hdrs, h.merge = false) → ∃ t : Station, s.stations[st].putOut e = some t)) ∧
    (s.stations[st].ended = true → s.stations[st].partDone = false → (∀ q : Fin 22, s.stations[st].queues[q] = []) →
      exec (.stationPartComplete st) s = .next (s.putStn st { s.stations[st] with partDone := true }))

/-- REMOTE_SIGNAL: the oldest signal between two stations takes effect on the target's scoreboard when the target holds the role
that the message names; otherwise it is dropped, counted and answered. STALE_ANSWER ends the sender's job ROLE_EPOCH_STALE (R230,
R258). -/
def Obligations.MessagesBetweenStations : Prop :=
  ∀ (src dst : Fin 16) (s : State) (i : Nat) (m : NetMsg), s.Specified →
    (∀ (k : BitVec 2) (x : BitVec 7), m.kind = .signal k x →
      firstWith (fun n => n.isSignal && n.src == src && n.dst == dst) s.net = some (i, m) →
      (s.stations[dst].held = true ∧ s.stations[dst].ses = m.ses ∧ s.stations[dst].epoch = m.epoch →
        exec (.remoteSignal src dst) s = .next ({ s with net := s.net.eraseIdx i }.putStn dst
          (s.stations[dst].applySignal k.toNat x.toNat))) ∧
      (¬ (s.stations[dst].held = true ∧ s.stations[dst].ses = m.ses ∧ s.stations[dst].epoch = m.epoch) →
        let back : NetMsg := ⟨m.dst, m.src, m.ses, m.back, m.back, .stale none⟩
        exec (.remoteSignal src dst) s = .next ({ s with net := s.net.eraseIdx i ++ [back] }.putStn dst
          { s.stations[dst] with stale := wrapAdd s.stations[dst].stale 1 }))) ∧
    (m.kind = .stale none → firstWith (fun n : NetMsg => n.isStale && n.dst == dst) s.net = some (i, m) →
      s.stations[dst].held = true → s.stations[dst].ses = m.ses → s.stations[dst].epoch = m.epoch →
      s.jobRuns s.stations[dst] = true →
      exec (.staleAnswer dst) s = .next (({ s with net := s.net.eraseIdx i }.countStale m.ses.toNat).instrFault dst
        Code.roleEpochStale))

/-! ## Operations of the engines (04 to 08, 14) -/

/-- GLOAD of a tile whose range and weights pass loads the slot: assignment, the 128 x 128 weights modulo their columns' q, and the
side sum of each column, the sum of squares of its centred weights (R69, R72), with the weights modulo 8,191 for the checks (R56).
SLOAD of K rows loads K cache rows tagged RES or SGN; a row with an SGN value out of range stops it, and the rows before it stand
(R97). -/
def Obligations.LoadsFillStores : Prop :=
  ∀ (st : Fin 16) (g : Fin 2) (s : State) (i a : Nat) (e : QEntry),
    let t := s.stations[st]
   (s.Issued st (qGriddle g) 0x20 i e →
    let fmt := modsFld e.iw 5 3
    let percol := bitAt (modsOf e.iw) 4
    let raw := fun f c => tileElem fmt (bitAt (modsOf e.iw) 3) (t.rd a (tileBytes fmt)) f c
    let m := fun c => t.colMod percol (t.mod0 e.iw) c
    let w := (List.range 128).map fun f => (List.range 128).map fun c => weightWord (m c) (raw f c)
    e.ea0 = a → a % 512 = 0 → t.inWin a (tileBytes fmt) = true → fmt ≤ 3 →
    (percol = false → (t.modAt (t.mod0 e.iw)).valid = true) →
    (∀ f < 128, ∀ c < 128, weightOk (m c) fmt (raw f c) = true) →
    let side := (List.range 128).map fun c => (w.map fun r => ((centred (m c).q (r.getD c 0)) ^ 2).toNat).sum
    let new : Slot := ⟨true, percol, t.mod0 e.iw, w.map fun r => r.map (BitVec.ofNat 32), side, w.map fun r => r.map (· % 8191)⟩
    exec (.gload st g .clean) s = .next (s.startOp st (qGriddle g) i (.go (t.updGriddle g fun gr =>
      { gr with slots := gr.slots.setIfInBounds (t.slotOf e.iw (modsFld e.iw 0 3)) new }) e))) ∧
   (s.Issued st (qSkillet g) 0x4B i e →
    let p := t.sklOf e.iw
    let row := fun j => wordsOf (t.rd (a + 512 * j) 512)
    let loaded := fun n => { t with
      skillets := vupd t.skillets g fun k =>
        { k with cache := (List.range n).foldl (fun c j => c.put (p.crow + j) ⟨p.sgn, row j⟩) k.cache } }
    e.ea0 = a → a % 512 = 0 → t.inWin a (512 * p.k) = true → p.crow + p.k ≤ 128 →
    ((p.sgn = true → ∀ j < p.k, ∀ w ∈ row j, w.toInt.natAbs ≤ 2 ^ 15) →
      exec (.sload st g .clean) s = .next (s.startOp st (qSkillet g) i (.go (loaded p.k) e))) ∧
    (∀ n < p.k, p.sgn = true → (∀ j < n, ∀ w ∈ row j, w.toInt.natAbs ≤ 2 ^ 15) → (∃ w ∈ row n, 2 ^ 15 < w.toInt.natAbs) →
      exec (.sload st g .clean) s = .next (s.startOp st (qSkillet g) i (.stop (loaded n) Code.badOperand))))

/-- GMAC and GKEYDOT that pass their checks (R45, Table 4.5) write nothing yet: GMAC keeps ITEMS x ceil(ROWS / 128) passes for each of
its tiles, one where its columns fit the Griddle, and its header to come; GKEYDOT keeps its blocks and two headers to come (R76, R80,
R82, R231). -/
def Obligations.GriddleOperationsStart : Prop :=
  ∀ (st : Fin 16) (g : Fin 2) (s : State) (i : Nat) (e : QEntry),
    let t := s.stations[st]
    let h := Hdr.ofBytes (t.rd e.ea0.toNat 64)
    (s.Issued st (qGriddle g) 0x21 i e → gmacFault (s.stnKeySet t) (s.stnTag t) t g e = none →
      let p := t.gmacOf e.iw
      let w := t.griddles[g].width
      exec (.gmac st g .clean) s = .next (s.startOp st (qGriddle g) i (.go t { e with
        left := p.tiles w * (p.items * ceilDiv p.rows 128)
        hdrs := [⟨e.ea1.toNat, (p.outHdr h (t.chain g e.iw p)).bytes, p.merge⟩] })) ∧
      (p.cols ≤ w → p.tiles w = 1)) ∧
    (s.Issued st (qGriddle g) 0x22 i e → keydotFault (s.stnKeySet t) (s.stnTag t) t e = none →
      let out := (kdHdr h (t.kdLimbs e.iw)).bytes
      exec (.gkeydot st g .clean) s = .next (s.startOp st (qGriddle g) i (.go t { e with
        left := t.kdLimbs e.iw * (h.n / 128)
        hdrs := [⟨e.ea1.toNat, out, false⟩, ⟨e.eaX.toNat, out, false⟩] })))

/-- WNTT whose checks pass and whose words are canonical takes its limbs in and keeps its stages and its header to come; the
destination holds no defined contents until the signal (R88, R89, R91, R92; the free contents are log entry 9's). The log2 N stages of a
limb, one after another, come to its whole transform (R62). -/
def Obligations.WnttTransforms : Prop :=
  ∀ (st : Fin 16) (g : Fin 2) (s : State) (i : Nat) (e : QEntry), s.Issued st (qWhisk g) 0x30 i e →
    let t := s.stations[st]
    let p := t.wnttOf e.iw
    let h := Hdr.ofBytes (t.rd e.ea0.toNat 64)
    let ins := t.wnttIn p h e.ea0.toNat
    wnttFault (s.stnKeySet t) (s.stnTag t) t e = none →
    (∀ jl ∈ ins, ∀ x ∈ jl.2, x < (t.modAt (p.mod + p.limb0 + jl.1)).q) →
    exec (.wntt st g .clean) s = .next (s.startOp st (qWhisk g) i
      (.go (t.blur s.fresh [(e.ea1.toNat + 512, zeros (h.polys * p.limbs * h.limbRows * 512))]) { e with
        left := if p.both then stagesOf h (wnttShare true h p.limbs 0) + stagesOf h (wnttShare true h p.limbs 1)
          else stagesOf h (wnttShare false h p.limbs 0)
        hdrs := [⟨e.ea1.toNat, (p.outHdr h).bytes, false⟩]
        inp := ins.map Prod.snd })) ∧
    (∀ (m : ModEntry) (logn : Nat) (a : List Nat), 0 < logn → a.length = 2 ^ logn →
      (List.range logn).foldl (fun x k => nttStage m false logn k x) a = fwdOf m logn a ∧
      (List.range logn).foldl (fun x k => nttStage m true logn k x) a = invOf m logn a)

/-- The eleven element-wise operations of a Skillet with their opcodes (Table 14.2). -/
def skilletOps : List (Nat × (Fin 16 → Fin 2 → EccEvent → Instr)) :=
  [(0x40, .sadd), (0x41, .ssub), (0x42, .sneg), (0x43, .saddc), (0x44, .snegm), (0x45, .smul), (0x46, .smulc), (0x47, .smac),
   (0x48, .srescale), (0x49, .smodsw), (0x4A, .ssum)]

/-- SADD, SSUB, SNEG, SADDC, SNEGM, SMUL, SMULC, SMAC, SRESCALE, SMODSW and SSUM, when their checks pass (R45, Table 5.4) and every
word they read is canonical (R49), count the rows of Table 5.3 and keep them and their header to come; until the signal those rows hold
no defined contents (log entry 9). -/
def Obligations.SkilletOperationsWrite : Prop :=
  ∀ x ∈ skilletOps, ∀ (st : Fin 16) (v : Fin 2) (s : State) (i : Nat) (e : QEntry) (ws : List (Nat × List Byte)),
    s.Issued st (qSkillet v) x.1 i e →
    let t := s.stations[st]
    let p := t.sklOf e.iw
    let ks := s.stnKeySet t
    let d := t.sklIn ks p e
    let out := t.sklHdr v p d.ha d.hb d.hx ((ks.map KeySet.eKs).getD 0) (Config.freeNat s.fresh)
    sklFault t v p e d (s.stnTag t) out = none → t.sklWrites v p e d.ha d.hb = some ws →
    exec (x.2 st v .clean) s = .next (s.startOp st (qSkillet v) i
      (.go { t.blur s.fresh ws with
          skillets := vupd t.skillets v fun k => { k with rows := wrapAdd k.rows (if x.1 = 0x4A then p.rows else ws.length) } }
        { e with hdrs := [⟨e.eaX.toNat, out.bytes, p.merge⟩], out := ws }))

/-- What each element-wise operation makes of one lane: with x and y the words of A and of the second input and d DST's, the result
is the residue that Table 5.3 gives, and it is canonical (R47). -/
def Obligations.SkilletLanes : Prop :=
  ∀ (ha : Hdr) (p : Skl) (q q2 r a b d : Nat), 1 < q → a < q → b < q → d < q →
    (p.op = 0x40 → sklWords p ha q q2 r [a] [b] [] = [(a + b) % q]) ∧
    (p.op = 0x41 → ∃ c < q, sklWords p ha q q2 r [a] [b] [] = [c] ∧ (c + b) % q = a) ∧
    (p.op = 0x42 → ∃ c < q, sklWords p ha q q2 r [a] [] [] = [c] ∧ (c + a) % q = 0) ∧
    (p.op = 0x45 ∨ p.op = 0x46 → sklWords p ha q q2 r [a] [b] [] = [a * b % q]) ∧
    (p.op = 0x47 → sklWords p ha q q2 r [a] [b] [d] = [(d + a * b) % q])

/-- CXPOSE, CAUTO and CPERM, when their checks pass (R45, Table 7.4), keep their payload and their header to come, pass it through the
Card's buffer, and leave the destination without defined contents until the signal (R117 to R128, R131; the free contents are log
entry 9's). -/
def Obligations.CardOperationsWrite : Prop :=
  ∀ (st : Fin 16) (s : State) (i : Nat) (e : QEntry),
    let t := s.stations[st]
    let h := Hdr.ofBytes (t.rd e.ea0.toNat 64)
    let src := e.ea0.toNat
    let dst := e.ea1.toNat
    (s.Issued st qCard 0x60 i e → cxposeFault (s.stnKeySet t) (s.stnTag t) t e = none →
      let p := t.cxpOf e.iw
      let ws := [(dst + 512, if p.toRow then t.toRowBytes h src else t.toWm p h src)]
      exec (.cxpose st .clean) s = .next (s.startOp st qCard i (.go (t.cardDone s.fresh ws [])
        { e with hdrs := [⟨dst, (p.outHdr h).bytes, p.merge⟩], rows := (p.outHdr h).rows, out := ws }))) ∧
    (s.Issued st qCard 0x61 i e → cautoFault (s.stnKeySet t) (s.stnTag t) t e = none →
      let q := fun m => (t.modAt (t.mod0 e.iw + m % h.limbs)).q
      let limb := fun m => t.limbAt (src + 512 + m * h.n * 4) h.n
      (∀ m < h.polys * h.limbs, ∀ w ∈ limb m, w < q m) →
      let ws := [(dst + 512, (List.range (h.polys * h.limbs)).flatMap fun m => rowBytes
        (if h.layout = 1 then autoEval (setLogN h.psid) (t.param e.iw 0 18) (limb m)
          else autoCoef (q m) h.n (t.param e.iw 0 18) (limb m)))]
      exec (.cauto st .clean) s = .next (s.startOp st qCard i (.go (t.cardDone s.fresh ws [])
        { e with hdrs := [⟨dst, h.sized.bytes, t.param e.iw 18 1 == 1⟩], rows := h.rows, out := ws }))) ∧
    (s.Issued st qCard 0x62 i e → cpermFault (s.stnKeySet t) (s.stnTag t) t e = none →
      let q := fun r => (t.modAt (t.mod0 e.iw + h.limbOfRow r)).q
      let row := fun r => t.row (src + 512 + 512 * r)
      (∀ r < h.rows, ∀ w ∈ row r, w < q r) →
      let tb := t.rd e.ea2.toNat 256
      let ws := [(dst + 512, (List.range h.rows).flatMap fun r => rowBytes (permRow (q r) tb (row r)))]
      exec (.cperm st .clean) s = .next (s.startOp st qCard i
        (.go (t.cardDone s.fresh ws ((List.range 128).map fun i => fld (permEntry tb i) 0 7))
          { e with hdrs := [⟨dst, h.sized.bytes, bitAt (modsOf e.iw) 0⟩], rows := h.rows, out := ws })))

/-- KREFRESH, BEXTRACT and BPACK, when their checks pass (R45, Tables 6.8 and 8.3): a KREFRESH whose words are canonical starts its
Kettle with B accumulators and keeps B x n + F x N check units to come; the conversions borrow their engines and keep their passes or terms
to come (R102, R109, R137 to R143). -/
def Obligations.RefreshAndConversionStart : Prop :=
  ∀ (st : Fin 16) (s : State) (i : Nat) (e : QEntry),
    let t := s.stations[st]
    let ks := s.stnKeySet t
    let h := Hdr.ofBytes (t.rd e.ea0.toNat 64)
    (∀ k : Fin 8, s.Issued st (qKettle k) 0x50 i e → krefFault ks (s.stnTag t) t e = none →
      let p := t.krefOf e.iw
      let ms := t.modsFrom p.mod (digitLimbs h.psid)
      (∀ x < p.b, ∀ l < h.limbs, ∀ w ∈ t.lweWords h e.ea0.toNat (p.elem0 + x) l, w < (t.modAt (p.mod + l)).q) →
      tableOk h.psid p.f ms ((List.range p.f).map fun j => t.row (e.eaX.toNat + 512 * j)) = true →
      ∃ (u : Station) (x : QEntry), exec (.krefresh st k .clean) s = .next (s.startOp st (qKettle k) i (.go u x)) ∧
        u.kettles[k].phase = .initialise ∧ u.kettles[k].batch = p.b ∧ u.kettles[k].funcs = p.f ∧ u.kettles[k].accs.length = p.b ∧
        u.pantry = t.pantry ∧ (∀ k' : Fin 8, k' ≠ k → u.kettles[k'] = t.kettles[k']) ∧
        x = { e with
          left := p.b * lweN h.psid + p.f * h.n
          hdrs := [⟨e.ea1.toNat, (p.outHdr ((ks.map KeySet.eFresh).getD 0) h).bytes, p.merge⟩]
          rows := p.b }) ∧
    (s.Issued st qBlocker 0x70 i e → bextFault ks (s.stnTag t) t e = none →
      let p := t.bextOf e.iw
      exec (.bextract st .clean) s = .next (s.startOp st qBlocker i (.go
        { t with blocker := { t.blocker.borrow (s.borrowed st e.iw) with
            phase := 1, pass := 0, grp := ((t.grpOf e.iw).map Fin.val).getD 64, keys := [] } }
        { e with
          left := ceilDiv p.c (p.kb * p.b)
          hdrs := [⟨e.ea1.toNat, (t.bextHdr p ((ks.map KeySet.eConv).getD 0) h).bytes, p.merge⟩]
          rows := p.c }))) ∧
    (s.Issued st qBlocker 0x71 i e → bpkFault ks (s.stnTag t) t e = none →
      let p := t.bpkOf e.iw
      let zero : List Word := List.replicate (2 ^ setLogN p.pps) 0
      exec (.bpack st .clean) s = .next (s.startOp st qBlocker i (.go
        { t with blocker := { t.blocker.borrow (s.borrowed st e.iw) with
            phase := 1, pass := 0, grp := ((t.grpOf e.iw).map Fin.val).getD 64, keys := [], c0 := zero, c1 := zero } }
        { e with
          left := 3 * lweN h.psid
          hdrs := [⟨e.ea1.toNat, (p.accHdr (t.bpkHdr0 p ((ks.map KeySet.eConv).getD 0) h) (Hdr.ofBytes (t.rd e.ea1.toNat 64))).bytes,
            false⟩]
          rows := p.c })))

/-- MLOAD copies N modulus-list entries into MODTAB; AHDR whose asserted facts hold and ESYNC write nothing and start, so that they
signal (R241 to R243). -/
def Obligations.SideQueueOperations : Prop :=
  ∀ (st : Fin 16) (s : State) (i : Nat) (e : QEntry),
    let t := s.stations[st]
    (s.Issued st 0 0x08 i e →
      let first := t.param e.iw 0 6
      let lst := t.param e.iw 6 7
      let n := t.param e.iw 13 6 + 1
      first + n ≤ 64 → lst + n ≤ t.modlist.length →
      ∃ u : Station, exec (.mload st) s = .next (s.startOp st 0 i (.go u e)) ∧ u = { t with modtab := u.modtab } ∧
        (∀ j < n, u.modtab[first + j]? = t.modlist[lst + j]?) ∧
        (∀ j : Fin 64, (j.val < first ∨ first + n ≤ j.val) → u.modtab[j] = t.modtab[j])) ∧
    (s.Issued st 0 0x09 i e → ahdrFault (s.stnKeySet t) (s.stnTag t) t e = none →
      exec (.ahdr st .clean) s = .next (s.startOp st 0 i (.go t e))) ∧
    (∀ q : Fin 22, s.Issued st q 0x0A i e → exec (.esync st q) s = .next (s.startOp st q i (.go t e)))

/-- What the Pantry's code finds (R181): corrected errors are counted and the operation goes on as if it had found none; an
uncorrectable word ends the job with INTERNAL before anything is written. -/
def Obligations.PantryCodeFindings : Prop :=
  ∀ (st : Fin 16) (v : Fin 2) (s : State) (i n : Nat) (e : QEntry), s.Issued st (qSkillet v) 0x4B i e →
    (s.stations[st].pantry.corr.toNat + n < 2 ^ 16 - 1 →
      exec (.sload st v (.corrected n)) s = exec (.sload st v .clean) (s.putStn st { s.stations[st] with
        pantry := { s.stations[st].pantry with corr := BitVec.ofNat 16 (s.stations[st].pantry.corr.toNat + n) } })) ∧
    (∀ (bank : BitVec 5) (row : BitVec 11) (j : Nat), s.stations[st].job = some j →
      ∃ t, exec (.sload st v (.uncorrectable bank row)) s = .next t ∧
        (∀ x, s.crown.jobs.get? j = some x → x.state = .running →
          ∃ y, t.crown.jobs.get? j = some y ∧ y.state = .aborting ∧ y.cause = Code.internal) ∧
        t.stations[st].pantry.bank = bank ∧ t.stations[st].pantry.row = row ∧ t.stations[st].pantry.mem = s.stations[st].pantry.mem ∧
        t.stations[st].skillets = s.stations[st].skillets)

/-! ## Checks of running operations (03, 04, 05, 06, 08) -/

/-- A check unit that passes: GRIDDLE_PASS counts the rows its pass streamed and gives each output row's reduced sums to the results;
GKEYDOT_BLOCK gives a row of each output and consumes its key words; WHISK_STAGE runs one stage on the limbs of a group, and with the
last gives them to the results and counts them; each leaves one unit less to come (R56, R75, R76, R82, R89, R92). A compare agrees
exactly where QCHK is q modulo 8,191 (R55, R56). -/
def Obligations.PassesEnd : Prop :=
  ∀ (st : Fin 16) (g : Fin 2) (s : State) (i : Nat) (e : QEntry),
    let t := s.stations[st]
    (s.isBorrowed st (qGriddle g) = false → s.Running st (qGriddle g) 0x21 i e →
      let p := t.gmacOf e.iw
      let chain := t.chain g e.iw p
      let w := t.griddles[g].width
      t.passOk p e.ea0.toNat e.done = true → t.pantry.mem.wf = true →
      ∃ u : Station, exec (.griddlePass st g .pass .clean) s = .next (s.putStn st u).tick ∧
        u.griddles[g].rows = wrapAdd t.griddles[g].rows (p.passRows e.done) ∧ u.griddles[g].slots = t.griddles[g].slots ∧
        u.queues = (t.updAt (qGriddle g) i fun e =>
          e.unitOut (t.passOut p chain w e.ea0.toNat e.ea1.toNat e.done)).queues ∧
        (∀ a, (∀ x ∈ t.passOut p chain w e.ea0.toNat e.ea1.toNat e.done, a < t.phys x.1 ∨ t.phys x.1 + x.2.length ≤ a) →
          u.pantry.mem.read a = t.pantry.mem.read a) ∧ u.ctrs = t.ctrs ∧ u.flags = t.flags) ∧
    (s.isBorrowed st (qGriddle g) = false → s.Running st (qGriddle g) 0x22 i e →
      let d := t.kdD e.iw
      let h := Hdr.ofBytes ((e.hdrs.headD ⟨0, [], false⟩).bytes)
      let q := (t.modAt (t.mod0 e.iw + e.done / (h.n / 128))).q
      let digits := (List.range d).map fun k => t.row (e.ea0.toNat + 512 + (k * t.kdStride e.iw + e.done) * 512)
      let sums := kdSums digits ((t.griddles[g].keyFifo.take (256 * d)).map BitVec.toNat) (List.replicate 128 0) (List.replicate 128 0)
      256 * d ≤ t.griddles[g].keyFifo.length → (∀ r ∈ digits, ∀ x ∈ r, x < q) →
      let ws := [(e.ea1.toNat + 512 + e.done * 512, rowBytes (sums.1.map (· % q))),
        (e.eaX.toNat + 512 + e.done * 512, rowBytes (sums.2.map (· % q)))]
      exec (.gkeydotBlock st g (.pass, .clean)) s = .next (s.putStn st (((t.blur s.fresh ws).updGriddle g fun x =>
        { x with keyFifo := x.keyFifo.drop (256 * d), krows := wrapAdd x.krows d }).updAt (qGriddle g) i fun e =>
          e.unitOut ws)).tick) ∧
    (s.isBorrowed st (qWhisk g) = false → s.Running st (qWhisk g) 0x30 i e → (t.wnttOf e.iw).both = false →
      let p := t.wnttOf e.iw
      let h := Hdr.ofBytes ((e.hdrs.headD ⟨0, [], false⟩).bytes)
      let share := h.polys * p.limbs
      let logn := setLogN h.psid
      e.done < stagesOf h share →
      let k := e.done / logn * limbGroup h
      let ids := (List.range (min (limbGroup h) (share - k))).map (k + ·)
      let a := if e.done % logn = 0 then ids.map fun x => e.inp.getD x [] else t.whisks[g].half
      let b := List.zipWith (fun x l => nttStage (t.modAt (p.mod + p.limb0 + x % p.limbs)) p.inv logn (e.done % logn) l) ids a
      let last := (e.done + 1) % logn = 0
      let ws := if last then List.zipWith (fun x l => (e.ea1.toNat + 512 + x * h.limbRows * 512, rowBytes l)) ids b else []
      exec (.whiskStage st g .pass) s = .next (s.putStn st { t.updAt (qWhisk g) i (fun e => e.unitOut ws) with
        whisks := vupd t.whisks g fun w =>
          { w with kept := a, half := b, limbs := wrapAdd w.limbs (if last then ids.length else 0) } })) ∧
    (∀ q x : Nat, 2 ^ 20 < q → q < 2 ^ 31 → x < 2 ^ 72 →
      checkAgrees (q % 8191) x (barrettQuot q (2 ^ 72 / q) x) (barrett q (2 ^ 72 / q) x) = true)

/-- The steps of a running KREFRESH whose check passes, and a BEXTRACT's pass: a Kettle whose step 0 is buffered starts its rotation;
an element-step updates one accumulator; a key-switch round consumes its key rows; a BEXTRACT pass writes its rows. An element-step
leaves the other accumulators; a batch's last element releases the step's key buffer and goes on to the next step, and the last step
goes on to the key switch (R102, R109 to R112, R139). -/
def Obligations.RefreshSteps : Prop :=
  ∀ (st : Fin 16) (k : Fin 8) (s : State) (i n : Nat) (e : QEntry),
    let t := s.stations[st]
    let kt := t.kettles[k]
    (s.Running st (qKettle k) 0x50 i e → kt.phase = .initialise → kt.stepHeld 0 = true →
      exec (.kettleRotationStart st k n) s = .next (s.putStn st { t with
        kettles := t.kettles.set k { kt with phase := .rotation, stall := wrapAdd kt.stall n } })) ∧
    (s.Running st (qKettle k) 0x50 i e → kt.phase = .rotation → kt.stepHeld kt.step = true →
      exec (.kettleElementStep st k (.pass, n)) s = .next (s.putStn st (((t.addStall k n).updKettle k fun x =>
        x.stepped (t.ktlMods k)).updAt (qKettle k) i QEntry.unitDone))) ∧
    (s.isBorrowed st (qKettle k) = false → s.Running st (qKettle k) 0x50 i e → kt.phase = .keySwitch →
      roundWords kt.psid ≤ kt.ksq.length →
      exec (.keySwitchRound st k (.pass, n)) s = .next (s.putStn st ((t.addStall k n).afterRound k i e s.fresh)).tick) ∧
    (s.Running st qBlocker 0x70 i e → t.blocker.phase = 2 → t.blocker.keys.length = convWords (t.bextOf e.iw).dps →
      exec (.bextractPass st) s = .next (s.putStn st (((t.wrAll (t.bextWrites e e.done)).updBlocker fun b =>
        { b with keys := [], pass := b.pass + 1 }).updAt qBlocker i QEntry.unitDone))) ∧
    (∀ (k : Kettle) (ms : List ModEntry), let k' := k.stepped ms
      (∀ x, x ≠ k.elem → k'.accs[x]? = k.accs[x]?) ∧ k'.accs.length = k.accs.length ∧
      (k.elem + 1 < k.batch → k'.elem = k.elem + 1 ∧ k'.step = k.step ∧ k'.phase = k.phase ∧ k'.kbuf0 = k.kbuf0 ∧ k'.kbuf1 = k.kbuf1) ∧
      (k.batch ≤ k.elem + 1 → k'.elem = 0 ∧ k'.kbuf k.step = [] ∧ k'.kbuf (k.step + 1) = k.kbuf (k.step + 1) ∧
        (k.step + 1 < lweN k.psid → k'.step = k.step + 1 ∧ k'.phase = k.phase) ∧
        (lweN k.psid ≤ k.step + 1 → k'.phase = .keySwitch ∧ k'.step = 0 ∧ k'.pass = 0)))

/-- A first failure counts a replay and goes on; a second counts a failure, faults CHECK_REPLAY_FAILED, logs a JOB event and ends the job
(R57, R60). Shown for an element-step; the engines share the rule. -/
def Obligations.CheckReplays : Prop :=
  ∀ (st : Fin 16) (k : Fin 8) (s : State) (i : Nat) (e : QEntry), s.Running st (qKettle k) 0x50 i e →
    let eng : Fin 12 := ⟨4 + k.val, by omega⟩
    let c := s.stations[st].chk[eng]
    s.stations[st].kettles[k].phase = .rotation → s.stations[st].kettles[k].stepHeld s.stations[st].kettles[k].step = true →
    (∀ g n, c.replays.toNat < 2 ^ 16 - 2 → ∃ t, exec (.kettleElementStep st k (.replayed g, n)) s = .next t ∧
      t.stations[st].chk[eng] = { c with replays := c.replays + 1 } ∧
      t.stations[st].kettles[k] = ((s.stations[st].addStall k n).kettles[k]).stepped (s.stations[st].ktlMods k)) ∧
    (∀ g n j x, s.stations[st].job = some j → s.stations[st].held = true → s.crown.jobs.get? j = some x → x.state = .running → s.mon.queue.length < 255 →
      ∃ t y, exec (.kettleElementStep st k (.failed g, n)) s = .next t ∧
      t.stations[st].chk[eng].fails = satAdd c.fails 1 ∧ t.stations[st].pantry = s.stations[st].pantry ∧
      t.stations[st].queues = Vector.replicate 22 [] ∧ t.crown.jobs.get? j = some y ∧ y.state = .aborting ∧
      y.cause = Code.checkReplayFailed ∧ (∃ ev ∈ t.mon.queue, ev.cls = clsJob ∧ ev.code = Code.checkReplayFailed))

/-! ## Stream engines (10, 11) -/

/-- XFER with its list in a buffer, or aligned in the window; XGATHER with aligned rows in the window and a bound buffer; and FSTREAM whose
parts pass Table 9.7: each starts. FCLOSE ends its group's stream: at once where no row of the current object has launched, otherwise
when the object is complete; where no stream is open it has nothing to end (R151, R191, R244, R245). -/
def Obligations.StreamOperationsStart : Prop :=
  ∀ (st : Fin 16) (e : Fin 4) (s : State) (i : Nat) (q : QEntry),
    let t := s.stations[st]
    (s.Issued st (qStream e) 0x10 i q →
      (t.listInMem q.iw = true ∨ (q.ea0 % 32 = 0 ∧ t.inWin q.ea0 (32 * t.ndesc q.iw) = true)) →
      exec (.xfer st e) s = .next (s.startOp st (qStream e) i (.go t { q with left := t.ndesc q.iw }))) ∧
    (s.Issued st (qStream e) 0x11 i q → q.ea0 % 512 = 0 → q.eaX % 512 = 0 →
      t.inWin q.ea0 (ceilDiv (t.nidx q.iw) 128 * 512) = true → t.inWin q.eaX (ceilDiv (t.nidx q.iw) 16 * 512) = true →
      (s.handleOf t (t.gatherHandle q.iw)).isSome = true →
      exec (.xgather st e) s = .next (s.startOp st (qStream e) i (.go t { q with left := t.nidx q.iw }))) ∧
    (s.Issued st qFunnel 0x18 i q → fstreamFault (s.stnKeySet t) t q.iw = none →
      exec (.fstream st) s = .next (s.startOp st qFunnel i (.go t { q with left := 1 }))) ∧
    (s.Issued st qFunnel 0x19 i q → s.streamOf (t.groupOf q.iw) = none →
      exec (.fclose st) s = .next (s.startOp st qFunnel i (.go t q))) ∧
    (∀ (lead : Fin 16) (j : Nat) (x : KeyStream), s.Issued st qFunnel 0x19 i q → s.streamOf (t.groupOf q.iw) = some (lead, j, x) →
      x.phase ≠ .precheck →
      let s1 := s.startOp st qFunnel i (.go t { q with left := 1 })
      (x.rows = 0 → exec (.fclose st) s = .next (s1.closeStream lead j (t.groupOf q.iw))) ∧
      (x.rows ≠ 0 → exec (.fclose st) s = .next (s1.updStream lead j fun y => { y with phase := .closing })))

/-- DESCRIPTOR_FETCH of a list block in the Pantry appends its descriptors, up to a fence; DESCRIPTOR_START starts the oldest fetched
COPY or ZERO that passes R188; XFER_SIGNAL takes the ended head off the queue and raises its signal (R188, R191 to R194). -/
def Obligations.DescriptorsStart : Prop :=
  ∀ (st : Fin 16) (e : Fin 4) (s : State),
    let t := s.stations[st]
    let x := t.ses4[e]
    (∀ (i o : Nat) (q : QEntry), s.Running st (qStream e) 0x10 i q → x.fencing = false → x.ahead.length < 64 →
      t.listInMem q.iw = false → q.ea0 + 32 * (q.fetched : Int) = o → o % 32 = 0 →
      let n := fetchCount o q.left x.ahead.length
      let ds := toFence (chunked 32 n (t.rd o (32 * n)))
      exec (.descriptorFetch st e .clean) s = .next (s.putStn st ((t.updSe e fun x =>
        { x with
          ahead := x.ahead ++ ds.zipIdx.map fun d => (⟨q.xid, q.fetched + d.2, d.1⟩ : FDesc)
          fencing := ds.any dscFence }).updAt (qStream e) i fun q =>
            { q with fetched := q.fetched + ds.length, left := q.left - ds.length }))) ∧
    (∀ d : FDesc, s.Specified → s.jobRuns t = true → x.startable = some d → dscKind d.bytes < 2 → s.dscFault st d.bytes = none →
      ∃ u, exec (.descriptorStart st e) s = .next (s.putStn st u) ∧ u.ses4[e].ahead = x.ahead.tail ∧
        u.ses4[e].run = x.run ++ [⟨d.xid, d.idx, d.bytes, 0, 0, 0⟩] ∧ u.pantry = t.pantry ∧ u.ctrs = t.ctrs ∧ u.flags = t.flags ∧
        (∀ e' : Fin 4, e' ≠ e → u.ses4[e'] = t.ses4[e'])) ∧
    (∀ q : QEntry, s.Specified → s.jobRuns t = true → t.xferEnded e = some q →
      exec (.xferSignal st e) s = .next ((s.putStn st (t.dropAt (qStream e) 0)).raise st q.iw))

/-- CHUNK_ISSUE: a chunk takes a tag and its read issues: a Pantry, a buffer and NONE answer with their bytes, the host's are waited for;
CHUNK_LAND writes the whole rows of a chunk at a Pantry destination, or its bytes in a buffer, and releases its tag; SIEVE_READ brings the
next 32 bytes of an XGATHER and writes each full row, zero-padded at the end (R167, R189, R193, R210, R244). -/
def Obligations.ChunksMove : Prop :=
  ∀ (st : Fin 16) (e : Fin 4) (s : State),
    let t := s.stations[st]
    let x := t.ses4[e]
    (∀ r : RDesc, s.Specified → s.jobRuns t = true → x.issuing = some r → x.run? r.xid r.idx = some r →
      (dscDst r.bytes).space ≠ spRpantry → (∀ k ∈ x.chunks, k.xid = r.xid → k.idx = r.idx → k.off ≠ r.issued) →
      let src := dscSrc r.bytes
      let tagged := fun (d : Option (List Byte)) =>
        ∃ u, exec (.chunkIssue st (e, .clean)) s = .next (s.putStn st u) ∧ u.pantry = t.pantry ∧
          u.ses4[e].chunks = x.chunks ++ [⟨r.xid, r.idx, r.issued, r.chunkLen, d, 0, false⟩]
      (src.space = spPantry → tagged (some (t.rd (src.off + r.issued) r.chunkLen))) ∧
      (src.space = spNone → tagged (some (zeros r.chunkLen))) ∧
      (∀ h : Handle, src.space = spMem → s.handleOf t src.handle = some h →
        s.poisonIn (h.addr + src.off + r.issued) r.chunkLen = [] →
        tagged (some (s.memBytes (h.addr + src.off + r.issued) r.chunkLen))) ∧
      (src.space = spHost → tagged none)) ∧
    (∀ (c : Nat) (k : Chunk) (r : RDesc) (b : List Byte), s.Specified → s.jobRuns t = true → x.landable c = some (k, r, b) →
      dscKind r.bytes ≠ 3 →
      let d := dscDst r.bytes
      let rows := x.wholeRows k b
      let freed := fun (u : Station) => (u.updSe e fun x => { x with chunks := x.chunks.eraseIdx c }).landBytes e k.xid k.idx k.len
      (k.off % 512 = 0 → (k.off + k.len) % 512 = 0 → rows = (k.off, b)) ∧
      (d.space = spPantry → exec (.chunkLand st e c .clean) s = .next (s.putStn st (freed (t.wr (d.off + rows.1) rows.2)))) ∧
      (∀ h : Handle, d.space = spMem → s.handleOf t d.handle = some h →
        exec (.chunkLand st e c .clean) s = .next ((s.memPut (h.addr + d.off + k.off) b).updStn st freed))) ∧
    (∀ (i : Nat) (q : QEntry) (h : Handle), s.Running st (qStream e) 0x11 i q → gatherFree e s t q = true →
      s.handleOf t (t.gatherHandle q.iw) = some h →
      let row := if q.done % 128 = 0 then t.rd (q.ea0.toNat + 4 * q.done) 512 else q.idx
      let n := leNat (slice row (4 * (q.done % 128)) 4)
      let acc := q.acc ++ s.memBytes (h.addr + 32 * n) 32
      32 * n + 32 ≤ h.len → s.poisonIn (h.addr + 32 * n) 32 = [] →
      (acc.length ≠ 512 → 1 < q.left →
        exec (.sieveRead st e .clean) s = .next ((s.countSieve (h.addr + 32 * n)).updStn st fun t =>
          t.updAt (qStream e) i fun q => { q with left := q.left - 1, done := q.done + 1, acc := acc, idx := row })) ∧
      (acc.length = 512 ∨ q.left = 1 →
        exec (.sieveRead st e .clean) s = .next ((s.countSieve (h.addr + 32 * n)).updStn st fun t =>
          ((t.wr (q.eaX.toNat + 512 * q.rows) (padTo 512 acc)).updSe e fun x =>
            { x with bytes := wrapAdd x.bytes 512 }).updAt (qStream e) i fun q =>
              { q with left := q.left - 1, done := q.done + 1, acc := [], idx := row, rows := q.rows + 1 })))

/-- HOST_DMA_CHUNK: a HOST read whose CRC and alive value pass brings its bytes and NEXT counts on; a first CRC failure only marks the
chunk for one retry, and a second faults INTERNAL; a repeated alive value drops the chunk and is logged, and a gap faults ALIVE_GAP; a
chunk to the HOST writes the bytes it read at its place and
is accepted (R187, R319, R322). -/
def Obligations.HostChunks : Prop :=
  ∀ (st : Fin 16) (e : Fin 4) (c : Nat) (s : State) (k : Chunk) (r : RDesc) (bytes : List Byte) (crc alive : Word),
    s.Specified → s.jobRuns s.stations[st] = true → s.stations[st].ses4[e].hostChunk c = some (k, r) →
    let t := s.stations[st]
    let good := bytes.length = k.len ∧ crc32c (bytes ++ natLe 4 alive.toNat) = crc.toNat
    (waitsHost k r = true → good → alive = t.ses4[e].bandNext →
      exec (.hostDmaChunk st e c bytes crc alive) s = .next ((s.putStn st (t.updSe e fun x =>
        { x with bandNext := x.bandNext + 1, bandTx := x.bandTx + 1 })).gotData st e k.xid k.idx k.off bytes)) ∧
    (waitsHost k r = true → good → alive = t.ses4[e].bandNext → t.ses4[e].chunk? k.xid k.idx k.off = some k →
      ∃ u : State, exec (.hostDmaChunk st e c bytes crc alive) s = .next u ∧
        u.stations[st].ses4[e].chunk? k.xid k.idx k.off = some { k with data := some bytes } ∧
        u.stations[st].ses4[e].bandNext = t.ses4[e].bandNext + 1 ∧ u.stations[st].pantry = t.pantry ∧ u.mem = s.mem) ∧
    (waitsHost k r = true → bytes.length = k.len → ¬ good → k.retried = false →
      exec (.hostDmaChunk st e c bytes crc alive) s = .next (s.putStn st (t.updSe e fun x =>
        x.updChunk k.xid k.idx k.off fun y => { y with retried := true }))) ∧
    (waitsHost k r = true → bytes.length = k.len → ¬ good → k.retried = true →
      exec (.hostDmaChunk st e c bytes crc alive) s = .next (s.seLogged st e Code.internal r.idx)) ∧
    (bytes.length ≠ k.len → exec (.hostDmaChunk st e c bytes crc alive) s = .next (s.seLogged st e Code.internal r.idx)) ∧
    (waitsHost k r = true → good → aliveClass 32 t.ses4[e].bandNext.toNat alive.toNat = .gap →
      exec (.hostDmaChunk st e c bytes crc alive) s = .next (s.seLogged st e Code.aliveGap r.idx)) ∧
    (waitsHost k r = true → good → t.ses4[e].bandNext = alive + 1 →
      ∃ u, exec (.hostDmaChunk st e c bytes crc alive) s = .next u ∧ u.stations = s.stations ∧ u.hostOut = s.hostOut ∧ u.mem = s.mem) ∧
    (∀ (j : Nat) (x : Job), waitsHost k r = false → good → k.data = some bytes → alive = t.ses4[e].bandNextW → t.job = some j →
      s.crown.jobs.get? j = some x →
      exec (.hostDmaChunk st e c bytes crc alive) s = .next { s.putStn st (t.updSe e fun x =>
        { x.updChunk k.xid k.idx k.off (fun y => { y with taken := y.len }) with
          bandNextW := x.bandNextW + 1, bandTxW := x.bandTxW + 1 }) with
        hostOut := s.hostOut ++ [.write x.func ((dscDst r.bytes).off + k.off) bytes] })

/-- REMOTE_PANTRY_ACCESS: the oldest access from one station to another: a read of the window brings its bytes to the sender's chunk, a
write lands in the target's window and is accepted, and an access that names another role touches no Pantry, is counted and is
answered (R180, R258). -/
def Obligations.RemotePantry : Prop :=
  ∀ (src dst : Fin 16) (s : State) (i : Nat) (m : NetMsg) (e : Fin 4) (xid idx off a len : Nat) (bytes : List Byte),
    s.Specified → firstWith (fun n => n.isAccess && n.src == src && n.dst == dst) s.net = some (i, m) → src ≠ dst →
    let t := s.stations[dst]
    let s1 : State := { s with net := s.net.eraseIdx i }
    (t.accepts m.ses m.epoch = true → s.senderRuns m = true → m.kind = .paRead e xid idx off a len → t.inWin a len = true →
      exec (.remotePantryAccess src (dst, .clean)) s = .next (s1.gotData src e xid idx off (t.rd a len))) ∧
    (t.accepts m.ses m.epoch = true → s.senderRuns m = true → m.kind = .paWrite e xid idx off a bytes →
      t.inWin a bytes.length = true →
      exec (.remotePantryAccess src (dst, .clean)) s = .next ((s1.putStn dst (t.wr a bytes)).putStn src
        (s.stations[src].updSe e fun x => x.accepted xid idx off bytes.length))) ∧
    (t.accepts m.ses m.epoch = false →
      exec (.remotePantryAccess src (dst, .clean)) s = .next ({ s1 with net := s.net.eraseIdx i ++ [m.answer] }.putStn dst
        { t with staleAcc := wrapAdd t.staleAcc 1 }))

/-! ## The Funnel (09) -/

/-- STREAM_OPEN opens a stream for the first FSTREAM that the limits let through; PRECHECK_DONE lets a stream run whose pages all pass,
and otherwise raises FSTREAM's signal and ends its job with the first failing page's code; MAP_CACHE_FILL brings an aligned pair of map
entries into the cache (R150, R151, R158, R160). -/
def Obligations.KeyStreamsOpen : Prop :=
  ∀ (st : Fin 16) (s : State), s.Specified → s.jobRuns s.stations[st] = true →
    let t := s.stations[st]
    (∀ (i : Nat) (e : QEntry), s.openable st = some (i, e) →
      ∃ (u : Station) (x : KeyStream), exec (.streamOpen st) s = .next (s.putStn st u) ∧
        u.funnel = { t.funnel with streams := t.funnel.streams ++ [x] } ∧ x.grp = t.groupOf e.iw ∧ x.phase = .precheck ∧
        x.parts = t.partsOf e.iw ∧ x.rounds = t.param e.iw 34 16 ∧ x.launch = [] ∧ x.rows = 0 ∧ u.pantry = t.pantry) ∧
    (∀ (j : Nat) (x : KeyStream) (hdrs : List PageRead), t.funnel.streams[j]? = some x → x.phase = .precheck →
      (∀ s1 : State, State.precheckGo st (s.stnTag t) (t.funnel.pagesOf x) hdrs s = (s1, none) →
        exec (.precheckDone st j hdrs) s = .next ((s1.updStream st j fun x => { x with phase := .running }).updStn st fun t =>
          t.prechecked x.grp)) ∧
      (∀ (s1 : State) (c : Byte) (d : ObjDesc) (n : Nat),
        State.precheckGo st (s.stnTag t) (t.funnel.pagesOf x) hdrs s = (s1, some (c, d, n)) →
        (∀ e : QEntry, t.fstreamOf x.grp = some e →
          exec (.precheckDone st j hdrs) s = .next ((s1.raise st e.iw).streamFail st c (d.first + n) (some d))) ∧
        (t.fstreamOf x.grp = none → exec (.precheckDone st j hdrs) s = .next (s1.streamFail st c (d.first + n) (some d))))) ∧
    (∀ m : Nat, (t.funnel.walks m).isSome = true → t.funnel.cached m = none →
      s.poisonIn (t.funnel.mapAddr (m / 2 * 2)) 32 = [] →
      ∃ u : State, exec (.mapCacheFill st m) s = .next u ∧
        u.stations[st].funnel.cached m =
          some (KpmEntry.ofBytes ((s.memBytes (t.funnel.mapAddr (m / 2 * 2)) 32).drop (16 * (m % 2)))) ∧
        u.stations[st].funnel.miss = wrapAdd t.funnel.miss 1 ∧ u.mem.data = s.mem.data)

/-- PAGE_ARRIVAL of a page that passes its checks counts it, expands its payload and goes on; KEY_ROW_LAUNCH gives a group's one
consumer, a Griddle, the next 128 words (R152, R153, R157, R159). -/
def Obligations.KeyStreamsDeliver : Prop :=
  ∀ (st : Fin 16) (s : State), s.Specified →
    (∀ (j : Nat) (x : KeyStream) (d : ObjDesc) (ks : KeySet) (remote : PageRead) (s1 s2 : State) (e : KpmEntry) (hdr bs : List Byte),
      s.jobRuns s.stations[st] = true → s.fetching st j = some (x, d) → s.stnKeySet s.stations[st] = some ks →
      s.checkPage st (s.stnTag s.stations[st]) d x.pages remote false = (s1, .ok (e, hdr)) →
      s1.pageBytes e 512 (field hdr 24 4) remote = (s2, .ok bs) →
      let y := (s2.updFunnel st fun f => { f with pagesOk := wrapAdd f.pagesOk 1 }).expand st ks d
        { x with pages := x.pages + 1, body := x.body ++ bs, seed := slice hdr 28 32 }
      exec (.pageArrival st j remote) s = .next (y.1.goOn st j d y.2)) ∧
    (∀ (grp : Fin 64) (j : Nat) (wait : List Nat) (x : KeyStream) (m : Fin 16) (g : Fin 2), s.launchable grp.val = some (st, j, x) →
      s.groupConsumers grp.val = [(m, .griddle g)] → s.jobRuns s.stations[m] = true → (x.cur.kind = 4 ∨ x.cur.kind = 5) →
      ∃ u : State, exec (.keyRowLaunch grp wait) s = .next u ∧
        u.stations[m].griddles[g].keyFifo = s.stations[m].griddles[g].keyFifo ++ x.launch.take 128 ∧
        u.stations[m].pantry = s.stations[m].pantry)

/-! ## Module memory and windows (10, 12) -/

/-- MEM_UNIT_ACCESS with a whole unit: its 64 bytes read as written, every other byte as before, and the unit is poisoned no more; a
read leaves every byte; an address outside every region stops the model, since it is never issued to a controller. MEM_CRC_REREAD: a
compare that a re-read mends counts its failures and one recovery; one that all three re-reads fail poisons the unit, counts it, keeps
its address and is logged; the CRC stored beside a unit is that of its bytes and its place (R201, R203, R205, R206). -/
def Obligations.UnitAccesses : Prop :=
  ∀ (ma : Nat) (s : State), s.Specified → s.mem.ready = true → s.mem.data.wf = true →
    ((s.place ma).isSome = true → ∀ bytes : List Byte, bytes.length = 64 →
      ∃ t, exec (.memUnitAccess ma (.write bytes)) s = .next t ∧
        (∀ k < 64, t.mem.data.read (ma / 64 * 64 + k) = bytes.getD k 0) ∧
        (∀ a, (a < ma / 64 * 64 ∨ ma / 64 * 64 + 64 ≤ a) → t.mem.data.read a = s.mem.data.read a) ∧
        ma / 64 ∉ t.mem.poison ∧ (∀ u, u ≠ ma / 64 → (u ∈ t.mem.poison ↔ u ∈ s.mem.poison)) ∧
        (∀ p, s.place (ma / 64 * 64) = some p → t.mem.crcs.get? (ma / 64) = some (unitCrc bytes p.2)) ∧
        t.mem.regions = s.mem.regions ∧ t.stations = s.stations ∧ t.mem.stackRegs = s.mem.stackRegs) ∧
    ((s.place ma).isSome = true → ∀ (off : Nat) (bytes : List Byte), off + bytes.length ≤ 64 →
      ∃ t, exec (.memUnitAccess ma (.modify off bytes)) s = .next t ∧ t.stations = s.stations ∧
        (∀ a, (a < ma / 64 * 64 + off ∨ ma / 64 * 64 + off + bytes.length ≤ a) → t.mem.data.read a = s.mem.data.read a) ∧
        (s.poisonIn (ma / 64 * 64) 64 = [] →
          ∀ k < bytes.length, t.mem.data.read (ma / 64 * 64 + off + k) = bytes.getD k 0) ∧
        (s.poisonIn (ma / 64 * 64) 64 ≠ [] → t.mem.data = s.mem.data ∧ t.mem.poison = s.mem.poison)) ∧
    ((s.place ma).isSome = true → ∃ t, exec (.memUnitAccess ma .read) s = .next t ∧ t.mem.data = s.mem.data ∧
      t.mem.poison = s.mem.poison ∧ (s.poisonIn (ma / 64 * 64) 64 = [] → t = s)) ∧
    ((s.place ma).isNone = true → ∀ acc, exec (.memUnitAccess ma acc) s = .fault .noSuchModuleAddress) ∧
    (∀ (fails : Fin 4) (site slocal : Nat) (x : Stack), s.place ma = some (site, slocal) → s.mem.stackRegs[site]? = some x →
      x.detect.toNat < 2 ^ 16 - 5 → x.recov.toNat < 2 ^ 8 - 2 → x.poisonCnt.toNat < 2 ^ 7 - 2 → s.mon.queue.length < 256 →
      ma / 64 ∉ s.mem.poison →
      ∃ t y, exec (.memCrcReread ma fails) s = .next t ∧ t.mem.stackRegs[site]? = some y ∧ t.mem.data = s.mem.data ∧
        (fails.val < 3 → y = { x with detect := x.detect + 1 + BitVec.ofNat 16 fails.val, recov := x.recov + 1 } ∧
          t.mem.poison = s.mem.poison ∧ t.mon = s.mon) ∧
        (fails.val = 3 → y = { x with
            detect := x.detect + 4
            poisonCnt := x.poisonCnt + 1
            erraddr := BitVec.ofNat 40 (ma / 64 * 64) } ∧
          t.mem.poison = s.mem.poison ++ [ma / 64] ∧ t.mon.queue.length = s.mon.queue.length + 1))

/-- BAR2_ACCESS: a read of what nothing maps, or before memory is ready, is answered Unsupported Request and a write is dropped; a
mapped read within one version that meets no poison is answered with the stored bytes (R276, R291). -/
def Obligations.HostWindow : Prop :=
  ∀ (f : Fin 64) (off len : Nat) (s : State), s.Specified → s.linkUp = true →
    (s.mem.ready = false ∨ s.barMap f off len = none →
      exec (.bar2Access f off len none) s = .next { s with hostOut := s.hostOut ++ [.cplUR f] }) ∧
    (∀ b : List Byte, s.mem.ready = false ∨ s.barMap f off b.length = none →
      exec (.bar2Access f off len (some b)) s = .next s) ∧
    (∀ (b : Buffer) (o : Nat), s.mem.ready = true → s.barMap f off len = some (b, o) → 0 < len → o + len ≤ b.len →
      s.poisonIn (b.v0 + o) len = [] →
      exec (.bar2Access f off len none) s =
        .next { s with hostOut := s.hostOut ++ [.cplData f (s.memBytes (b.v0 + o) len)] }) ∧
    (∀ (b : Buffer) (o : Nat) (bytes : List Byte), s.mem.ready = true → s.barMap f off bytes.length = some (b, o) →
      o + bytes.length ≤ b.len → s.poisonIn (b.v0 + o) bytes.length = [] → s.mem.data.wf = true →
      ∃ t, exec (.bar2Access f off len (some bytes)) s = .next t ∧
        (∀ k < bytes.length, t.mem.data.read (b.v0 + o + k) = bytes.getD k 0) ∧
        (∀ a, (a < b.v0 + o ∨ b.v0 + o + bytes.length ≤ a) → t.mem.data.read a = s.mem.data.read a) ∧ t.hostOut = s.hostOut)

/-- STACK_TEMPERATURE_READING sets the refresh multiplier: a rising reading raises it at 85 and 95 °C, and it falls only 2 °C below;
above 105 °C the stack is marked hot (R208, Table 12.3). -/
def Obligations.RefreshByTemperature : Prop :=
  ∀ (site : Fin 8) (temp : Nat) (s : State), s.Specified → s.boot.state ≠ .off → bitAt s.grade.sites.toNat site.val = true →
    let x := s.mem.stackRegs[site]
    ∃ t, exec (.stackTemperatureReading site temp) s = .next t ∧
      t.mem.stackRegs[site].temp = BitVec.ofNat 8 (min temp 255) ∧
      (95 ≤ temp → x.refmul ≤ 2 → t.mem.stackRegs[site].refmul = 2) ∧
      (93 < temp → temp < 95 → x.refmul = 2 → t.mem.stackRegs[site].refmul = 2) ∧
      (85 ≤ temp → temp < 95 → x.refmul ≤ 1 → t.mem.stackRegs[site].refmul = 1) ∧
      (83 < temp → temp < 85 → x.refmul = 1 → t.mem.stackRegs[site].refmul = 1) ∧
      (temp ≤ 83 → t.mem.stackRegs[site].refmul = 0) ∧
      (105 < temp → t.mem.stackRegs[site].hot = true) ∧ (temp ≤ 105 → t.mem.stackRegs[site].hot = x.hot) ∧
      (∀ o : Fin 8, o ≠ site → t.mem.stackRegs[o] = s.mem.stackRegs[o]) ∧ t.mem.data = s.mem.data

/-- WINDOW_ZEROING_DONE: every byte of the window reads 0, every other byte of the Pantry as before, and the window is invalid and no
longer zeroing. MEM_ZEROING_DONE sets MEM_STATUS.READY, or with a fault leaves it 0 and adds a log entry; MARGIN_POINT_TEST shows its
result and clears RUN (R172, R213, R215). -/
def Obligations.ZeroingAndMargin : Prop :=
  ∀ (s : State), s.Specified →
    (∀ (st : Fin 16) (w : Fin 4), bitAt s.stations[st].pantry.zwin.toNat w.val = true →
      let x := s.stations[st].pantry.wins[w]
      ∃ t, exec (.windowZeroingDone st w) s = .next t ∧
        (∀ a, x.baseAddr ≤ a → a < x.baseAddr + x.bytes → t.stations[st].pantry.mem.read a = 0) ∧
        (∀ a, (a < x.baseAddr ∨ x.baseAddr + x.bytes ≤ a) →
          t.stations[st].pantry.mem.read a = s.stations[st].pantry.mem.read a) ∧
        t.stations[st].pantry.wins[w] = { x with valid := false } ∧ bitAt t.stations[st].pantry.zwin.toNat w.val = false ∧
        (∀ st', st' ≠ st → t.stations[st'] = s.stations[st'])) ∧
    (s.boot.state ≠ .off → s.mem.zeroing = true →
      (∃ t, exec (.memZeroingDone true) s = .next t ∧ t.mem = { s.mem with ready := true, zeroing := false }) ∧
      (s.mon.queue.length < 256 → ∃ t, exec (.memZeroingDone false) s = .next t ∧
        t.mem = { s.mem with ready := false, zeroing := false } ∧ t.mon.queue.length = s.mon.queue.length + 1)) ∧
    (∀ (site : Fin 8) (pass : Bool), s.mem.margin = true → s.mem.stackRegs[site].running = true → s.crown.marginReq = none →
      ∃ t, exec (.marginPointTest site pass) s = .next t ∧
        t.mem.stackRegs[site] = { s.mem.stackRegs[site] with passed := pass, running := false } ∧
        (∀ o : Fin 8, o ≠ site → t.mem.stackRegs[o] = s.mem.stackRegs[o]) ∧ t.mem.data = s.mem.data)

/-! ## Mailbox commands (16) -/

/-- The commands of the mailboxes: opcode, payload fields, whether the PF alone may send it, whether it names a session (Table
16.7). -/
def mailboxRows (dma : HostRead) (path : PathEvent) (objs : List HostRead) : List (Nat × List (Nat × Nat) × Bool × Bool × (Fin 64 → Instr)) :=
  [(0x01, [], false, false, .deviceInfo), (0x02, [(0, 1), (2, 2), (4, 2), (8, 8)], true, false, .funcConfig),
   (0x03, [(0, 4)], true, false, .powerCap), (0x04, [], true, false, .resetWarm), (0x05, [], true, false, .resetCold),
   (0x06, [(0, 1)], true, false, .stationReset),
   (0x07, [(0, 1), (1, 1), (2, 1), (4, 1), (5, 1), (6, 1), (7, 1)], true, false, .memMargin),
   (0x08, [(0, 8), (8, 8)], true, false, .monSnapshot),
   (0x10, [(0, 2), (2, 2), (4, 2), (8, 4), (0xC, 32)], false, false, .sessionOpen), (0x11, [], false, true, .sessionClose),
   (0x12, [(0, 1), (8, 8)], false, true, fun f => .sessionModlist f dma), (0x13, [], false, true, .sessionQuery),
   (0x20, [(0, 8), (8, 4)], false, true, fun f => .keysetRegister f dma objs),
   (0x21, [(0, 4), (8, 8), (0x10, 2)], false, true, fun f => .keysetVerify f dma), (0x22, [(0, 4)], false, true, .keysetActivate),
   (0x23, [(0, 4)], false, true, .keysetRetire)] ++
  [(0x30, [(0, 1), (8, 8)], false, true, .bufAlloc), (0x31, [(0, 4)], false, true, .bufFree), (0x32, [(0, 4)], false, true, .bufCommit),
   (0x33, [(0, 4)], false, true, .bufQuery), (0x34, [(0, 4), (8, 8)], false, true, .bufMap), (0x35, [(0, 4)], false, true, .bufUnmap),
   (0x36, [(0, 4), (4, 1), (5, 1), (8, 8), (0x10, 8), (0x18, 8)], false, true, fun f => .bufDma f (dma, path)),
   (0x40, [(0, 8), (8, 4), (0xC, 4), (0x10, 8), (0x18, 2), (0x1A, 1), (0x20, 8), (0x28, 2)], false, true, .jobSubmit),
   (0x41, [(0, 4)], false, true, .jobAbort), (0x42, [(0, 4)], false, true, .jobQuery),
   (0x50, [(0, 8), (8, 4)], true, false, fun f => .fwStage f dma), (0x51, [(0, 4)], true, false, .fwActivate),
   (0x52, [(0, 32), (0x20, 8), (0x28, 4)], false, false, .attest), (0x60, [(0, 2), (2, 1), (3, 1), (4, 2)], true, false, .fabConfig),
   (0x61, [(0, 1)], true, false, .fabStatus), (0x62, [(0, 4), (4, 2)], false, true, .fabExport),
   (0x63, [(0, 2)], false, true, .fabUnexport)]

/-- The refusals that every command shares (R255, R286, R347): in recovery, INTERNAL with a NOTE for all but three; BAD_OPERAND for a
wrong LEN or a reserved byte that is not 0, for a command of the PF's from a VF, and for a session that the function may not
command. -/
def Obligations.RequestsRefused : Prop :=
  ∀ (dma : HostRead) (path : PathEvent) (objs : List HostRead), ∀ x ∈ mailboxRows dma path objs, ∀ (f : Fin 64) (s : State) (e : ReqEntry),
    s.Specified → s.heads f x.1 = some e →
    (s.boot.recovery = true → x.1 ∉ recoveryOps →
      exec (x.2.2.2.2 f) s = .next ((((s.popReq f).logEvt (plainEvt clsNote Code.internal 0 0xFF 0xFF [])).reply (e.ref f)
        Code.internal).settle f)) ∧
    ((s.boot.recovery = false ∨ x.1 ∈ recoveryOps) →
      (entryOk x.2.1 e.bytes = false ∨ (x.2.2.1 = true ∧ f ≠ 0) ∨ (x.2.2.2.1 = true ∧ ¬ s.Owns f e)) →
      exec (x.2.2.2.2 f) s = .next (((s.popReq f).reply (e.ref f) Code.badOperand).settle f))

/-- DEVICE_INFO, SESSION_QUERY, BUF_QUERY, JOB_QUERY and FAB_STATUS reply with what they ask for (R253, R287, R291, Tables 15.3, 16.7
and 16.8). -/
def Obligations.QueriesAnswered : Prop :=
  ∀ (f : Fin 64) (s : State) (e : ReqEntry),
    let r := e.ref f
    let b := e.bytes
    let u := s.popReq f
    (s.Takes f 0x01 [] e → exec (.deviceInfo f) s =
      .next ((u.reply r (if s.boot.cfgdef then Code.cfgDefaulted else Code.ok) (u.info f)).settle f)) ∧
    (s.Takes f 0x13 [] e → s.Owns f e →
      let x := s.session (reqSession b)
      exec (.sessionQuery f) s =
        .next ((u.reply r Code.ok (x.body.bytes ++ natLe 2 x.jobs ++ zeros 2 ++ natLe 4 x.stale.toNat)).settle f)) ∧
    (∀ x : Buffer, s.Takes f 0x33 [(0, 4)] e → s.Owns f e → s.bufNamed b = some x →
      (∀ (g : Fin 64) (w : Nat), x.map = some (g, w) → exec (.bufQuery f) s =
        .next ((u.reply r Code.ok (natLe 1 (b2n x.cv) ++ zeros 7 ++ natLe 8 x.len ++ natLe 8 w ++ natLe 8 (w + x.len))).settle f)) ∧
      (x.map = none → exec (.bufQuery f) s =
        .next ((u.reply r Code.ok (natLe 1 (b2n x.cv) ++ zeros 7 ++ natLe 8 x.len ++ natLe 8 (2 ^ 64 - 1) ++
          natLe 8 (2 ^ 64 - 1))).settle f))) ∧
    (∀ (j : Nat) (x : Job), s.Takes f 0x42 [(0, 4)] e → s.Owns f e → s.jobNamed (pay b 0 4) (reqSession b) = some (j, x) →
      exec (.jobQuery f) s = .next ((u.reply r Code.ok
        (natLe 4 (BitVec.ofNat 32 (x.gen.toNat * 4096 + x.state.code * 256 + x.cause.toNat)).toNat)).settle f)) ∧
    (∀ p : Fin 14, s.Takes f 0x61 [(0, 1)] e → f = 0 → pay b 0 1 = p.val → s.portPresent p = true →
      exec (.fabStatus f) s = .next ((u.reply r Code.ok s.fab.ports[p].status).settle f))

/-- FUNC_CONFIG sets a VF's limits; POWER_CAP takes a cap of at least 900 W, or none; FAB_CONFIG gives the module its ID while no
session is in use, or a port its mode and EtherType (R288, R297, R298, R364). -/
def Obligations.ConfigurationCommands : Prop :=
  ∀ (s : State) (e : ReqEntry),
    let r := e.ref 0
    let b := e.bytes
    let u := s.popReq 0
    (∀ g : Fin 64, s.Takes 0 0x02 [(0, 1), (2, 2), (4, 2), (8, 8)] e → pay b 0 1 = g.val → g ≠ 0 →
      exec (.funcConfig 0) s = .next (({ u with crown := { u.crown with
        funcs := u.crown.funcs.set g ⟨BitVec.ofNat 16 (pay b 2 2), pay b 4 2, some (pay b 8 8)⟩ } }.reply r Code.ok).settle 0)) ∧
    (s.Takes 0 0x03 [(0, 4)] e →
      let w := if pay b 0 4 = 0 then 0 else min (max (pay b 0 4) 900) 65535
      exec (.powerCap 0) s = .next (({ u with power := { u.power with cap := BitVec.ofNat 16 w } }.reply r Code.ok
        (natLe 4 w)).settle 0)) ∧
    (s.Takes 0 0x60 [(0, 2), (2, 1), (3, 1), (4, 2)] e → pay b 2 1 = 0xFF → pay b 0 2 < 1024 →
      (∀ x ∈ s.crown.sessions, x.2.body.state = .free) →
      exec (.fabConfig 0) s = .next (((u.setModid (pay b 0 2)).reply r Code.ok).settle 0) ∧
        (u.setModid (pay b 0 2)).fab.assigned = true ∧ (u.setModid (pay b 0 2)).fab.modid.toNat = pay b 0 2) ∧
    (∀ p : Fin 14, s.Takes 0 0x60 [(0, 2), (2, 1), (3, 1), (4, 2)] e → pay b 2 1 = p.val → s.portPresent p = true → pay b 3 1 < 2 →
      let t := u.setPort p (pay b 3 1 == 1) (pay b 4 2)
      exec (.fabConfig 0) s = .next ((t.reply r Code.ok).settle 0) ∧ t.fab.ports[p].eth = (pay b 3 1 == 1) ∧
        t.fab.ports[p].etype.toNat = pay b 4 2)

/-- SESSION_OPEN commits an OPEN body with the entry's fields into a FREE record; SESSION_CLOSE commits CLOSING, and the record is freed
once no job runs; SESSION_MODLIST stores the derived entries of a list that passes, or names the first entry that fails (R51, R252 to
R255). -/
def Obligations.SessionCommands : Prop :=
  ∀ (f : Fin 64) (s : State) (e : ReqEntry),
    let r := e.ref f
    let b := e.bytes
    let u := s.popReq f
    let i := reqSession b
    let x := s.session i
    (∀ k : Nat, s.Takes f 0x10 [(0, 2), (2, 2), (4, 2), (8, 4), (0xC, 32)] e → s.openOk f b = true → s.openRecord f = some k →
      ∃ t : State, exec (.sessionOpen f) s = .next (t.settle f) ∧ (t.session k).body = ⟨(s.session k).body.seq + 1, .opened, f,
        BitVec.ofNat 16 (pay b 0 2), BitVec.ofNat 16 (pay b 2 2), BitVec.ofNat 16 (pay b 4 2), 0, BitVec.ofNat 32 (pay b 8 4), 0, 0,
        slice b 0x1C 32⟩ ∧ (t.session k).cv = !(s.session k).cv ∧ (∀ k', k' ≠ k → t.session k' = s.session k') ∧
        (s.mbx[f].en = true → t.mbx[f].replies = s.mbx[f].replies ++ [⟨r.op, r.tag, Code.ok, false, r.rqidx, natLe 2 k, 0, none⟩])) ∧
    (s.Takes f 0x11 [] e → s.Owns f e → x.body.state = .opened →
      ∃ t : State, exec (.sessionClose f) s = .next ((t.closeCheck i).settle f) ∧ (t.session i).body.state = .closing ∧
        (t.session i).body.seq = x.body.seq + 1 ∧ (t.session i).closers = x.closers ++ [r] ∧ (t.session i).jobs = x.jobs ∧
        (∀ k', k' ≠ i → t.session k' = s.session k') ∧
        (s.mbx[f].en = true → t.mbx[f].replies = s.mbx[f].replies ++ [⟨r.op, r.tag, Code.accepted, false, r.rqidx, [], 0, none⟩])) ∧
    (∀ (d : List Byte) (l : List ModEntry), s.Takes f 0x12 [(0, 1), (8, 8)] e → s.Owns f e → 1 ≤ pay b 0 1 → pay b 0 1 ≤ 128 →
      x.jobs = 0 → d.length = 8 * pay b 0 1 →
      (allSome ((modEntries (pay b 0 1) d).map fun m => deriveFor (s.digitOnly i) m.1 m.2) = some l →
        ∃ t : State, exec (.sessionModlist f (some d)) s = .next (t.settle f) ∧
          (∀ y, s.crown.sessions.get? i = some y → (t.session i).modlist = l ∧ (t.session i).body.mlcount.toNat = pay b 0 1)) ∧
      (∀ k : Nat, (∀ k' < k, ∃ m, (modEntries (pay b 0 1) d)[k']? = some m ∧ (deriveFor (s.digitOnly i) m.1 m.2).isSome = true) →
        (∃ m, (modEntries (pay b 0 1) d)[k]? = some m ∧ deriveFor (s.digitOnly i) m.1 m.2 = none) →
        exec (.sessionModlist f (some d)) s = .next ((u.reply r Code.badOperand (natLe 1 k)).settle f)))

/-- KEYSET_REGISTER is accepted and its block processed: one whose tag is held is refused KEY_TAG_MISMATCH, and one that passes its checks,
whose objects find room and match their lengths and digests, becomes a REGISTERED key set of the session; KEYSET_VERIFY asks Mortar;
KEYSET_ACTIVATE makes one key set ACTIVE and retires another; KEYSET_RETIRE retires one, and the session names none (R36 to R38, R289,
R290). -/
def Obligations.KeySetCommands : Prop :=
  ∀ (f : Fin 64) (s : State) (e : ReqEntry),
    let r := e.ref f
    let b := e.bytes
    let u := s.popReq f
    let i := reqSession b
    let body := (s.session i).body
    (∀ (d : List Byte) (objs : List HostRead), s.Takes f 0x20 [(0, 8), (8, 4)] e → s.Owns f e → d.length = pay b 8 4 →
      exec (.keysetRegister f (some d) objs) s = .next (((u.reply r Code.accepted).register r i d objs).settle f) ∧
      (blockOk d = true → tagOf (d.take 128) ≠ 0 → (blockEntries d).all (entryLegal (d.take 128)) = true →
        entriesDistinct (blockEntries d) = true → (blockEntries d).all s.entryPlaced = true →
        (s.crown.keysets.get? (tagOf (d.take 128))).isSome = true →
        exec (.keysetRegister f (some d) objs) s =
          .next (((u.reply r Code.accepted).complete r Code.keyTagMismatch).settle f)) ∧
      (∀ (s1 : State) (ps : List Placed) (os : List (List Byte)), (u.reply r Code.accepted).blockErr d = none →
        ((u.reply r Code.accepted).placeMap.bind fun s => s.placeObjs (blockEntries d) []) = some (s1, ps) →
        objs = os.map some → os.length = (blockEntries d).length → objsMatch (blockEntries d) os = true →
        sha256 (manifestBytes (blockEntries d)) = slice d 0x40 32 →
        ∃ t : State, exec (.keysetRegister f (some d) objs) s = .next (t.settle f) ∧
          t.crown.keysets.get? (tagOf (d.take 128)) = some (keySetOf i (d.take 128) ps) ∧
          (keySetOf i (d.take 128) ps).state = .registered ∧ (keySetOf i (d.take 128) ps).ses = i)) ∧
    (∀ (d : List Byte) (k : KeySet) (sl : Byte × List (List Byte × Nat) × Nat × Nat),
      s.Takes f 0x21 [(0, 4), (8, 8), (0x10, 2)] e → s.Owns f e → s.keySetNamed b = some k → d.length = pay b 0x10 2 →
      sha256 (bundleKey d) = slice k.record 0x10 32 → bundleSlots d k.record = some sl →
      exec (.keysetVerify f (some d)) s = .next (((u.reply r Code.accepted).askVerify (some (r, BitVec.ofNat 32 (pay b 0 4))) 0 sl
        128).1.settle f)) ∧
    (∀ k : KeySet, s.Takes f 0x22 [(0, 4)] e → s.Owns f e → s.keySetNamed b = some k → canActivate k body.policy = true →
      ∃ t : State, exec (.keysetActivate f) s = .next (t.settle f) ∧
        (∀ y, s.crown.sessions.get? i = some y → (t.session i).body.ktag = BitVec.ofNat 32 (pay b 0 4)) ∧
        ((t.crown.keysets.get? (pay b 0 4)).map (·.state)) = some .active ∧
        (∀ old k', body.ktag.toNat = old → old ≠ pay b 0 4 → old ≠ 0 → t.crown.keysets.get? old = some k' → k'.state = .retired)) ∧
    (∀ k : KeySet, s.Takes f 0x23 [(0, 4)] e → s.Owns f e → s.keySetNamed b = some k →
      ∃ t : State, exec (.keysetRetire f) s = .next (t.settle f) ∧
        (∀ k', t.crown.keysets.get? (pay b 0 4) = some k' → k'.state = .retired) ∧
        (∀ y, s.crown.sessions.get? i = some y → (t.session i).body.ktag.toNat ≠ pay b 0 4 ∨ pay b 0 4 = 0) ∧
        t.crown.jobs = s.crown.jobs ∧ t.stations.map Station.queues = s.stations.map Station.queues)

/-- The commands on buffers and exports, on a buffer of the session (R259 to R262, R291, R310): BUF_ALLOC makes a zeroed pair of
versions, BUF_FREE removes one, BUF_COMMIT flips CV and touches no byte, BUF_MAP and BUF_UNMAP set the mapping, BUF_DMA moves checked
bytes, FAB_EXPORT and FAB_UNEXPORT make and end an export. -/
def Obligations.BufferCommands : Prop :=
  ∀ (f : Fin 64) (s : State) (e : ReqEntry), s.Owns f e →
    let r := e.ref f
    let b := e.bytes
    let u := s.popReq f
    let id := pay b 0 4
    (∀ (rg : Region) (v0 v1 : Nat), s.Takes f 0x30 [(0, 1), (8, 8)] e → s.mem.regions.toList[pay b 0 1]? = some rg → rg.valid = true →
      pay b 8 8 % 4096 = 0 → pay b 8 8 ≠ 0 → s.pastQuota (s.session (reqSession b)).body.func (pay b 8 8) = false →
      s.areaIn rg [] 4096 (pay b 8 8) = some v0 → s.tick.areaIn rg [(v0, pay b 8 8)] 4096 (pay b 8 8) = some v1 →
      ∃ (t : State) (n : Nat), exec (.bufAlloc f) s = .next (t.settle f) ∧ s.crown.buffers.get? n = none ∧
        (t.crown.buffers.get? n).map (fun x => (x.ses, x.len, x.v0, x.v1, x.cv)) =
          some (reqSession b, pay b 8 8, v0, v1, false) ∧
        (∀ k < pay b 8 8, t.mem.data.read (v0 + k) = 0 ∧ t.mem.data.read (v1 + k) = 0) ∧
        (∀ a, (a < v0 ∨ v0 + pay b 8 8 ≤ a) → (a < v1 ∨ v1 + pay b 8 8 ≤ a) → t.mem.data.read a = s.mem.data.read a)) ∧
    (∀ x : Buffer, s.Takes f 0x31 [(0, 4)] e → s.bufNamed b = some x → s.bufInJob id = false → s.exported id = false →
      exec (.bufFree f) s = .next (({ u with crown := { u.crown with buffers := u.crown.buffers.del id } }.reply r Code.ok).settle f)) ∧
    (∀ x : Buffer, s.Takes f 0x32 [(0, 4)] e → s.bufNamed b = some x → s.bufBusy id = false →
      exec (.bufCommit f) s = .next (((u.updBuf id fun y => { y with cv := !y.cv }).reply r Code.ok (natLe 1 (b2n !x.cv))).settle f)) ∧
    (∀ x : Buffer, s.Takes f 0x34 [(0, 4), (8, 8)] e → s.bufNamed b = some x → s.mapOk f id (pay b 8 8) x.len = true →
      exec (.bufMap f) s = .next (((u.updBuf id fun y => { y with map := some (f, pay b 8 8) }).reply r Code.ok).settle f)) ∧
    (∀ x : Buffer, s.Takes f 0x35 [(0, 4)] e → s.bufNamed b = some x →
      exec (.bufUnmap f) s = .next (((u.updBuf id fun y => { y with map := none }).reply r Code.ok).settle f)) ∧
    (∀ x : Buffer, s.Takes f 0x36 [(0, 4), (4, 1), (5, 1), (8, 8), (0x10, 8), (0x18, 8)] e → s.bufNamed b = some x →
      dmaOk x b = true → 0 < pay b 0x10 8 → s.mem.data.wf = true →
      (∀ d : List Byte, pay b 4 1 = 0 → s.bufBusy id = false → d.length = pay b 0x10 8 →
        ∃ t : State, exec (.bufDma f (some d, .clean)) s = .next (t.settle f) ∧ (∀ k < d.length,
          t.mem.data.read (x.version (pay b 5 1) + pay b 8 8 + k) = d.getD k 0) ∧
          (∀ a, (a < x.version (pay b 5 1) + pay b 8 8 ∨ x.version (pay b 5 1) + pay b 8 8 + d.length ≤ a) →
            t.mem.data.read a = s.mem.data.read a)) ∧
      (∀ d : HostRead, pay b 4 1 = 1 → s.poisonIn (x.version (pay b 5 1) + pay b 8 8) (pay b 0x10 8) = [] →
        ∃ t : State, exec (.bufDma f (d, .clean)) s = .next (t.settle f) ∧ t.mem = s.mem ∧ t.hostOut = s.hostOut ++
          [.write f (pay b 0x18 8) (s.memBytes (x.version (pay b 5 1) + pay b 8 8) (pay b 0x10 8))])) ∧
    (∀ x : Buffer, s.Takes f 0x62 [(0, 4), (4, 2)] e → s.bufNamed b = some x → pay b 4 2 < 1024 → s.crown.exports.length < 65536 →
      ∃ (t : State) (n : Nat), exec (.fabExport f) s = .next (t.settle f) ∧ n < 65536 ∧
        t.crown.exports.get? n = some ⟨id, BitVec.ofNat 10 (pay b 4 2)⟩ ∧
        (∀ k, k ≠ n → t.crown.exports.get? k = s.crown.exports.get? k) ∧ t.crown.buffers = s.crown.buffers) ∧
    (∀ (x : Expo) (y : Buffer), s.Takes f 0x63 [(0, 2)] e → s.crown.exports.get? (pay b 0 2) = some x →
      s.crown.buffers.get? x.buf = some y → y.ses = reqSession b →
      exec (.fabUnexport f) s =
        .next (({ u with crown := { u.crown with exports := u.crown.exports.del (pay b 0 2) } }.reply r Code.ok).settle f))

/-- JOB_SUBMIT makes an ADMITTING job with a new generation and replies its ID; JOB_ABORT moves a running job to ABORTING and leaves one
past its commit point; RESET_COLD leaves the module in the ROM; RESET_WARM ends warm; STATION_RESET clears one station (R263, R269, R292,
R367 to R369). -/
def Obligations.JobAndResetCommands : Prop :=
  ∀ (f : Fin 64) (s : State) (e : ReqEntry),
    let r := e.ref f
    let b := e.bytes
    let u := s.popReq f
    (∀ j : Nat, s.Takes f 0x40 [(0, 8), (8, 4), (0xC, 4), (0x10, 8), (0x18, 2), (0x1A, 1), (0x20, 8), (0x28, 2)] e → s.Owns f e →
      submitOk (bitAt (s.session (reqSession b)).body.policy.toNat 1) b = true → s.noJobs = false → s.freeEntry = some j →
      ∃ (t : State) (x : Job), exec (.jobSubmit f) s = .next (t.settle f) ∧ t.crown.jobs.get? j = some x ∧ x.state = .admitting ∧
        x.gen = nextGen (s.jobAt j).gen ∧ x.gen ≠ 0 ∧ x.ses = reqSession b ∧ x.vec = pay b 0x1A 1 ∧
        x.limit.toNat = (if pay b 0xC 4 = 0 then (s.session (reqSession b)).body.deflimit.toNat else pay b 0xC 4) ∧
        (∀ k, k ≠ j → t.crown.jobs.get? k = s.crown.jobs.get? k) ∧ t.stations = s.stations ∧
        (s.mbx[f].en = true → t.mbx[f].replies = s.mbx[f].replies ++
          [⟨r.op, r.tag, Code.accepted, false, r.rqidx, natLe 4 (jobId j x.gen).toNat, 0, none⟩])) ∧
    (∀ (j : Nat) (x : Job), s.Takes f 0x41 [(0, 4)] e → s.Owns f e → s.jobNamed (pay b 0 4) (reqSession b) = some (j, x) →
      (x.state = .running ∨ x.state = .admitting →
        exec (.jobAbort f) s = .next (((u.abortJob j Code.aborted).reply r Code.accepted).settle f)) ∧
      (x.state = .committed ∨ x.state = .completed →
        exec (.jobAbort f) s = .next ((u.reply r Code.alreadyComplete).settle f)) ∧
      (x.state = .free → exec (.jobAbort f) s = .next ((u.reply r x.cause).settle f))) ∧
    (s.Takes f 0x05 [] e → f = 0 → exec (.resetCold f) s = .next s.coldToRom) ∧
    (s.Takes f 0x04 [] e → f = 0 → exec (.resetWarm f) s = .next (((u.warmCore.reply r Code.ok).warmEnd).settle f)) ∧
    (∀ st : Fin 16, s.Takes f 0x06 [(0, 1)] e → f = 0 → pay b 0 1 = st.val →
      ∃ t : State, exec (.stationReset f) s = .next (t.settle f) ∧ t.stations[st].held = false ∧ t.stations[st].job = none ∧
        t.stations[st].pantry.mem = [] ∧ (∀ w : Fin 4, t.stations[st].pantry.wins[w].valid = false) ∧
        t.stations[st].queues = Vector.replicate 22 [] ∧ t.stations[st].epoch = s.stations[st].epoch ∧
        t.stations[st].chk = s.stations[st].chk ∧ t.mem.data = s.mem.data ∧
        (s.stations[st].held = false → (∀ st', st' ≠ st → t.stations[st'] = s.stations[st']) ∧ t.crown.jobs = s.crown.jobs) ∧
        (∀ j x, s.stations[st].held = true → s.stations[st].job = some j → s.crown.jobs.get? j = some x → x.state = .running →
          (t.crown.jobs.get? j).map (fun y => (y.state, y.cause)) = some (.aborting, Code.resetAborted)))

/-- MEM_MARGIN of a point enters margin mode and sets the offsets; MON_SNAPSHOT numbers itself and waits for its freeze edge; FW_STAGE of
an image that passes begins its write; FW_ACTIVATE of a staged image starts the drain; ATTEST writes its report (R214, R293, R352, R353,
R357, R380). -/
def Obligations.ServiceCommands : Prop :=
  ∀ (f : Fin 64) (s : State) (e : ReqEntry),
    let r := e.ref f
    let b := e.bytes
    let u := s.popReq f
    (∀ site : Fin 8, s.Takes f 0x07 [(0, 1), (1, 1), (2, 1), (4, 1), (5, 1), (6, 1), (7, 1)] e → f = 0 → pay b 0 1 = site.val →
      pay b 1 1 < 16 → pay b 2 1 = 0 → bitAt s.grade.sites.toNat site.val = true →
      stepOk (pay b 4 1) 32 = true → stepOk (pay b 5 1) 32 = true → stepOk (pay b 6 1) 10 = true → stepOk (pay b 7 1) 10 = true →
      s.mem.ready = true → s.noSession = true → s.crown.everAdmitted = false → s.crown.marginReq = none →
      ∃ t : State, exec (.memMargin f) s = .next (t.settle f) ∧ t.mem.margin = true ∧
        t.mem.stackRegs[site] = { s.mem.stackRegs[site] with
          chan := BitVec.ofNat 4 (pay b 1 1)
          rdly := BitVec.ofNat 7 (pay b 4 1)
          wdly := BitVec.ofNat 7 (pay b 5 1)
          vref := BitVec.ofNat 5 (pay b 6 1)
          vddq := BitVec.ofNat 5 (pay b 7 1)
          running := true } ∧
        (∀ o : Fin 8, o ≠ site → t.mem.stackRegs[o] = s.mem.stackRegs[o]) ∧ t.crown.marginReq.isSome = true ∧
        t.mem.data = s.mem.data) ∧
    (s.Takes f 0x08 [(0, 8), (8, 8)] e → f = 0 →
      let x : SnapReq := ⟨r, BitVec.ofNat 64 (pay b 0 8), pay b 8 8, s.mon.snapNo + 1⟩
      exec (.monSnapshot f) s = .next (({ u with
        mon := { u.mon with snapNo := u.mon.snapNo + 1 }
        crown := { u.crown with snaps := u.crown.snaps ++ [x] } }.reply r Code.accepted).settle f)) ∧
    (∀ img : List Byte, s.Takes f 0x50 [(0, 8), (8, 4)] e → f = 0 → s.stageBusy = false → img.length = pay b 8 4 →
      s.stageError img = none →
      ∃ t : State, exec (.fwStage f (some img)) s = .next (t.settle f) ∧ t.boot.staged = false ∧
        t.crown.stage = some ⟨some r, imgType img == 2, img.take (imgLen img)⟩ ∧
        (s.boot.recovery = false → t.flash.bank s.boot.bank = s.flash.bank s.boot.bank) ∧
        t.flash.boot0 = s.flash.boot0 ∧ t.flash.boot1 = s.flash.boot1 ∧ t.flash.cfg0 = s.flash.cfg0 ∧ t.flash.cfg1 = s.flash.cfg1) ∧
    (s.Takes f 0x51 [(0, 4)] e → f = 0 → s.boot.staged = true → s.crown.activation = none →
      exec (.fwActivate f) s = .next (({ u with crown := { u.crown with
        activation := some ⟨some r, true, BitVec.ofNat 32 s.fwVersion⟩ } }).settle f)) ∧
    (s.Takes f 0x52 [(0, 32), (0x20, 8), (0x28, 4)] e → 25456 ≤ pay b 0x28 4 →
      exec (.attest f) s = .next (((((u.reply r Code.accepted).toHost (.write f (pay b 0x20 8)
        (s.signedReport (slice b 0x10 32)))).complete r Code.ok (natLe 4 25456))).settle f))

/-! ## Jobs (15) -/

/-- JOB_ADMISSION of a job that its checks allow grants it; one whose session is closed or full completes BUSY. COMMIT_POINT flips CV of
each OUT buffer and of no other, counts, and releases the stations. JOB_TIME_LIMIT ends a running job ABORTED with TIMEOUT.
JOB_ABORT_CLEANUP releases what the job held (R172, R265 to R268). -/
def Obligations.JobsRunAndEnd : Prop :=
  ∀ (j : Nat) (s : State) (x : Job), s.Specified → s.crown.jobs.get? j = some x →
    (∀ (img btab ticket : HostRead), s.ready = true → x.state = .admitting → x.mtag = none →
      ((s.session x.ses).body.state ≠ .opened ∨ (s.session x.ses).body.maxjobs.toNat ≤ (s.session x.ses).jobs →
        ∃ (t : State) (y : Job), exec (.jobAdmission j img btab ticket) s = .next t ∧ t.crown.jobs.get? j = some y ∧ y.state = .free ∧
          y.cause = Code.busy ∧ t.stations = s.stations ∧ t.crown.buffers = s.crown.buffers ∧
          (s.mbx[x.ref.f].en = true → t.mbx[x.ref.f].replies = s.mbx[x.ref.f].replies ++
            [⟨x.ref.op, x.ref.tag, Code.busy, true, x.ref.rqidx, jobPayload (jobId j x.gen) 0 false 0 0, x.vec, none⟩])) ∧
      (∀ (ib bb : List Byte) (ks : KeySet) (stns : List (Fin 16)), let ses := s.session x.ses
        let granted := s.grantable ses.body
        let m := Img.of ib
        let free := granted.filter fun st => !s.stations[st].held
        ses.body.state = .opened → ses.jobs < ses.body.maxjobs.toNat → x.ticket = none → bitAt ses.body.policy.toNat 1 = false →
        s.crown.keysets.get? ses.body.ktag.toNat = some ks → ks.state = .active → img = some ib → ib.length = x.imgLen →
        btab = some bb → bb.length = 8 * x.nbuf → m.check (field s.boot.header 0x11 1) ks.digitPs ks.packedPs = none →
        (∃ v, s.resourceErr m granted = .inr v) → s.btOk x.ses (btEntries x.nbuf bb) = true →
        s.placeNow m free = some stns → m.ngrp ≤ s.freeGroups.length → s.windowsFree m stns = true →
        (∀ en ∈ btEntries x.nbuf bb, en.out = true → s.bufBusy en.buf = false) →
        exec (.jobAdmission j img btab ticket) s =
          .next (s.grantJob j m ks ses.body.ktag (btEntries x.nbuf bb) stns))) ∧
    (x.state = .running → s.partsDone j = true → s.crown.journal.length < 64 →
      ∃ t : State, exec (.commitPoint j) s = .next t ∧ t.crown.commits = wrapAdd s.crown.commits 1 ∧
        (∀ st, s.holds j st = true → t.stations[st].held = false ∧ t.stations[st].job = none ∧
          bitAt t.stations[st].pantry.zwin.toNat s.stations[st].win.val = true) ∧
        (s.mbx[x.ref.f].en = true →
          (∀ id b, s.crown.buffers.get? id = some b → ∃ c, t.crown.buffers.get? id = some c ∧ c.v0 = b.v0 ∧ c.v1 = b.v1 ∧
            c.cv = (if x.handles.any (fun h => h.out && h.buf == id) then !b.cv else b.cv)) ∧
          (t.crown.jobs.get? j).map (·.state) = some .committed ∧ t.mbx[x.ref.f].replies = s.mbx[x.ref.f].replies ++
            [⟨x.ref.op, x.ref.tag, Code.ok, true, x.ref.rqidx, jobPayload (jobId j x.gen) x.cause x.timeout 0 0, x.vec, some j⟩] ∧
          t.mem = s.mem ∧ (∀ st, s.holds j st = false → t.stations[st] = s.stations[st]))) ∧
    (x.state = .running → x.limit ≠ 0 →
      ∃ (t : State) (y : Job), exec (.jobTimeLimit j) s = .next t ∧ t.crown.jobs.get? j = some y ∧ y.state = .aborting ∧ y.cause = Code.aborted ∧
        y.timeout = true ∧ (∀ st, s.holds j st = true → t.stations[st].run = false ∧ t.stations[st].queues = Vector.replicate 22 [] ∧
          t.stations[st].pantry = s.stations[st].pantry) ∧ t.crown.buffers = s.crown.buffers) ∧
    (x.state = .aborting → x.cleaned = false →
      ∃ t : State, exec (.jobAbortCleanup j) s = .next t ∧ (∀ st, s.holds j st = true → t.stations[st].held = false) ∧
        (s.mbx[x.ref.f].en = true → t.mem = s.mem ∧ (∀ st, s.holds j st = false → t.stations[st] = s.stations[st]) ∧
          (∀ id b, s.crown.buffers.get? id = some b → ∃ c, t.crown.buffers.get? id = some c ∧ c.cv = b.cv ∧ c.v0 = b.v0 ∧
            c.v1 = b.v1)))

/-! ## Mailbox pages (16) -/

/-- MBX_CTRL_WRITE starts a page's rings empty, or stops fetching and discards what waits; DOORBELL starts a fetch while EN is 1;
MBX_CQ_HEAD_WRITE moves the head; COMPLETION_ENTRY_WRITE writes the oldest answer where the tail points, phase and ALIVE counting on;
VECTOR_0_TIMER signals; BAR0_BAD_ACCESS is answered and noted (R277 to R283, R294, R295). -/
def Obligations.MailboxPages : Prop :=
  ∀ (f : Fin 64) (s : State), s.Specified → s.linkUp = true →
    let m := s.mbx[f]
    (∀ val : Word, ∃ t : State, exec (.mbxCtrlWrite f val) s = .next t ∧ t.mbx[f].coalt.toNat = fld val.toNat 16 16 ∧
      t.mbx[f].coaln.toNat = fld val.toNat 8 8 ∧ t.mbx[f].en = bitAt val.toNat 0 ∧ (∀ f', f' ≠ f → t.mbx[f'].en = s.mbx[f'].en) ∧
      (m.en = false → bitAt val.toNat 0 = true →
        let n := t.mbx[f]
        n.rqHead = 0 ∧ n.rqTail = 0 ∧ n.cqHead = 0 ∧ n.cqTail = 0 ∧ n.rxnext = 0 ∧ n.txnext = 0 ∧ n.phase = true ∧ n.fetching = false) ∧
      (m.en = true → bitAt val.toNat 0 = false → t.mbx[f].fetching = false ∧ t.mbx[f].replies = [] ∧
        t.mbx[f].taken = m.taken)) ∧
    (∀ val : Word, (m.en = true → exec (.doorbell f val) s = .next (s.updMbx f fun m =>
        { m with rqTail := val.setWidth 8, bells := m.bells + 1, fetching := true })) ∧
      (m.en = false → exec (.doorbell f val) s = .next (s.updMbx f fun m => { m with rqTail := val.setWidth 8 }))) ∧
    (∀ val : Word, exec (.mbxCqHeadWrite f val) s = .next (s.updMbx f fun m => { m with cqHead := val.setWidth 8 })) ∧
    (∀ (r : Reply) (rest : List Reply), m.en = true → m.replies = r :: rest → m.cqTail + 1 ≠ m.cqHead →
      ∃ (t : State) (more : List HostTlp), exec (.completionEntryWrite f) s = .next t ∧
        t.hostOut = s.hostOut ++ .write f (m.cqBase + 256 * m.cqTail.toNat) (r.entry m.phase m.txnext) :: more ∧
        t.mbx[f].cqTail = m.cqTail + 1 ∧ t.mbx[f].txnext = m.txnext + 1 ∧
        (t.mbx[f].phase = !m.phase ↔ m.cqTail = 0xFF) ∧
        (r.job = none → t.mbx[f].replies = rest ∧ t.crown = s.crown) ∧
        (∀ j x, r.job = some j → s.crown.jobs.get? j = some x → x.state = .committed →
          (t.crown.jobs.get? j).map (·.state) = some .completed)) ∧
    (0 < m.unsignalled → m.coalt ≠ 0 → ∃ t : State, exec (.vector0Timer f) s = .next t ∧ t.mbx[f].unsignalled = 0 ∧
      (m.masked 0 = false → t.hostOut = s.hostOut ++ [.msix f 0] ∧ t.mbx[f].pba = m.pba) ∧
      (m.masked 0 = true → t.hostOut = s.hostOut ∧ t.mbx[f].pba = m.pba ||| 1)) ∧
    (∀ off : Nat, s.mon.queue.length < 256 →
      let ev := plainEvt clsNote Code.badOperand 4 (BitVec.ofNat 8 f.val) 0xFF []
      exec (.bar0BadAccess f off true) s = .next { s with
        hostOut := s.hostOut ++ [.cplUR f]
        mon := { s.mon with queue := s.mon.queue ++ [ev] } } ∧
      exec (.bar0BadAccess f off false) s = .next { s with mon := { s.mon with queue := s.mon.queue ++ [ev] } })

/-- REQUEST_ENTRY_FETCH examines the next entry (R282, R283, R321, Table 16.5): one that passes goes to Crown with the alive and CRC bytes
as zeros, and RXNEXT counts on; a repeat is
skipped and counted; a gap, a bad CRC or a failed read stops the fetch, is counted, shows in the receipt and raises vector 1; an unknown
opcode is refused BAD_OPERAND (R286). With no new entry a
receipt covers the doorbells. -/
def Obligations.EntriesExamined : Prop :=
  ∀ (f : Fin 64) (s : State) (b : List Byte), s.Specified → s.ready = true → b.length = 256 →
    let m := s.mbx[f]
    m.en = true → m.fetching = true →
    (∀ entry : HostRead, m.rqHead ≠ m.rqTail → entry.all (fun x => x.length != 256) = true →
      (∀ e ∈ m.taken, knownOps.contains (reqOp e.bytes) = true) →
      ∃ t : State, exec (.requestEntryFetch f entry) s = .next t ∧ t.mbx[f].fetching = false ∧ t.mbx[f].rqHead = m.rqHead ∧
        t.mbx[f].crcCnt = satAdd m.crcCnt 1 ∧ t.mbx[f].check = 3) ∧
    (m.rqHead ≠ m.rqTail → m.taken = [] → s.blocked f = false → s.boot.recovery = false →
      field b 0xFC 4 = crc32c (b.take 0xFC) → field b 0xFA 2 = m.rxnext.toNat → knownOps.contains (reqOp b) = false →
      let e : ReqEntry := ⟨m.rqHead, b.take 0xFA ++ zeros 6⟩
      ∃ t : State, exec (.requestEntryFetch f (some b)) s = .next t ∧ t.mbx[f].rqHead = m.rqHead + 1 ∧ t.mbx[f].taken = [] ∧
        t.mbx[f].replies = m.replies ++ [⟨(e.ref f).op, (e.ref f).tag, Code.badOperand, false, m.rqHead, [], 0, none⟩]) ∧
    (m.rqHead = m.rqTail → ∃ t : State, exec (.requestEntryFetch f (some b)) s = .next t ∧ t.mbx[f].fetching = false ∧
      t.mbx[f].rseq = wrapAdd m.rseq m.bells ∧ t.mbx[f].bells = 0 ∧ t.mbx[f].taken = m.taken) ∧
    (m.rqHead ≠ m.rqTail → (∀ e ∈ m.taken, knownOps.contains (reqOp e.bytes) = true) →
      (field b 0xFC 4 = crc32c (b.take 0xFC) → field b 0xFA 2 = m.rxnext.toNat → knownOps.contains (reqOp b) = true →
        ∃ t : State, exec (.requestEntryFetch f (some b)) s = .next t ∧ t.crown = s.crown ∧ t.mbx[f].rqHead = m.rqHead + 1 ∧
          t.mbx[f].rxnext = m.rxnext + 1 ∧ t.mbx[f].taken = m.taken ++ [⟨m.rqHead, b.take 0xFA ++ zeros 6⟩] ∧
          (t.mbx[f].fetching = true ↔ m.rqHead + 1 ≠ m.rqTail)) ∧
      (field b 0xFC 4 = crc32c (b.take 0xFC) → aliveClass 16 m.rxnext.toNat (field b 0xFA 2) = .rep →
        ∃ t : State, exec (.requestEntryFetch f (some b)) s = .next t ∧ t.crown = s.crown ∧ t.mbx[f].rqHead = m.rqHead + 1 ∧
          t.mbx[f].rxnext = m.rxnext ∧ t.mbx[f].taken = m.taken ∧ t.mbx[f].repCnt = satAdd m.repCnt 1) ∧
      (field b 0xFC 4 = crc32c (b.take 0xFC) → aliveClass 16 m.rxnext.toNat (field b 0xFA 2) = .gap →
        ∃ t : State, exec (.requestEntryFetch f (some b)) s = .next t ∧ t.crown = s.crown ∧ t.mbx[f].rqHead = m.rqHead ∧
          t.mbx[f].rxnext = m.rxnext ∧ t.mbx[f].taken = m.taken ∧ t.mbx[f].fetching = false ∧
          t.mbx[f].gapCnt = satAdd m.gapCnt 1 ∧ t.mbx[f].check = 2 ∧ (m.masked 1 = false → t.hostOut = s.hostOut ++ [.msix f 1])) ∧
      (field b 0xFC 4 ≠ crc32c (b.take 0xFC) →
        ∃ t : State, exec (.requestEntryFetch f (some b)) s = .next t ∧ t.crown = s.crown ∧ t.mbx[f].rqHead = m.rqHead ∧
          t.mbx[f].rxnext = m.rxnext ∧ t.mbx[f].taken = m.taken ∧ t.mbx[f].fetching = false ∧
          t.mbx[f].crcCnt = satAdd m.crcCnt 1 ∧ t.mbx[f].check = 3 ∧ (m.masked 1 = false → t.hostOut = s.hostOut ++ [.msix f 1])))

/-! ## Boot, flash and firmware (20) -/

/-- COLD_BOOT starts the ACTIVE bank's firmware, or the other's with FALLBACK, or recovery; WATCHDOG_EXPIRY tries the other bank once;
MORTAR_PROGRAM_LOAD loads what the boot asked for, and READY follows when memory is ready; IMAGE_CONFIRM ends TRIAL and blows the
fuses up to the image's SVN (R327, R345 to R348, R353). -/
def Obligations.BootStarts : Prop :=
  ∀ s : State, s.Specified →
    (s.boot.state = .rom → s.power.pwrgd = true → s.power.refclk = true → s.power.tripped = false →
      (s.bankOk s.flash.bcr.active = true → ∃ t : State, exec .coldBoot s = .next t ∧ t.boot.locked = true ∧
        t.mem.zeroing = true ∧ t.mem.ready = s.mem.ready ∧ t.fuses = s.fuses ∧ t.boot.state = .starting ∧
        t.boot.bank = s.flash.bcr.active ∧ t.boot.fallback = false ∧ t.boot.trial = s.flash.bcr.trial ∧ t.boot.recovery = false ∧
        t.flash = s.flash ∧ t.mortar.load.isSome = true) ∧
      (s.bankOk s.flash.bcr.active = false → s.bankOk (!s.flash.bcr.active) = true → ∃ t : State, exec .coldBoot s = .next t ∧
        t.boot.locked = true ∧ t.mem.zeroing = true ∧ t.fuses = s.fuses ∧ t.boot.state = .starting ∧
        t.boot.bank = !s.flash.bcr.active ∧ t.boot.fallback = true ∧ t.boot.trial = false) ∧
      (s.bankOk s.flash.bcr.active = false → s.bankOk (!s.flash.bcr.active) = false → ∃ t : State, exec .coldBoot s = .next t ∧
        t.boot.locked = true ∧ t.mem.zeroing = true ∧ t.fuses = s.fuses ∧ t.boot.state = .ready ∧ t.boot.recovery = true)) ∧
    (s.boot.state = .starting →
      (s.boot.triedOther = false → s.bankOk (!s.boot.bank) = true → ∃ t : State, exec .watchdogExpiry s = .next t ∧
        t.boot.state = .starting ∧ t.boot.bank = !s.boot.bank ∧ t.boot.fallback = true ∧ t.boot.triedOther = true) ∧
      (s.boot.triedOther = true ∨ s.bankOk (!s.boot.bank) = false → ∃ t : State, exec .watchdogExpiry s = .next t ∧
        t.boot.state = .ready ∧ t.boot.recovery = true)) ∧
    (s.boot.state = .activating → ∃ t : State, exec .watchdogExpiry s = .next t ∧ t.boot.state = .ready ∧
      t.boot.bank = s.flash.bcr.prev ∧ t.boot.fallback = true ∧ t.boot.trial = false ∧ t.crown.activation = none) ∧
    (∀ p : BitVec 9 × List Byte, s.mortar.load = some p → s.mortar.queue = [] → s.mortar.running = none → s.mortar.saved = [] →
      exec .mortarProgramLoad s = .next { s with
        mortar := { s.mortar with prog := p.1, progs := p.2, load := none }
        boot := if s.boot.state = .starting ∧ s.mem.ready = true then { s.boot with state := .ready } else s.boot }) ∧
    (s.boot.state = .ready → s.boot.trial = true → s.boot.recovery = false →
      ∃ t : State, exec .imageConfirm s = .next t ∧ t = { s with
          boot := { s.boot with trial := false }
          flash := s.flash.putBcr ⟨s.boot.bank, false, s.flash.bcr.prev⟩
          fuses := t.fuses } ∧
        (∀ i < 64, s.fuses.svnf ≤ i → i < field s.boot.header 5 1 →
          bitAt t.fuses.svnA.toNat i = true ∧ bitAt t.fuses.svnB.toNat i = true) ∧
        (∀ i, bitAt s.fuses.svnA.toNat i = true → bitAt t.fuses.svnA.toNat i = true)) ∧
    (s.boot.state = .activating → s.mortar.load = none →
      ∃ t : State, exec .imageConfirm s = .next t ∧ t.boot.state = .ready ∧ t.boot.trial = false ∧
        t.boot.activations = wrapAdd s.boot.activations 1 ∧ t.crown.activation = none)

/-- FLASH_WRITE_DONE stages the image, or replaces STATIC, or reports REASON 8; PLDM_FIRMWARE_UPDATE stages or activates;
FIRMWARE_ACTIVATION tries the staged bank, all jobs having ended, and returns to the old one where its image fails
(while the SEQ of its records can still rise); DRAIN_TIMEOUT ends the drain BUSY; CONFIG_BLOCK_WRITE writes the
block's other copy (R293, R342, R351 to R354). -/
def Obligations.FirmwareStagedAndActivated : Prop :=
  ∀ s : State, s.Specified →
    (∀ x : StageRun, s.ready = true → s.crown.stage = some x →
      (x.config = false → ∃ t : State, exec (.flashWriteDone true) s = .next t ∧ t.crown.stage = none ∧ t.boot.pct = 100 ∧
        t.boot.staged = true ∧ t.flash.bank s.stageBank = x.image ∧
        t.flash.bank (!s.stageBank) = s.flash.bank (!s.stageBank)) ∧
      (x.config = true → ∃ t : State, exec (.flashWriteDone true) s = .next t ∧ t.crown.stage = none ∧ t.boot.pct = 100 ∧
        t.boot.staged = s.boot.staged ∧ t.boot.cfgDirty = false ∧ t.flash.bankA = s.flash.bankA ∧ t.flash.bankB = s.flash.bankB) ∧
      (∃ t : State, exec (.flashWriteDone false) s = .next t ∧ t.crown.stage = none ∧ t.boot = { s.boot with reason := 8 } ∧
        t.flash = s.flash)) ∧
    (s.ready = true → s.crown.stage = none → s.crown.activation = none →
      (∀ img : List Byte, s.stageError img = none → ∃ t : State, exec (.pldmFirmwareUpdate (some img)) s = .next t ∧
        t.boot.staged = false ∧ t.crown.stage = some ⟨none, imgType img == 2, img.take (imgLen img)⟩) ∧
      (∀ (img : List Byte) (c : Nat), s.stageError img = some c → ∃ t : State, exec (.pldmFirmwareUpdate (some img)) s = .next t ∧
        t.boot.staged = false ∧ t.boot.reason = BitVec.ofNat 4 c ∧ t.crown = s.crown ∧ t.flash = s.flash) ∧
      (s.boot.staged = true → s.boot.recovery = false → exec (.pldmFirmwareUpdate none) s = .next { s with crown := { s.crown with
        activation := some ⟨none, true, BitVec.ofNat 32 s.fwVersion⟩ } })) ∧
    (s.ready = true → s.draining = true → (∀ x ∈ s.crown.jobs, x.2.state.ended = true) → s.bankOk (!s.boot.bank) = true →
      ∃ t : State, exec .firmwareActivation s = .next t ∧ t.boot.staged = false ∧ t.boot.state = .activating ∧
        t.boot.bank = !s.boot.bank ∧ t.boot.trial = true ∧ t.crown.cache = [] ∧
        t.flash = s.flash.putBcr ⟨!s.boot.bank, true, s.boot.bank⟩ ∧ (∀ st : Fin 16, t.stations[st].held = false)) ∧
    (s.ready = true → s.draining = true → (∀ x ∈ s.crown.jobs, x.2.state.ended = true) → s.bankOk (!s.boot.bank) = false →
      field s.flash.boot0 4 4 < 2 ^ 32 - 1 → field s.flash.boot1 4 4 < 2 ^ 32 - 1 →
      ∃ t : State, exec .firmwareActivation s = .next t ∧ t.boot.staged = false ∧ t.boot.state = .ready ∧ t.boot.bank = s.boot.bank ∧
        t.boot.fallback = true ∧ t.boot.trial = false ∧ t.crown.activation = none) ∧
    (s.ready = true → s.draining = true → s.drained = false →
      ∃ t : State, exec .drainTimeout s = .next t ∧ t.crown.activation = none ∧ t.boot = s.boot ∧ t.stations = s.stations ∧
        t.crown.jobs = s.crown.jobs) ∧
    (s.boot.cfgDirty = true → s.boot.state ≠ .off → s.boot.state ≠ .rom →
      exec .configBlockWrite s = .next { s with
        boot := { s.boot with cfgDirty := false }
        flash := s.flash.putCfg (slice s.flash.cfgBlock 0x10 512) (slice s.flash.cfgBlock 0x210 7856) s.boot.dynSec })

/-! ## Fabric (17) -/

/-- A port's states (Table 17.2): PORT_TRAIN, CAP_EXCHANGE, MISMATCH_RETRY, PORT_SIGNAL_LOSS, FRAME_HOLD_LIMIT and FLIT_REPLAY_TIMEOUT
(R298, R299, R301, R302, R312, R313, R315). -/
def Obligations.PortsChangeState : Prop :=
  ∀ (p : Fin 14) (s : State), s.Specified →
    let x := s.fab.ports[p]
    (s.fabAlive = true → s.fab.assigned = true → s.portPresent p = true → (x.state = .down ∨ x.state = .train ∨ x.state = .align) →
      (x.eth = false → exec (.portTrain p) s = .next (s.updPort p fun x => Port.emit { x with state := .cap } (capFlit s.ownCap))) ∧
      (x.eth = true → exec (.portTrain p) s = .next ((s.updPort p fun x => { x with state := .up }).capOut p s.ownCap) ∧
        ((s.updPort p fun x => { x with state := .up }).capOut p s.ownCap).fab.ports[p].state = .up)) ∧
    (∀ rc : CapRecord, s.fabAlive = true → x.state = .cap →
      (rc.ver.toNat / 16 ≠ s.fabVer / 16 ∨ rc.modid = s.fab.modid ∨ s.reachedByOther rc.modid = true →
        ∃ t : State, exec (.capExchange p rc) s = .next t ∧ t.fab.ports[p] = { x with state := .mismatch, peers := [rc] } ∧
          (s.mon.queue.length < 256 → t.mon.queue.length = s.mon.queue.length + 1)) ∧
      (rc.ver.toNat / 16 = s.fabVer / 16 → rc.modid ≠ s.fab.modid → s.reachedByOther rc.modid = false →
        ∃ t : State, exec (.capExchange p rc) s = .next t ∧ t.fab.ports[p].state = .up ∧ t.fab.ports[p].peers = [rc] ∧
          t.fab.ports[p].ver.toNat = min s.fabVer rc.ver.toNat ∧
          t.fab.ports[p].feat = Config.fabFeatures s.boot.header &&& rc.feat)) ∧
    (s.fabAlive = true → x.state = .mismatch → exec (.mismatchRetry p) s = .next (s.updPort p fun x => x.clearLink .train)) ∧
    (x.state ≠ .disabled → x.state ≠ .down → ∃ t : State, exec (.portSignalLoss p) s = .next t ∧
      t.fab.ports[p] = x.clearLink .down ∧ (∀ p', p' ≠ p → t.fab.ports[p'] = s.fab.ports[p']) ∧
      (∀ e ∈ t.crown.sessions, ∀ k : Fin 8, e.2.slots[k].txPort ≠ some p ∧ e.2.slots[k].rxPort ≠ some p)) ∧
    (s.boot.state = .activating →
      (x.state ≠ .disabled → x.state ≠ .down → ∃ t : State, exec .frameHoldLimit s = .next t ∧ t.fab.ports[p].state = .train ∧
        t.fab.ports[p].retrain = satAdd x.retrain 1) ∧
      (x.state = .disabled ∨ x.state = .down → ∃ t : State, exec .frameHoldLimit s = .next t ∧ t.fab.ports[p] = x)) ∧
    (x.isUp = true ∨ x.state = .cap → x.eth = false → x.unacked ≠ [] →
      (x.tries < 2 → ∃ t : State, exec (.flitReplayTimeout p) s = .next t ∧ t.fab.ports[p] = { x with
        replay := satAdd x.replay 1
        tries := x.tries + 1
        sent := x.sent ++ x.unacked.map fun f => Flit.wire { f with ack := x.rxLast } }) ∧
      (2 ≤ x.tries → ∃ t : State, exec (.flitReplayTimeout p) s = .next t ∧ t.fab.ports[p].replay = satAdd x.replay 1 ∧
        t.fab.ports[p].state = .train ∧ t.fab.ports[p].retrain = satAdd x.retrain 1 ∧ t.fab.ports[p].unacked = []))

/-- FLIT_RECEIVE takes an in-order flit and completes its frame at EOF, and discards one with a bad CRC, a reserved KIND or another FSEQ;
SEND_DATA_FRAME sends the next bytes of a SEND with TXNEXT; END_TO_END_RETRANSMIT sends again, and after four attempts faults LINK_LOST;
HOLD_TIMER answers HOLD; ETHERNET_CAP_BROADCAST sends the record in an Ethernet frame; PFC_FRAME pauses and resumes (R300, R301, R305 to
R308, R313, R315). -/
def Obligations.TrafficOfPorts : Prop :=
  ∀ (p : Fin 14) (s : State), s.Specified →
    let x := s.fab.ports[p]
    (∀ b : List Byte, x.isUp = true → x.eth = false →
      let h := leNat (b.take 16)
      let c : Fin 8 := ⟨fld h 27 3, Nat.mod_lt _ (by decide)⟩
      let pay := slice b 16 (min (fld h 32 9) 488)
      let whole : Nat × List Byte := if bitAt h 25 then (1, pay) else (x.part[c].1 + 1, x.part[c].2 ++ pay)
      let good := b.length = 512 ∧ field b 504 8 = crc64 (b.take 504)
      let inOrder := BitVec.ofNat 12 (fld h 0 12) = x.rxNext
      (¬ good ∨ fld h 30 2 = 3 ∨ (fld h 30 2 ≠ 0 ∧ ¬ inOrder) →
        ∃ t : State, exec (.flitReceive p b) s = .next t ∧ t.fab.ports[p] = x) ∧
      (good → fld h 30 2 = 1 → inOrder → bitAt h 26 = true → ∃ t : State, exec (.flitReceive p b) s = .next t ∧
        t.fab.ports[p].rxLast = some x.rxNext ∧ t.fab.ports[p].inbox = x.inbox ++ [⟨c, whole.1, whole.2⟩] ∧
        t.fab.ports[p].part[c] = (0, [])) ∧
      (good → fld h 30 2 = 1 → inOrder → bitAt h 26 = false → ∃ t : State, exec (.flitReceive p b) s = .next t ∧
        t.fab.ports[p].rxLast = some x.rxNext ∧ t.fab.ports[p].inbox = x.inbox ∧ t.fab.ports[p].part[c] = whole)) ∧
    (∀ (st : Fin 16) (e : Fin 4) (r : RDesc) (b : List Byte), s.jobRuns s.stations[st] = true → s.sendable st e = some (r, p, b) →
      let d := dscDst r.bytes
      let y := s.slotAt s.stations[st].ses.toNat d.handle
      let h : FrameHdr := {
        ftype := 1
        dmod := d.sel
        ktag := s.sesTag s.stations[st].ses.toNat
        dses := y.dses.toNat
        depoch := y.depoch.toNat
        sses := s.stations[st].ses.toNat
        sepoch := s.stations[st].epoch.toNat
        dstn := y.dstn.val
        sstn := st.val
        slot := d.handle
        seq := ((s.session s.stations[st].ses.toNat).alive.toList.getD d.handle (0, 0)).1.toNat
        len := b.length }
      ∃ t : State, exec (.sendDataFrame st e) s = .next t ∧
        t.stations[st].ses4[e].run = s.stations[st].ses4[e].run.map (fun y =>
          if y.xid = r.xid ∧ y.idx = r.idx then { y with sent := y.sent + b.length } else y) ∧
        t.fab = (s.portSend p (BitVec.ofNat 10 d.sel) (mkFrame (s.fverTo (BitVec.ofNat 10 d.sel)) s.fab.modid.toNat h b)).fab ∧
        t.stations[st].pantry = s.stations[st].pantry ∧ t.mem = s.mem) ∧
    (∀ (ses : Nat) (slot : Fin 8) (st : Fin 16) (f : SentFrame) (rest : List SentFrame),
      let y := s.slotAt ses slot.val
      y.txStn = some st → y.unacked = f :: rest →
      (f.tries < 4 → y.txPort = some p → x.isUp = true →
        ∃ t : State, exec (.endToEndRetransmit ses slot) s = .next t ∧ t.stations = s.stations ∧
          t.fab.ports[p] = y.unacked.foldl (fun x f =>
            x.send (macOf p.val s.fab.modid) (s.macTo p (y.txPeer.getD 0)) f.bytes) x) ∧
      (4 ≤ f.tries → ∃ t : State, exec (.endToEndRetransmit ses slot) s = .next t ∧ t.stations[st].ses4[f.e].faulted = true ∧
        t.stations[st].ses4[f.e].code = Code.linkLost ∧ t.fab = s.fab)) ∧
    (∀ r : RxFrame, s.boot.state = .activating → (∀ p', p' ≠ p → s.fab.ports[p'].inbox = []) → x.inbox = [r] →
      s.frameGood p r.bytes = true → s.foreign p (x.dev r.bytes) = false →
      let h := frameHdr (x.dev r.bytes)
      let g := { h.answer (frameSmod (x.dev r.bytes)) 7 with seq := h.seq }
      (h.ftype = 1 → exec .holdTimer s = .next (s.sendRx h.dses h.slot g)) ∧
      (h.ftype = 5 → exec .holdTimer s = .next (s.sendTo g []))) ∧
    (s.fabAlive = true → x.isUp = true → x.eth = true → x.held 0 = false →
      ∃ (t : State) (m : Nat), exec (.ethernetCapBroadcast p) s = .next t ∧ t.fab.ports[p] = { x with
        sentFrames := x.sentFrames ++ [ethFrame macAll (macOf p.val s.fab.modid) (x.pcp 0) x.vid.toNat x.etype.toNat
          (mkFrame s.fabVer s.fab.modid.toNat { ftype := 8, dmod := m, len := 16 } (capBytes s.ownCap))] } ∧
        t.stations = s.stations) ∧
    (∀ pr : BitVec 8, x.isUp = true → x.eth = true →
      exec (.pfcFrame p pr true) s = .next (s.updPort p fun x => { x with paused := x.paused ||| pr }) ∧
      exec (.pfcFrame p pr false) s = .next (s.updPort p fun x => Port.flush { x with paused := x.paused &&& ~~~pr }) ∧
      (x.paused &&& ~~~pr = 0 → Port.flush { x with paused := x.paused &&& ~~~pr } = { x with
        paused := 0
        heldFrames := []
        sentFrames := x.sentFrames ++ x.heldFrames.map Prod.snd }))

/-- DATA (R306): refused STALE for another role or key set; when it is next, its bytes enter the RECV's engine as chunks and RXNEXT counts
on; acknowledged again when it repeats and is no longer owed an ACK; dropped and counted after a gap. During a warm reset an Ethernet
port keeps it (R189, R315). A chunk of a RECV lands like another, and then the ACKs that are due leave (R193, R306). -/
def Obligations.DataFrames : Prop :=
  (∀ (p : Fin 14) (frame : List Byte) (s : State), s.Meets p frame 1 →
    let dev := s.fab.ports[p].dev frame
    let h := frameHdr dev
    let u := s.takeFrame p frame
    let cls := aliveClass 32 (s.rxNextOf h.dses h.slot).toNat h.seq
    (s.boot.state ≠ .activating →
      (s.frameAccepted h = false → exec (.dataFrame p frame) s =
        .next ((u.updPort p fun x => { x with stale := wrapAdd x.stale 1 }).sendRx h.dses h.slot
          { h.answer (frameSmod dev) 4 with status := Code.roleEpochStale.toNat })) ∧
      (∀ (e : Fin 4) (r : RDesc) (y : Session), s.frameAccepted h = true → cls = .pass → s.recvFor h = some (e, r) →
        s.crown.sessions.get? h.dses = some y →
        ∃ t : State, exec (.dataFrame p frame) s = .next t ∧
          t.stations[h.stn].ses4[e].chunks = s.stations[h.stn].ses4[e].chunks ++ (r.recvChunks h.len).map (fun c =>
            ⟨r.xid, r.idx, c.1, c.2, some (slice (framePayload dev) (c.1 - r.issued) c.2), 0, false⟩) ∧
          t.rxNextOf h.dses h.slot = s.rxNextOf h.dses h.slot + 1 ∧ t.stations[h.stn].pantry = s.stations[h.stn].pantry ∧
          (∀ st, st ≠ h.stn → t.stations[st] = s.stations[st]) ∧ t.mem = s.mem) ∧
      (s.frameAccepted h = true → cls = .rep →
        exec (.dataFrame p frame) s = .next ((u.countFrame p false).ackAgain h (frameSmod dev))) ∧
      (s.frameAccepted h = true → cls = .gap → exec (.dataFrame p frame) s = .next (u.countFrame p true))) ∧
    (s.boot.state = .activating → s.fab.ports[p].eth = true → exec (.dataFrame p frame) s =
      .next (s.updPort p fun x => { x with inbox := x.inbox ++ [⟨0, 0, frame⟩] }))) ∧
  (∀ (st : Fin 16) (e : Fin 4) (c : Nat) (s : State) (k : Chunk) (r : RDesc) (b : List Byte),
    let t := s.stations[st]
    let rows := t.ses4[e].wholeRows k b
    s.Specified → s.jobRuns t = true → t.ses4[e].landable c = some (k, r, b) → dscKind r.bytes = 3 →
    (dscDst r.bytes).space = spPantry →
    exec (.chunkLand st e c .clean) s = .next ((s.putStn st (((t.wr ((dscDst r.bytes).off + rows.1) rows.2).updSe e fun x =>
      { x with chunks := x.chunks.eraseIdx c }).landBytes e k.xid k.idx k.len)).settleAcks st t.ses.toNat (dscSrc r.bytes).handle))

/-- The other frames (R303, R305, R306, R308 to R313): CREDIT is recorded, ACK releases what it covers, STALE ends the sender's job, READ is
answered with an export's bytes, RDATA completes its chunk, HOLD is taken, CAP updates the records, a frame for another module is relayed
with HOPS 0, one of a reserved type is dropped and counted. -/
def Obligations.FramesTaken : Prop :=
  ∀ (p : Fin 14) (frame : List Byte) (s : State),
    let dev := s.fab.ports[p].dev frame
    let h := frameHdr dev
    let u := s.takeFrame p frame
    let smod := frameSmod dev
    (s.Meets p frame 2 →
      (s.sessionByTag h.ktag = none →
        exec (.creditFrame p frame) s = .next (u.updPort p fun x => { x with stale := wrapAdd x.stale 1 })) ∧
      (∀ ses : Nat, s.sessionByTag h.ktag = some ses → exec (.creditFrame p frame) s = .next (u.updSlot ses h.slot fun x => { x with
        dses := BitVec.ofNat 14 h.sses
        dstn := ⟨h.sstn % 16, Nat.mod_lt _ (by decide)⟩
        depoch := BitVec.ofNat 16 h.sepoch
        credit := x.credit ++ [h.offset % 2 ^ 32] }))) ∧
    (∀ y : Session, s.Meets p frame 3 → s.frameAccepted h = true → s.crown.sessions.get? h.dses = some y →
      ∃ t : State, exec (.ackFrame p frame) s = .next t ∧
        (t.slotAt h.dses h.slot).unacked = (s.slotAt h.dses h.slot).unacked.filter (fun f => !ackCovers (BitVec.ofNat 32 h.seq) f.seq) ∧
        t.mem = s.mem ∧ (∀ st, st ≠ h.stn → t.stations[st] = s.stations[st])) ∧
    (∀ (f : SentFrame) (rest : List SentFrame), s.Meets p frame 4 → s.frameAccepted h = true →
      s.jobRuns s.stations[h.stn] = true → (s.slotAt h.dses h.slot).unacked = f :: rest →
      exec (.staleFrame p frame) s = .next ((u.countStale h.dses).seFault h.stn f.e Code.roleEpochStale f.idx)) ∧
    (s.Meets p frame 5 → s.boot.state ≠ .activating →
      (∀ (x : Expo) (b : Buffer), s.crown.exports.get? h.expo = some x → s.crown.buffers.get? x.buf = some b → x.peer.toNat = smod →
        64 ≤ h.len → h.len ≤ 4096 → h.offset + h.len ≤ b.len →
        s.poisonIn ((if b.cv then b.v1 else b.v0) + h.offset) h.len = [] →
        exec (.readFrame p frame) s = .next (((u.ioMoved h.len).tick).sendTo
          { h.answer smod 6 with status := 0, seq := h.seq, len := h.len }
          (s.memBytes ((if b.cv then b.v1 else b.v0) + h.offset) h.len))) ∧
      (s.crown.exports.get? h.expo = none → exec (.readFrame p frame) s = .next (((u.ioMoved 0).tick).sendTo
        { h.answer smod 6 with status := Code.boundFault.toNat, seq := h.seq, len := 0 } []))) ∧
    (∀ r : PeerRead, s.Meets p frame 6 → (s.fab.reads.find? fun r => r.tag.toNat == h.seq) = some r → s.readOpen r = true →
      h.status = 0 → h.len = r.len →
      exec (.rdataFrame p frame) s = .next ({ u with fab := { u.fab with reads := u.fab.reads.filter fun x => x.tag != r.tag } }.gotData
        r.stn r.e r.xid r.idx r.off (framePayload dev))) ∧
    (s.Meets p frame 7 → exec (.holdFrame p frame) s = .next u) ∧
    (s.Meets p frame 8 →
      let rc := capOfBytes (framePayload dev)
      rc.modid ≠ s.fab.modid →
      (rc.modid.toNat = smod → s.fab.ports[p].eth = true → exec (.capFrame p frame) s =
        .next (u.updPort p fun x => { x with
          peers := x.peers.filter (fun r => r.modid != rc.modid) ++ [rc]
          pairs := x.pairs.filter (fun y => y != (rc.modid, field frame 9 1)) ++ [(rc.modid, field frame 9 1)] })) ∧
      (rc.modid.toNat = smod → s.fab.ports[p].eth = false → s.fab.ports[p].peers.any (fun r => r.modid == rc.modid) = true →
        ∃ t : State, exec (.capFrame p frame) s = .next t ∧ t.fab.ports[p].peers = [rc] ∧
          t.fab.ports[p].ver.toNat = min s.fabVer rc.ver.toNat) ∧
      (rc.modid.toNat ≠ smod → s.fab.ports[p].peers.any (fun r => r.modid.toNat == smod) = true →
        ∃ t : State, exec (.capFrame p frame) s = .next t ∧ (BitVec.ofNat 10 smod, rc) ∈ t.fab.relayed ∧
          t.stations = s.stations)) ∧
    (s.Specified → s.fab.ports[p].frameAt frame = true →
      (s.frameGood p frame = true → s.foreign p dev = true →
        (∀ q : Fin 14, frameHops dev ≠ 0 → s.hashPort (BitVec.ofNat 10 smod) (BitVec.ofNat 10 h.dmod) h.sses h.slot = some q →
          exec (.frameRelay p frame) s = .next (u.portSend q (BitVec.ofNat 10 h.dmod) (relayed dev))) ∧
        (frameHops dev = 0 → exec (.frameRelay p frame) s = .next (u.dropFrame p))) ∧
      (field dev 1 1 = 0 ∨ 8 < field dev 1 1 →
        ∃ t : State, exec (.reservedFtypeFrame p frame) s = .next t ∧ t.fab.ports[p].drop = satAdd s.fab.ports[p].drop 1 ∧
          t.fab.ports[p].inbox = (s.fab.ports[p].takeFrame frame).inbox ∧ t.stations = s.stations ∧ t.mem = s.mem))

/-! ## Band (18) -/

/-- The writes of a register-level Band unit, each with the command that makes it (R324). -/
def bandWrites (u : Fin 4) (v : Word) (hi : Bool) : List (Instr × BndWrite) :=
  [(.bndCtrlWrite u v, .ctrl v), (.bndInit u, .init), (.bndFeed8 u v, .feed 1 v), (.bndFeed16 u v, .feed 2 v),
   (.bndFeed32 u v, .feed 4 v), (.bndRunWrite u hi v, .run hi v), (.bndAnextWrite u v, .anext v), (.bndAchk u v, .achk v),
   (.bndAstatClr u, .astat 4)]

/-- Writes take effect in arrival order: whatever had taken effect before, the drained unit is the one that every waiting write and
then this one were applied to; a read of a held register returns its value after every earlier write (R324, log entry 33). A BND_CTRL
write that names a reserved ALG adds a log entry, and no other write touches the log (R6, log entry 55). -/
def Obligations.BandUnits : Prop :=
  ∀ (u : Fin 4) (s : State), s.Specified → s.linkUp = true →
    let x := s.band[u]
    (∀ (v : Word) (hi : Bool), ∀ w ∈ bandWrites u v hi, x.queue.length < 8 →
      ∃ t : State, exec w.1 s = .next t ∧ t.band[u].drain 8 = { (x.queue ++ [w.2]).foldl BndUnit.apply x with queue := [] } ∧
        t = { s with band := t.band, fresh := t.fresh, mon := t.mon } ∧ (∀ u', u' ≠ u → t.band[u'] = s.band[u']) ∧
        ((∀ x, w.2 = .ctrl x → fld x.toNat 0 2 < 2) → t.mon = s.mon)) ∧
    (∀ reg : BndReg, readHeld reg = true → x.queue.length ≤ 8 →
      let y := { x.queue.foldl BndUnit.apply x with queue := [] }
      ∃ t : State, exec (.bndResultRead u reg) s = .next t ∧ t.band[u] = y ∧
        (u.val < 2 → t.hostOut = s.hostOut ++ [.cplData 0 (natLe 4 (y.value reg))]) ∧ (2 ≤ u.val → t.hostOut = s.hostOut))

/-- A unit's running value is the check value of the bytes fed to it: after INIT and a run of byte feeds, BND_RES reads CRC-32C or CRC-64
(R317, R318, R324); a wider feed is its bytes fed one at a time. BND_ACHK classifies by R319. -/
def Obligations.BandComputesCheckValues : Prop :=
  ∀ (x : BndUnit) (bs : List Byte),
    let y := (bs.map fun b => BndWrite.feed 1 (b.setWidth 32)).foldl BndUnit.apply (x.apply .init)
    (x.alg = 0 → y.value .resLo = crc32c bs) ∧ (x.alg = 1 → y.value .resHi * 2 ^ 32 + y.value .resLo = crc64 bs) ∧
    (∀ b0 b1 b2 b3 : Byte, x.apply (.feed 4 (BitVec.ofNat 32 (leNat [b0, b1, b2, b3]))) =
      ([b0, b1, b2, b3].map fun b => BndWrite.feed 1 (b.setWidth 32)).foldl BndUnit.apply x) ∧
    (∀ v : Word, x.aw = true →
      (v = x.anext → (x.apply (.achk v)).result = 1 ∧ (x.apply (.achk v)).anext = x.anext + 1) ∧
      (1 ≤ (x.anext - v).toNat → (x.anext - v).toNat ≤ 2 ^ 31 → (x.apply (.achk v)).result = 2 ∧
        (x.apply (.achk v)).anext = x.anext ∧ (x.apply (.achk v)).rep = satAdd x.rep 1) ∧
      (2 ^ 31 < (x.anext - v).toNat → (x.apply (.achk v)).result = 3 ∧ (x.apply (.achk v)).anext = x.anext ∧
        (x.apply (.achk v)).gap = satAdd x.gap 1))

/-! ## Mortar (19) -/

/-- MRT_SUBMIT enqueues, completes a bad descriptor at once, or sets QOVF; MRT_CANCEL ends a job ABORTED and writes no slot;
MRT_SLOT_WRITE and MRT_MEM_WRITE are ignored with CFGERR where a slot is active; MRT_RESULT_READ removes the oldest result and forwards it
(R37, R329 to R331, R337, R338). -/
def Obligations.MortarRegisters : Prop :=
  ∀ s : State, s.Specified → s.boot.state ≠ .off →
    let m := s.mortar
    (∀ val : Word,
      let m1 := { m with submit := m.submit.set 7 val }
      let j := MJob.ofBytes (bytesOf m1.submit.toList)
      (16 ≤ m.queue.length → exec (.mrtSubmit val) s = .next { s with mortar := { m1 with qOvf := true } }) ∧
      (m.queue.length < 16 → m1.badJob j = false → exec (.mrtSubmit val) s = .next { s with mortar := { m1 with queue := m.queue ++ [j] } }) ∧
      (m.queue.length < 16 → m1.badJob j = true → m.results.length < 32 → exec (.mrtSubmit val) s = .next { s with mortar := { m1 with
        results := m.results ++ [(j.tag, Code.badOperand)]
        jobs := wrapAdd m.jobs 1 } })) ∧
    (∀ val : Word,
      let tag : BitVec 16 := val.setWidth 16
      (m.active tag = false → exec (.mrtCancel val) s = .next s.tick) ∧
      (m.active tag = true → ∃ t : State, exec (.mrtCancel val) s = .next t ∧ t.mortar.active tag = false ∧
        t.mortar.slots = m.slots ∧ (m.results.length < 32 → t.mortar.results = m.results ++ [(tag, Code.aborted)]) ∧
        (∀ j ∈ m.queue, j.tag ≠ tag → j ∈ t.mortar.queue) ∧
        (∀ w, (∀ r ∈ m.running.toList ++ m.saved, r.job.tag = tag → ∀ i ∈ r.job.works,
          w < (m.slot i).base.toNat ∨ (m.slot i).base.toNat + (m.slot i).len.toNat ≤ w) → t.mortar.word w = m.word w))) ∧
    (∀ (i : Fin 64) (val : Word),
      (m.slots[i].valid = true → m.slotActive i.val = true →
        exec (.mrtSlotWrite i val) s = .next { s with mortar := { m with cfgErr := true } }) ∧
      (m.slots[i].valid = false ∨ m.slotActive i.val = false → exec (.mrtSlotWrite i val) s = .next { s with mortar := { m with
        slots := m.slots.set i ⟨bitAt val.toNat 31, BitVec.ofNat 8 (fld val.toNat 13 8), BitVec.ofNat 13 (fld val.toNat 0 13)⟩ } })) ∧
    (∀ (w : Fin 8192) (val : Dword),
      let hit := fun (i : Fin 64) => m.slotActive i.val = true ∧ m.slots[i].base.toNat ≤ w.val ∧
        w.val < m.slots[i].base.toNat + m.slots[i].len.toNat
      ((∃ i, hit i) → exec (.mrtMemWrite w val) s = .next { s with mortar := { m with cfgErr := true } }) ∧
      ((∀ i, ¬ hit i) → exec (.mrtMemWrite w val) s = .next { s with mortar := { m with mem := m.mem.put w.val val } } ∧
        ({ m with mem := m.mem.put w.val val } : Mortar).word w.val = val)) ∧
    (∀ (tag : BitVec 16) (code : Byte) (rest : List (BitVec 16 × Byte)), m.results = (tag, code) :: rest →
      ∃ t : State, exec .mrtResultRead s = .next t ∧
        (m.held = [] → s.crown.waits = [] → t.mortar.results = rest) ∧
        (∀ (v : VerifyReq) (ref : ReqRef) (ktag : Word) (k : KeySet), (s.crown.verifies.find? fun v => v.mtag == tag) = some v →
          v.ref = some (ref, ktag) → s.crown.keysets.get? ktag.toNat = some k → k.state = .registered → s.ksigOf ktag = true →
          (t.crown.keysets.get? ktag.toNat).map (·.state) = some (if code = Code.ok then .verified else .registered)))

/-- Mortar's jobs run by class (R327, R333 to R337): the first queued job of the lowest class starts, an unsigned program's ends at once,
a suspended job resumes before it; the check phase gives the first failure; a yield point suspends for a lower class; a job's end writes
slot O when OK, with the sum, the product or the power modulo M, leaves its work slots with unspecified contents (free values, log entry
9) and every word outside these slots as it was (R334). -/
def Obligations.MortarRuns : Prop :=
  ∀ s : State, s.Specified →
    let m := s.mortar
    (∀ (a b : List MJob) (j : MJob), m.running = none → m.saved = [] → m.queue = a ++ j :: b → (∀ x ∈ a, j.cls < x.cls) →
      (∀ x ∈ b, j.cls ≤ x.cls) →
      exec .mortarJobStart s = .next { s with mortar := { m with
        running := some (if m.loaded j.op.toNat then ⟨j, true, none, none⟩ else ⟨j, false, some Code.mrtProgramUnsigned, none⟩)
        queue := a ++ b } }) ∧
    (∀ (r : MRun) (rest : List MRun), m.running = none → m.saved = r :: rest → (∀ x ∈ rest, r.job.cls ≤ x.job.cls) →
      (∀ j ∈ m.queue, r.job.cls ≤ j.cls) →
      ∃ t : State, exec .mortarJobStart s = .next t ∧ t.mortar.running = some r ∧ t.mortar.queue = m.queue) ∧
    (∀ r : MRun, m.running = some r → r.checking = true → exec .mortarCheckPhaseEnd s =
      .next { s with mortar := { m with running := some { r with checking := false, result := m.checkPhase r.job } } }) ∧
    (∀ r : MRun, m.running = some r → m.canYield r = true →
      ((∃ j ∈ m.queue, j.cls < r.job.cls) → exec .mortarYieldPoint s =
        .next { s with mortar := { m with running := none, saved := m.saved ++ [r], yields := wrapAdd m.yields 1 } }) ∧
      ((∀ j ∈ m.queue, r.job.cls ≤ j.cls) → exec .mortarYieldPoint s = .next s)) ∧
    (∀ r : MRun, m.running = some r → r.checking = false → m.results.length < 32 →
      (∀ c : Byte, r.result = some c → exec .mortarJobEnd s = .next (State.tick { s with mortar := { m.spoil s.fresh r.job with
        running := none
        results := m.results ++ [(r.job.tag, c)]
        jobs := wrapAdd m.jobs 1 } })) ∧
      (r.result = none →
        let n := m.value r.job.sm.toNat
        let a := m.value r.job.sa.toNat
        let b := m.value r.job.sb.toNat
        ∃ t : State, exec .mortarJobEnd s = .next t ∧ t.mortar.running = none ∧ t.mortar.queue = m.queue ∧ t.mortar.slots = m.slots ∧
          (∀ v, n ≤ 2 ^ (64 * (m.slot r.job.so.toNat).len.toNat) → 1 < n →
            ((r.job.op = 0x10 ∧ v = (a + b) % n) ∨ (r.job.op = 0x12 ∧ v = a * b % n) ∨ (r.job.op = 0x14 ∧ v = a ^ b % n)) →
            t.mortar.value r.job.so.toNat = v ∧ t.mortar.results = m.results ++ [(r.job.tag, Code.ok)]) ∧
          (∀ w, (∀ i ∈ r.job.so.toNat :: r.job.works,
            w < (m.slot i).base.toNat ∨ (m.slot i).base.toNat + (m.slot i).len.toNat ≤ w) → t.mortar.word w = m.word w)))

/-! ## Resets, power and pins (20, 21) -/

/-- PERST_N, P1, REFCLK100 and THERMTRIP: a cold reset leaves the reset state but for the grade, the flash, the fuses and the pins; the
lockout and a trip leave the module off (R275, R362, R363, R366, R384). A Hot Reset and the PF's function-level reset clear every page and
station; a VF's clears the VF's page and ends its jobs (R275, R278, R293, R368 to R370). BAR sizes return to 1 GiB (log entry 48). -/
def Obligations.ResetsAndPower : Prop :=
  ∀ s : State,
    let cold := fun (b : BootState) (p : Power) (t : State) => t = { State.reset with
      grade := s.grade
      flash := s.flash
      fuses := s.fuses
      fresh := s.fresh
      pending := s.pending
      boot := { Boot.reset with state := b }
      power := p }
    (s.boot.state ≠ .off → ∃ t : State, exec .perstNAssert s = .next t ∧ cold .rom s.power.cold t ∧ t.mon.ring = [] ∧
      t.mon.queue = [] ∧ t.mon.lost = 0 ∧ t.mon.next = 0 ∧ t.power.unspecified = false) ∧
    (s.power.p1 = false → s.power.refclk = true → ∃ t : State, exec .p1PowerUp s = .next t ∧
      cold .rom { s.power.cold with p1 := true, pwrgd := true, lock := true } t) ∧
    (s.power.p1 = false → s.power.refclk = false →
      exec .p1PowerUp s = .next { s with power := { s.power with p1 := true } }) ∧
    (s.power.refclk = false → s.power.p1 = true → s.power.pwrgd = false → ∃ t : State, exec .refclk100Present s = .next t ∧
      cold .rom { s.power.cold with refclk := true, pwrgd := true, lock := true } t) ∧
    (s.power.p1 = true → ∃ t : State, exec .undervoltageLockout s = .next t ∧
      cold .off { s.power.cold with p1 := false, pwrgd := false, tripped := false } t) ∧
    (s.boot.state ≠ .off → ∃ t : State, exec .thermtrip s = .next t ∧ cold .off { s.power.cold with tripped := true } t) ∧
    (s.Specified → s.warmable = true →
      (∀ c ∈ [Instr.hotReset, Instr.functionLevelReset 0], ∃ t : State, exec c s = .next t ∧ (∀ f : Fin 64, t.mbx[f].en = false) ∧
        (∀ st : Fin 16, t.stations[st].held = false ∧ t.stations[st].pantry.mem = [] ∧ t.stations[st].queues = Vector.replicate 22 []) ∧
        t.net = [] ∧ t.boot = s.boot ∧ t.fuses = s.fuses ∧ t.flash = s.flash ∧ t.bars = ⟨1, 1⟩ ∧ t.mon.units = s.mon.units ∧
        t.mortar.prog = s.mortar.prog ∧ t.mortar.queue = [] ∧ t.mortar.running = none) ∧
      (∀ f : Fin 64, f ≠ 0 → ∃ t : State, exec (.functionLevelReset f) s = .next t ∧ t.mbx[f].en = false ∧
        (∀ f', f' ≠ f → t.mbx[f'].en = s.mbx[f'].en) ∧
        (∀ j x, t.crown.jobs.get? j = some x → x.func = f → x.state ≠ .running ∧ x.state ≠ .admitting) ∧
        t.boot = s.boot ∧ t.fuses = s.fuses ∧ t.flash = s.flash ∧ t.mon.units = s.mon.units))

/-- The power cap's samples, die temperatures, a lost reference, the alert response and the TAP (R360, R364, R365, R373, R374), and the
writes of single registers (R84, R147, R168 to R170, R201, R273, R276, R278, R303, R313, R324, R351, R360, R364): a write that R169, R170 or
R201 forbids does not happen (log entry 54), nor one of configuration space that Table 16.1 does not support (log entry 48). -/
def Obligations.PinsAndRegisters : Prop :=
  ∀ s : State, s.Specified →
    (s.boot.state ≠ .off →
      (∀ watts mv frac : Nat, ∃ t : State, exec (.powerCapSample watts mv frac) s = .next t ∧ t = { s with power := t.power } ∧
        t.power.hist = (watts :: s.power.hist).take 1000 ∧ t.power.mv = BitVec.ofNat 16 mv ∧
        (s.power.cap = 0 → t.power.frac = 64) ∧ (s.power.cap ≠ 0 → 1 ≤ t.power.frac.toNat ∧ t.power.frac.toNat ≤ 64) ∧
        (t.power.floorBit = true ↔ s.power.cap ≠ 0 ∧ t.power.frac = 1 ∧ s.power.cap.toNat < watts)) ∧
      (∀ temps : List Nat, ∃ t : State, exec (.dieTemperatureReading temps) s = .next t ∧ t = { s with power := t.power } ∧
        (t.power.hotDie = true ↔ ∃ x ∈ temps, 105 ≤ x)) ∧
      (exec .smbusAlertResponse s = .next { s with power := { s.power with newEntry := false } }) ∧
      (∃ t : State, exec (.referenceLoss .refclk100) s = .next t ∧ t.power.unspecified = true ∧ t.power.refLoss = true ∧
        (∀ c, (c ≠ .perstNAssert ∧ c ≠ .thermtrip ∧ c ≠ .undervoltageLockout ∧ c ≠ .refclk100Present ∧ c ≠ .p1PowerUp ∧
          c ≠ .errorLogWrite ∧ ∀ i, c ≠ .tapInstruction i) → exec c t = .next t)) ∧
      (∀ d : Fin 4, bitAt s.grade.iodies.toNat d.val = true → ∃ t : State, exec (.referenceLoss (.fab d)) s = .next t ∧
        t.power.unspecified = false ∧ bitAt t.power.fabLoss.toNat d.val = true ∧
        (∀ p : Fin 14, portDie p = d.val → s.fab.ports[p].state ≠ .disabled → t.fab.ports[p].state = .down) ∧
        (∀ p : Fin 14, portDie p ≠ d.val → t.fab.ports[p] = s.fab.ports[p]))) ∧
    (∀ ins : TapIns, ∃ t : State, exec (.tapInstruction ins) s = .next t ∧ t = { s with power := { s.power with tap := t.power.tap } } ∧
      t.power.tap = (if ins = .extest ∧ s.boot.state ≠ .rom then .bypass else ins)) ∧
    (s.boot.state ≠ .off → ∀ val : Word, let w := fun (r : RegTarget) => exec (.registerWrite r val) s
      let v := val.toNat
      (∀ (st : Fin 16) (g : Fin 2), ∃ t : State, w (.grdBypass st g) = .next t ∧
        t.stations[st].griddles[g] = { s.stations[st].griddles[g] with pending := val.setWidth 16 } ∧
        t.boot = { s.boot with
          dynSec := splice s.boot.dynSec (8 + 2 * (2 * st.val + g.val)) (natLe 2 (v % 2 ^ 16)), cfgDirty := true }) ∧
      (∀ st : Fin 16, ∃ t : State, w (.fnlKpmBaseHi st) = .next t ∧ ∀ st' : Fin 16,
        t.stations[st'].funnel.base.toNat = v * 2 ^ 32 + s.stations[st'].funnel.base.toNat % 2 ^ 32) ∧
      (∀ st : Fin 16, ∃ t : State, w (.fnlKpmBaseLo st) = .next t ∧ ∀ st' : Fin 16,
        t.stations[st'].funnel.base.toNat = s.stations[st'].funnel.base.toNat / 2 ^ 32 * 2 ^ 32 + v / 2 ^ 20 * 2 ^ 20) ∧
      (∀ st : Fin 16, let a := s.stations[st]
        let busy := a.held = true ∧ (∃ q : Fin 22, ∃ e ∈ a.queues[q], e.phase = .running) ∧ a.window.valid = true
        (¬ busy → ∃ t : State, w (.panRegion st) = .next t ∧ t.stations[st].pantry = { a.pantry with
          timed := BitVec.ofNat 8 (fld v 8 8)
          dual := BitVec.ofNat 8 (fld v 0 8) }) ∧
        (busy → ∃ t : State, w (.panRegion st) = .next t ∧ ∀ r < 8,
          let fixed := bitAt (regionBits a.window.base.toNat a.window.size.toNat).toNat r
          bitAt t.stations[st].pantry.dual.toNat r = (if fixed then bitAt a.pantry.dual.toNat r else bitAt v r) ∧
          bitAt t.stations[st].pantry.timed.toNat r = (if fixed then bitAt a.pantry.timed.toNat r else bitAt v (8 + r)))) ∧
      (∀ (st : Fin 16) (i : Fin 4), let a := s.stations[st]
        let x : Win := ⟨bitAt v 31, BitVec.ofNat 10 (fld v 16 10), BitVec.ofNat 9 (fld v 0 9)⟩
        let fits := x.valid = true → 1 ≤ x.size.toNat ∧ x.base.toNat + x.size.toNat ≤ 512 ∧
          ∀ k : Fin 4, k ≠ i → a.pantry.wins[k].valid = true → x.base.toNat + x.size.toNat ≤ a.pantry.wins[k].base.toNat ∨
            a.pantry.wins[k].base.toNat + a.pantry.wins[k].size.toNat ≤ x.base.toNat
        (fits → ¬ (a.held = true ∧ a.win = i) → ∃ t : State, w (.panWin st i) = .next t ∧ t.stations[st].pantry.wins[i] = x) ∧
        (¬ fits ∨ (a.held = true ∧ a.win = i) → ∃ t : State, w (.panWin st i) = .next t ∧ t.stations[st] = a)) ∧
      (∀ i : Fin 16, s.boot.state ≠ .rom → w (.memRgnA i) = .next s ∧ w (.memRgnB i) = .next s) ∧
      (∀ i : Fin 16, s.boot.state = .rom →
        (∃ t : State, w (.memRgnA i) = .next t ∧ t.mem.regions[i] = { regionOfWords v 0 with sb := s.mem.regions[i].sb }) ∧
        (∃ t : State, w (.memRgnB i) = .next t ∧ t.mem.regions[i] = { s.mem.regions[i] with sb := BitVec.ofNat 7 (fld v 0 7) })) ∧
      (∀ site : Fin 8, bitAt s.grade.sites.toNat site.val = true → ∃ t : State, w (.memMargin site) = .next t ∧
        t.mem.stackRegs[site] = { s.mem.stackRegs[site] with
          chan := BitVec.ofNat 4 (fld v 28 4)
          rdly := BitVec.ofNat 7 (fld v 21 7)
          wdly := BitVec.ofNat 7 (fld v 14 7)
          vref := BitVec.ofNat 5 (fld v 9 5)
          vddq := BitVec.ofNat 5 (fld v 4 5)
          running := s.mem.stackRegs[site].running || (s.mem.margin && bitAt v 0) }) ∧
      (∀ (f : Fin 64) (vec : Fin 32) (k : Fin 4), ∃ t : State, w (.msixTable f vec k) = .next t ∧
        t.mbx[f].msix.get? (4 * vec.val + k.val) = some val) ∧
      (∀ u : Fin 4, s.band[u].queue = [] →
        (∃ t : State, w (.bndStatus u) = .next t ∧ t.band[u].queue = [.status val]) ∧
        (∃ t : State, w (.bndRes u) = .next t ∧ t.band[u].queue = [.res]) ∧
        (∃ t : State, w (.bndAstat u) = .next t ∧ t.band[u].queue = [.astat 0])) ∧
      (w .cfgVfEnable = .next { s with cfg := { s.cfg with vfEnable := bitAt v 0 } }) ∧
      (∀ vf : Bool, (barSizeOk v = true → w (.cfgBar2 vf) = .next { s with bars :=
          if vf then { s.bars with vf := v } else { s.bars with pf := v } }) ∧
        (barSizeOk v = false → w (.cfgBar2 vf) = .next s)) ∧
      (∀ f : Fin 64, ∃ t : State, w (.cfgPower f) = .next t ∧ bitAt t.cfg.d3hot.toNat f.val = (v % 4 == 3) ∧
        (∀ g : Fin 64, g ≠ f → bitAt t.cfg.d3hot.toNat g.val = bitAt s.cfg.d3hot.toNat g.val)) ∧
      (v < 3 → w .cfgMps = .next { s with cfg := { s.cfg with mps := 128 * 2 ^ v } }) ∧
      (v < 6 → w .cfgMrrs = .next { s with cfg := { s.cfg with mrrs := 128 * 2 ^ v } }) ∧
      (∀ k : Fin 7, ∃ t : State, w (.mrtSubmit k) = .next t ∧ t.mortar.submit[k.val] = val ∧ t.mortar.queue = s.mortar.queue) ∧
      (∃ t : State, w .clkStatus = .next t ∧ t.power.unlock = (s.power.unlock && !bitAt v 2) ∧
        t.power.refLoss = (s.power.refLoss && !bitAt v 1) ∧ t.power.lock = s.power.lock) ∧
      (∀ p : Fin 14, s.portPresent p = true →
        (∃ t : State, w (.fabEth p) = .next t ∧ t.fab.ports[p] = { s.fab.ports[p] with
          pcp3 := BitVec.ofNat 4 (fld v 28 4)
          vid := BitVec.ofNat 12 (fld v 16 12)
          etype := BitVec.ofNat 16 (fld v 0 16) }) ∧
        (∃ t : State, w (.fabEthPcp p) = .next t ∧ t.fab.ports[p] = { s.fab.ports[p] with
          pcp2 := BitVec.ofNat 4 (fld v 8 4)
          pcp1 := BitVec.ofNat 4 (fld v 4 4)
          pcp0 := BitVec.ofNat 4 (fld v 0 4) })) ∧
      (∀ (f : Fin 64) (k : Fin 4), (s.mbx[f].en = true → w (.mbxBase f k) = .next s) ∧
        (s.mbx[f].en = false → ∃ t : State, w (.mbxBase f k) = .next t ∧
          t.mbx[f].base[k] = if k.val % 2 = 0 then val &&& 0xFFFFF000 else val)) ∧
      (w .mrtStatus = .next { s with mortar := { s.mortar with
        cfgErr := s.mortar.cfgErr && !bitAt v 3
        qOvf := s.mortar.qOvf && !bitAt v 2 } }) ∧
      (∃ t : State, w .pwrCap = .next t ∧ t = { s with power := { s.power with cap := t.power.cap } } ∧
        t.power.cap.toNat = if v % 2 ^ 16 = 0 then 0 else max (v % 2 ^ 16) 900) ∧
      w .readOnly = .next s)

/-! ## Monitors, the error log and quarantine (22) -/

/-- A write of MON_CFGA, MON_CFGB or MON_CFGC clears the unit and sets the register. A sample updates MIN, MAX, COUNT, SUM and one bin of
every active unit that watches its source and is not saturated, and no other unit. -/
def Obligations.MonitorUnits : Prop :=
  ∀ s : State, s.Specified → s.linkUp = true →
    (∀ (u : Fin 64) (reg : MonReg) (val : Word),
      let x := s.mon.units[u]
      ∃ t : State, exec (.monCfgWrite u reg val) s = .next t ∧
        t.mon.units[u] = { MonUnit.reset with
          cfga := if reg = .cfga then val &&& 0xE0FFFFFF else x.cfga
          cfgb := if reg = .cfgb then val else x.cfgb
          cfgc := if reg = .cfgc then val else x.cfgc } ∧
        t.mon.units[u].mn = 0xFFFFFFFF ∧ t.mon.units[u].mx = 0 ∧ t.mon.units[u].count = 0 ∧ t.mon.units[u].sum = 0 ∧
        (∀ k : Fin 32, t.mon.units[u].bins[k] = 0) ∧ (∀ u', u' ≠ u → t.mon.units[u'] = s.mon.units[u'])) ∧
    (∀ src i v : Nat, s.grade.srcOk src i = true → v < 2 ^ 32 →
      ∃ t : State, exec (.monitorSample src i v) s = .next t ∧ ∀ u : Fin 64,
        let x := s.mon.units[u]
        let y := t.mon.units[u]
        let bin := if x.log2 then (if v < 2 ^ x.lo then 0 else min 31 (Nat.log2 v - x.lo + 1))
          else (if v < x.lo then 0 else min 31 ((v - x.lo) / x.cfgc.toNat))
        (x.watches s.grade src i = false ∨ x.sat = true → y = x) ∧
        (x.watches s.grade src i = true → x.sat = false → x.full v = false →
          y.mn.toNat = min x.mn.toNat v ∧ y.mx.toNat = max x.mx.toNat v ∧ y.count.toNat = x.count.toNat + 1 ∧
          y.sum.toNat = x.sum.toNat + v ∧ (∀ k : Fin 32, y.bins[k].toNat = if k.val = bin then x.bins[k].toNat + 1 else x.bins[k].toNat) ∧
          y.cfga = x.cfga ∧ y.cfgb = x.cfgb ∧ y.cfgc = x.cfgc ∧ y.sat = false))

/-- ERROR_LOG_WRITE moves the oldest event to the ring at its sequence number and signals the PF; SNAPSHOT_FREEZE writes the record of each
unit named and clears those with CLRSNAP; QUARANTINE_PASS takes a Kettle out of service after two failures or 4,096 replays, withdraws a
station after four uncorrectable words, and keeps what it read (R380, R383, R385). -/
def Obligations.LogAndQuarantine : Prop :=
  ∀ s : State,
    (∀ (e : LogEvt) (rest : List LogEvt), s.boot.state ≠ .off → s.mon.queue = e :: rest →
      ∃ t : State, exec .errorLogWrite s = .next t ∧ t.mon.queue = rest ∧ t.mon.next = s.mon.next + 1 ∧
        t.mon.ring.get? (s.mon.next.toNat % 4096) = some (s.mon.next, e) ∧
        (∀ k, k ≠ s.mon.next.toNat % 4096 → t.mon.ring.get? k = s.mon.ring.get? k) ∧ t.power.newEntry = true ∧
        (s.mbx[(0 : Fin 64)].masked 2 = false → t.hostOut = s.hostOut ++ [.msix 0 2])) ∧
    (∀ (q : SnapReq) (rest : List SnapReq), s.Specified → s.ready = true → s.crown.snaps = q :: rest →
      let rc := fun (u : Nat) => (s.mon.units.toList.getD u MonUnit.reset).record s.grade u q.num
      ∃ t : State, exec .snapshotFreeze s = .next t ∧ t.crown.snaps = rest ∧
        t.hostOut = s.hostOut ++ ((bitsSet 64 q.mask.toNat).zipIdx.map fun x => .write q.ref.f (q.addr + 256 * x.2) (rc x.1)) ∧
        (∀ u : Fin 64, bitAt q.mask.toNat u.val = true → t.mon.area.get? u.val = some (rc u.val)) ∧
        (∀ u : Fin 64, t.mon.units[u] = if bitAt q.mask.toNat u.val && s.mon.units[u].clrSnap then s.mon.units[u].clear
          else s.mon.units[u])) ∧
    (s.Specified → s.ready = true → s.boot.recovery = false →
      ∃ t : State, exec .quarantinePass s = .next t ∧ ∀ st : Fin 16,
        (4 ≤ s.stations[st].pantry.uncorr.toNat → bitAt t.crown.withdrawn.toNat st.val = true) ∧
        (s.stations[st].pantry.uncorr.toNat < 4 →
          bitAt t.crown.withdrawn.toNat st.val = bitAt s.crown.withdrawn.toNat st.val) ∧
        ∀ k : Fin 8,
          let e : Fin 12 := ⟨4 + k.val, by omega⟩
          let c := s.stations[st].chk[e]
          t.stations[st].chk[e].last = c.replays ∧ t.stations[st].chk[e].fails = c.fails ∧
          (2 ≤ c.fails.toNat ∨ c.last.toNat + 4096 ≤ c.replays.toNat → bitAt t.crown.quar[st].toNat e.val = true) ∧
          (c.fails.toNat < 2 → c.replays.toNat < c.last.toNat + 4096 →
            bitAt t.crown.quar[st].toNat e.val = bitAt s.crown.quar[st].toNat e.val))

/-- A write of CLR zeroes its counts and no other register (R60, R181, R206, R283, R302, R303); a count that follows a clear reads 1
(R61). -/
def Obligations.CountsCleared : Prop :=
  ∀ s : State, s.Specified → s.linkUp = true →
    (∀ (st : Fin 16) (k : Fin 8), let e : Fin 12 := ⟨4 + k.val, by omega⟩
      ∃ t : State, exec (.chkcntClr st e) s = .next t ∧ t.stations[st].chk[e].replays = 0 ∧ t.stations[st].chk[e].fails = 0 ∧
        ∀ (i : Nat) (q : QEntry) (g : BitVec 16), s.Running st (qKettle k) 0x50 i q → s.stations[st].kettles[k].phase = .rotation →
          s.stations[st].kettles[k].stepHeld s.stations[st].kettles[k].step = true →
          ∃ w : State, exec (.kettleElementStep st k (.replayed g, 0)) t = .next w ∧ w.stations[st].chk[e].replays = 1) ∧
    (∀ (st : Fin 16) (e : Fin 12), ∃ t : State, exec (.chkcntClr st e) s = .next t ∧
      t.stations[st].chk[e] = { s.stations[st].chk[e] with replays := 0, fails := 0, last := 0 } ∧
      (∀ e', e' ≠ e → t.stations[st].chk[e'] = s.stations[st].chk[e'])) ∧
    (∀ st : Fin 16, ∃ t : State, exec (.panEccClr st) s = .next t ∧
      t.stations[st].pantry = { s.stations[st].pantry with corr := 0, uncorr := 0 } ∧
      (∀ st', st' ≠ st → t.stations[st'] = s.stations[st'])) ∧
    (∀ site : Fin 8, bitAt s.grade.sites.toNat site.val = true → ∃ t : State, exec (.memErrcntClr site) s = .next t ∧
      t.mem.stackRegs[site] = { s.mem.stackRegs[site] with detect := 0, recov := 0, poisonCnt := 0 } ∧
      (∀ o, o ≠ site → t.mem.stackRegs[o] = s.mem.stackRegs[o]) ∧ t.mem.poison = s.mem.poison) ∧
    (∀ f : Fin 64, ∃ t : State, exec (.mbxChkcntClr f) s = .next t ∧
      t.mbx[f] = { s.mbx[f] with crcCnt := 0, repCnt := 0, gapCnt := 0 } ∧ (∀ f', f' ≠ f → t.mbx[f'] = s.mbx[f'])) ∧
    (∀ p : Fin 14, s.portPresent p = true →
      (∃ t : State, exec (.fabLinkcntClr p) s = .next t ∧ t.fab.ports[p] = { s.fab.ports[p] with replay := 0, retrain := 0 }) ∧
      (∃ t : State, exec (.fabFrmcntClr p) s = .next t ∧ t.fab.ports[p] = { s.fab.ports[p] with drop := 0, rep := 0, gap := 0 }))

/-! ## The machine as a whole -/

/-- What no command changes or forgets: every command but an access to a unit in no region answers a next state, in which only the parts
of the module that its rules name have changed; the grade, the identity fuses and every blown step stay (R3, R201, R340), and the
queue's rest is left to the step (log entry 1). -/
def Obligations.EveryCommandKeeps : Prop :=
  ∀ (c : Instr) (s : State),
    ((∃ t : State, exec c s = .next t ∧ t.pending = s.pending ∧ t.grade = s.grade ∧ t.fuses.vkhash = s.fuses.vkhash ∧
      t.fuses.idseed = s.fuses.idseed ∧ t.fuses.serial = s.fuses.serial ∧
      (∀ i, bitAt s.fuses.svnA.toNat i = true → bitAt t.fuses.svnA.toNat i = true) ∧
      (∀ i, bitAt s.fuses.svnB.toNat i = true → bitAt t.fuses.svnB.toNat i = true) ∧ (∀ p : Part, p ∉ c.parts → p.same s t)) ∨
     (∃ ma acc, c = .memUnitAccess ma acc ∧ s.place ma = none ∧ exec c s = .fault .noSuchModuleAddress))

/-- The memories keep their one canonical form in every step. -/
def Obligations.MemoriesStayCanonical : Prop :=
  ∀ s t : State, s.Canonical → step s = .next t → t.Canonical

/-- The memories of the reset state are canonical, and read 0 everywhere (R182, R213). -/
def Obligations.ResetIsCanonical : Prop :=
  State.reset.Canonical ∧ (∀ a, State.reset.mem.data.read a = 0) ∧
    (∀ (st : Fin 16) (a : Nat), State.reset.stations[st].pantry.mem.read a = 0) ∧ State.reset.pending = []

/-! ## Arithmetic (03) -/

/-- Every reduction answers x mod q in [0, q) after at most one correction: `barrett` is the procedure of R54, with mu = floor(2^72 / q)
and 2^20 < q < 2^31 (R50). -/
def Obligations.BarrettReduces : Prop :=
  ∀ q x : Nat, 2 ^ 20 < q → q < 2 ^ 31 → x < 2 ^ 72 →
    let t := x * (2 ^ 72 / q) / 2 ^ 72
    let r := x - t * q
    t * q ≤ x ∧ r < 2 * q ∧ barrett q (2 ^ 72 / q) x = (if q ≤ r then r - q else r) ∧
      barrett q (2 ^ 72 / q) x = x % q ∧ barrett q (2 ^ 72 / q) x < q

/-- The inverse transform undoes the forward one, word for word, for every ring degree and every root and degree with inverses modulo q
(R62, R63). -/
def Obligations.InverseUndoesForward : Prop :=
  ∀ (q psi psiInv ninv logn : Nat) (a : List Nat), 1 < q → psi * psiInv % q = 1 → ninv * 2 ^ logn % q = 1 →
    a.length = 2 ^ logn → (∀ x ∈ a, x < q) → nttInv q psiInv ninv logn (nttFwd q psi logn a) = a
end

