-- ==== Sys2Proof/Laws/Tab.lean ====
section
/-! SUPPORT. Laws/Tab.lean: what the operations on sparse tables and on vectors do. An entry is named by a Fin, so simp calls that
use these lemmas and those of Laws/State.lean drop Fin.getElem_fin. -/

namespace Sys2Proof.Machine

variable {α : Type}

/-! ## Sparse tables -/

@[simp] theorem Tab.get?_put_same (t : Tab α) (j : Nat) (x : α) : (t.put j x).get? j = some x := by
  induction t with
  | nil => simp [Tab.put, Tab.get?]
  | cons e t ih => simp only [Tab.put]; split; · simp [Tab.get?]
                   split <;> simp_all [Tab.get?]

theorem Tab.get?_put_ne {t : Tab α} {j k : Nat} (x : α) (h : k ≠ j) : (t.put j x).get? k = t.get? k := by
  induction t with
  | nil => simp [Tab.put, Tab.get?, Ne.symm h]
  | cons e t ih =>
    obtain ⟨i, v⟩ := e
    simp only [Tab.put]
    split
    · next hi => subst hi; simp [Tab.get?, Ne.symm h]
    · split
      · simp [Tab.get?, Ne.symm h]
      · simp [Tab.get?, ih]

theorem Tab.get?_put (t : Tab α) (j k : Nat) (x : α) : (t.put j x).get? k = if k = j then some x else t.get? k := by
  split
  · next h => subst h; exact Tab.get?_put_same t k x
  · next h => exact Tab.get?_put_ne x h

theorem Tab.get?_upd (t : Tab α) (j k : Nat) (f : α → α) :
    (t.upd j f).get? k = if k = j then (t.get? k).map f else t.get? k := by
  induction t with
  | nil => simp [Tab.upd, Tab.get?]
  | cons e t ih =>
    obtain ⟨i, v⟩ := e
    simp only [Tab.upd, List.map_cons] at ih ⊢
    by_cases hi : i = j <;> by_cases hk : i = k <;> simp_all [Tab.get?]

@[simp] theorem Tab.get?_upd_same (t : Tab α) (j : Nat) (f : α → α) : (t.upd j f).get? j = (t.get? j).map f := by
  simp [Tab.get?_upd]

theorem Tab.get?_upd_ne {t : Tab α} {j k : Nat} (f : α → α) (h : k ≠ j) : (t.upd j f).get? k = t.get? k := by
  simp [Tab.get?_upd, h]

theorem Tab.get?_del (t : Tab α) (j k : Nat) : (t.del j).get? k = if k = j then none else t.get? k := by
  induction t with
  | nil => simp [Tab.del, Tab.get?]
  | cons e t ih =>
    obtain ⟨i, v⟩ := e
    simp only [Tab.del, List.filter_cons] at ih ⊢
    by_cases hi : i = j <;> by_cases hk : i = k <;> simp_all [Tab.get?]

theorem Tab.getD_eq (t : Tab α) (j : Nat) (d : α) : t.getD j d = (t.get? j).getD d := rfl

theorem Tab.mem_of_get? {t : Tab α} {j : Nat} {x : α} (h : t.get? j = some x) : (j, x) ∈ t := by
  induction t with
  | nil => simp [Tab.get?] at h
  | cons e t ih =>
    obtain ⟨i, v⟩ := e
    simp only [Tab.get?] at h
    split at h
    · next hi => cases h; subst hi; exact List.mem_cons_self ..
    · exact List.mem_cons_of_mem _ (ih h)

/-- What one value-wise change of every entry does to a lookup. -/
theorem Tab.get?_map (t : Tab α) (f : Nat → α → α) (j : Nat) :
    Tab.get? (t.map fun e => (e.1, f e.1 e.2)) j = (t.get? j).map (f j) := by
  induction t with
  | nil => rfl
  | cons e t ih =>
    obtain ⟨i, v⟩ := e
    simp only [List.map_cons, Tab.get?]
    split
    · next h => subst h; rfl
    · exact ih

/-! ## Vectors -/

variable {n : Nat}

@[simp] theorem vupd_same (v : Vector α n) (i : Fin n) (f : α → α) : (vupd v i f)[i] = f v[i] := by simp [vupd]

theorem vupd_ne {v : Vector α n} {i j : Fin n} (f : α → α) (h : j ≠ i) : (vupd v i f)[j] = v[j] := by
  have : i.val ≠ j.val := fun e => h (Fin.ext e.symm)
  simp [vupd, Vector.getElem_set_ne _ _ this]

theorem vupd_get (v : Vector α n) (i j : Fin n) (f : α → α) : (vupd v i f)[j] = if j = i then f v[j] else v[j] := by
  split
  · next h => subst h; exact vupd_same v j f
  · next h => exact vupd_ne f h

@[simp] theorem vset_same (v : Vector α n) (i : Fin n) (x : α) : (v.set i x)[i] = x := by simp

theorem vset_ne {v : Vector α n} {i j : Fin n} (x : α) (h : j ≠ i) : (v.set i x)[j] = v[j] := by
  have : i.val ≠ j.val := fun e => h (Fin.ext e.symm)
  simp [Vector.getElem_set_ne _ _ this]

theorem vset_get (v : Vector α n) (i j : Fin n) (x : α) : (v.set i x)[j] = if j = i then x else v[j] := by
  split
  · next h => subst h; exact vset_same v j x
  · next h => exact vset_ne x h

/-- Writing back what stands there changes nothing. -/
theorem vupd_id (v : Vector α n) (i : Fin n) {f : α → α} (h : f v[i] = v[i]) : vupd v i f = v := by unfold vupd; rw [h]; simp

/-- Two changes of one place are one. -/
theorem vupd_vupd (v : Vector α n) (i : Fin n) (f g : α → α) : vupd (vupd v i f) i g = vupd v i (fun x => g (f x)) := by
  simp [vupd]

/-- A write over a change of the same place leaves only the write. -/
theorem vset_vset (v : Vector α n) (i : Fin n) (x y : α) : (v.set i x).set i y = v.set i y := by simp

/-- A change after a write is a write. -/
theorem vupd_vset (v : Vector α n) (i : Fin n) (x : α) (f : α → α) : vupd (v.set i x) i f = v.set i (f x) := by simp [vupd]

/-- A place named by a number in range is that place. -/
theorem vupdN_val (v : Vector α n) (i : Fin n) (f : α → α) : vupdN v i.val f = vupd v i f := by simp [vupdN, vupd]

theorem vext {v w : Vector α n} (h : ∀ i : Fin n, v[i] = w[i]) : v = w := Vector.ext fun i hi => h ⟨i, hi⟩

end Sys2Proof.Machine
end

