-- ==== Sys2Proof/Laws/State.lean ====
section
/-! SUPPORT. Laws/State.lean: one lemma for each field that an update of the state leaves alone, and what it makes of the others. -/

namespace Sys2Proof.Machine

/-! ## What each update leaves alone -/

@[simp] theorem State.tick_grade (s : State) : (s.tick).grade = s.grade := rfl
@[simp] theorem State.tick_power (s : State) : (s.tick).power = s.power := rfl
@[simp] theorem State.tick_boot (s : State) : (s.tick).boot = s.boot := rfl
@[simp] theorem State.tick_flash (s : State) : (s.tick).flash = s.flash := rfl
@[simp] theorem State.tick_fuses (s : State) : (s.tick).fuses = s.fuses := rfl
@[simp] theorem State.tick_stations (s : State) : (s.tick).stations = s.stations := rfl
@[simp] theorem State.tick_net (s : State) : (s.tick).net = s.net := rfl
@[simp] theorem State.tick_mem (s : State) : (s.tick).mem = s.mem := rfl
@[simp] theorem State.tick_crown (s : State) : (s.tick).crown = s.crown := rfl
@[simp] theorem State.tick_mbx (s : State) : (s.tick).mbx = s.mbx := rfl
@[simp] theorem State.tick_bars (s : State) : (s.tick).bars = s.bars := rfl
@[simp] theorem State.tick_cfg (s : State) : (s.tick).cfg = s.cfg := rfl
@[simp] theorem State.tick_hostOut (s : State) : (s.tick).hostOut = s.hostOut := rfl
@[simp] theorem State.tick_band (s : State) : (s.tick).band = s.band := rfl
@[simp] theorem State.tick_mortar (s : State) : (s.tick).mortar = s.mortar := rfl
@[simp] theorem State.tick_mon (s : State) : (s.tick).mon = s.mon := rfl
@[simp] theorem State.tick_fab (s : State) : (s.tick).fab = s.fab := rfl
@[simp] theorem State.tick_ioSes (s : State) : (s.tick).ioSes = s.ioSes := rfl
@[simp] theorem State.tick_pending (s : State) : (s.tick).pending = s.pending := rfl

@[simp] theorem State.updStn_grade (s : State) (st : Fin 16) (f : Station → Station) : (s.updStn st f).grade = s.grade := rfl
@[simp] theorem State.updStn_power (s : State) (st : Fin 16) (f : Station → Station) : (s.updStn st f).power = s.power := rfl
@[simp] theorem State.updStn_boot (s : State) (st : Fin 16) (f : Station → Station) : (s.updStn st f).boot = s.boot := rfl
@[simp] theorem State.updStn_flash (s : State) (st : Fin 16) (f : Station → Station) : (s.updStn st f).flash = s.flash := rfl
@[simp] theorem State.updStn_fuses (s : State) (st : Fin 16) (f : Station → Station) : (s.updStn st f).fuses = s.fuses := rfl
@[simp] theorem State.updStn_net (s : State) (st : Fin 16) (f : Station → Station) : (s.updStn st f).net = s.net := rfl
@[simp] theorem State.updStn_mem (s : State) (st : Fin 16) (f : Station → Station) : (s.updStn st f).mem = s.mem := rfl
@[simp] theorem State.updStn_crown (s : State) (st : Fin 16) (f : Station → Station) : (s.updStn st f).crown = s.crown := rfl
@[simp] theorem State.updStn_mbx (s : State) (st : Fin 16) (f : Station → Station) : (s.updStn st f).mbx = s.mbx := rfl
@[simp] theorem State.updStn_bars (s : State) (st : Fin 16) (f : Station → Station) : (s.updStn st f).bars = s.bars := rfl
@[simp] theorem State.updStn_cfg (s : State) (st : Fin 16) (f : Station → Station) : (s.updStn st f).cfg = s.cfg := rfl
@[simp] theorem State.updStn_hostOut (s : State) (st : Fin 16) (f : Station → Station) : (s.updStn st f).hostOut = s.hostOut := rfl
@[simp] theorem State.updStn_band (s : State) (st : Fin 16) (f : Station → Station) : (s.updStn st f).band = s.band := rfl
@[simp] theorem State.updStn_mortar (s : State) (st : Fin 16) (f : Station → Station) : (s.updStn st f).mortar = s.mortar := rfl
@[simp] theorem State.updStn_mon (s : State) (st : Fin 16) (f : Station → Station) : (s.updStn st f).mon = s.mon := rfl
@[simp] theorem State.updStn_fab (s : State) (st : Fin 16) (f : Station → Station) : (s.updStn st f).fab = s.fab := rfl
@[simp] theorem State.updStn_ioSes (s : State) (st : Fin 16) (f : Station → Station) : (s.updStn st f).ioSes = s.ioSes := rfl
@[simp] theorem State.updStn_fresh (s : State) (st : Fin 16) (f : Station → Station) : (s.updStn st f).fresh = s.fresh := rfl
@[simp] theorem State.updStn_pending (s : State) (st : Fin 16) (f : Station → Station) : (s.updStn st f).pending = s.pending := rfl

@[simp] theorem State.putStn_grade (s : State) (st : Fin 16) (t : Station) : (s.putStn st t).grade = s.grade := rfl
@[simp] theorem State.putStn_power (s : State) (st : Fin 16) (t : Station) : (s.putStn st t).power = s.power := rfl
@[simp] theorem State.putStn_boot (s : State) (st : Fin 16) (t : Station) : (s.putStn st t).boot = s.boot := rfl
@[simp] theorem State.putStn_flash (s : State) (st : Fin 16) (t : Station) : (s.putStn st t).flash = s.flash := rfl
@[simp] theorem State.putStn_fuses (s : State) (st : Fin 16) (t : Station) : (s.putStn st t).fuses = s.fuses := rfl
@[simp] theorem State.putStn_net (s : State) (st : Fin 16) (t : Station) : (s.putStn st t).net = s.net := rfl
@[simp] theorem State.putStn_mem (s : State) (st : Fin 16) (t : Station) : (s.putStn st t).mem = s.mem := rfl
@[simp] theorem State.putStn_crown (s : State) (st : Fin 16) (t : Station) : (s.putStn st t).crown = s.crown := rfl
@[simp] theorem State.putStn_mbx (s : State) (st : Fin 16) (t : Station) : (s.putStn st t).mbx = s.mbx := rfl
@[simp] theorem State.putStn_bars (s : State) (st : Fin 16) (t : Station) : (s.putStn st t).bars = s.bars := rfl
@[simp] theorem State.putStn_cfg (s : State) (st : Fin 16) (t : Station) : (s.putStn st t).cfg = s.cfg := rfl
@[simp] theorem State.putStn_hostOut (s : State) (st : Fin 16) (t : Station) : (s.putStn st t).hostOut = s.hostOut := rfl
@[simp] theorem State.putStn_band (s : State) (st : Fin 16) (t : Station) : (s.putStn st t).band = s.band := rfl
@[simp] theorem State.putStn_mortar (s : State) (st : Fin 16) (t : Station) : (s.putStn st t).mortar = s.mortar := rfl
@[simp] theorem State.putStn_mon (s : State) (st : Fin 16) (t : Station) : (s.putStn st t).mon = s.mon := rfl
@[simp] theorem State.putStn_fab (s : State) (st : Fin 16) (t : Station) : (s.putStn st t).fab = s.fab := rfl
@[simp] theorem State.putStn_ioSes (s : State) (st : Fin 16) (t : Station) : (s.putStn st t).ioSes = s.ioSes := rfl
@[simp] theorem State.putStn_fresh (s : State) (st : Fin 16) (t : Station) : (s.putStn st t).fresh = s.fresh := rfl
@[simp] theorem State.putStn_pending (s : State) (st : Fin 16) (t : Station) : (s.putStn st t).pending = s.pending := rfl

@[simp] theorem State.mapStns_grade (s : State) (p : Fin 16 → Bool) (f : Station → Station) : (s.mapStns p f).grade = s.grade := by simp only [State.mapStns]
@[simp] theorem State.mapStns_power (s : State) (p : Fin 16 → Bool) (f : Station → Station) : (s.mapStns p f).power = s.power := by simp only [State.mapStns]
@[simp] theorem State.mapStns_boot (s : State) (p : Fin 16 → Bool) (f : Station → Station) : (s.mapStns p f).boot = s.boot := by simp only [State.mapStns]
@[simp] theorem State.mapStns_flash (s : State) (p : Fin 16 → Bool) (f : Station → Station) : (s.mapStns p f).flash = s.flash := by simp only [State.mapStns]
@[simp] theorem State.mapStns_fuses (s : State) (p : Fin 16 → Bool) (f : Station → Station) : (s.mapStns p f).fuses = s.fuses := by simp only [State.mapStns]
@[simp] theorem State.mapStns_net (s : State) (p : Fin 16 → Bool) (f : Station → Station) : (s.mapStns p f).net = s.net := by simp only [State.mapStns]
@[simp] theorem State.mapStns_mem (s : State) (p : Fin 16 → Bool) (f : Station → Station) : (s.mapStns p f).mem = s.mem := by simp only [State.mapStns]
@[simp] theorem State.mapStns_crown (s : State) (p : Fin 16 → Bool) (f : Station → Station) : (s.mapStns p f).crown = s.crown := by simp only [State.mapStns]
@[simp] theorem State.mapStns_mbx (s : State) (p : Fin 16 → Bool) (f : Station → Station) : (s.mapStns p f).mbx = s.mbx := by simp only [State.mapStns]
@[simp] theorem State.mapStns_bars (s : State) (p : Fin 16 → Bool) (f : Station → Station) : (s.mapStns p f).bars = s.bars := by simp only [State.mapStns]
@[simp] theorem State.mapStns_cfg (s : State) (p : Fin 16 → Bool) (f : Station → Station) : (s.mapStns p f).cfg = s.cfg := by simp only [State.mapStns]
@[simp] theorem State.mapStns_hostOut (s : State) (p : Fin 16 → Bool) (f : Station → Station) : (s.mapStns p f).hostOut = s.hostOut := by simp only [State.mapStns]
@[simp] theorem State.mapStns_band (s : State) (p : Fin 16 → Bool) (f : Station → Station) : (s.mapStns p f).band = s.band := by simp only [State.mapStns]
@[simp] theorem State.mapStns_mortar (s : State) (p : Fin 16 → Bool) (f : Station → Station) : (s.mapStns p f).mortar = s.mortar := by simp only [State.mapStns]
@[simp] theorem State.mapStns_mon (s : State) (p : Fin 16 → Bool) (f : Station → Station) : (s.mapStns p f).mon = s.mon := by simp only [State.mapStns]
@[simp] theorem State.mapStns_fab (s : State) (p : Fin 16 → Bool) (f : Station → Station) : (s.mapStns p f).fab = s.fab := by simp only [State.mapStns]
@[simp] theorem State.mapStns_ioSes (s : State) (p : Fin 16 → Bool) (f : Station → Station) : (s.mapStns p f).ioSes = s.ioSes := by simp only [State.mapStns]
@[simp] theorem State.mapStns_fresh (s : State) (p : Fin 16 → Bool) (f : Station → Station) : (s.mapStns p f).fresh = s.fresh := by simp only [State.mapStns]
@[simp] theorem State.mapStns_pending (s : State) (p : Fin 16 → Bool) (f : Station → Station) : (s.mapStns p f).pending = s.pending := by simp only [State.mapStns]

@[simp] theorem State.updSession_grade (s : State) (i : Nat) (f : Session → Session) : (s.updSession i f).grade = s.grade := rfl
@[simp] theorem State.updSession_power (s : State) (i : Nat) (f : Session → Session) : (s.updSession i f).power = s.power := rfl
@[simp] theorem State.updSession_boot (s : State) (i : Nat) (f : Session → Session) : (s.updSession i f).boot = s.boot := rfl
@[simp] theorem State.updSession_flash (s : State) (i : Nat) (f : Session → Session) : (s.updSession i f).flash = s.flash := rfl
@[simp] theorem State.updSession_fuses (s : State) (i : Nat) (f : Session → Session) : (s.updSession i f).fuses = s.fuses := rfl
@[simp] theorem State.updSession_stations (s : State) (i : Nat) (f : Session → Session) : (s.updSession i f).stations = s.stations := rfl
@[simp] theorem State.updSession_net (s : State) (i : Nat) (f : Session → Session) : (s.updSession i f).net = s.net := rfl
@[simp] theorem State.updSession_mem (s : State) (i : Nat) (f : Session → Session) : (s.updSession i f).mem = s.mem := rfl
@[simp] theorem State.updSession_mbx (s : State) (i : Nat) (f : Session → Session) : (s.updSession i f).mbx = s.mbx := rfl
@[simp] theorem State.updSession_bars (s : State) (i : Nat) (f : Session → Session) : (s.updSession i f).bars = s.bars := rfl
@[simp] theorem State.updSession_cfg (s : State) (i : Nat) (f : Session → Session) : (s.updSession i f).cfg = s.cfg := rfl
@[simp] theorem State.updSession_hostOut (s : State) (i : Nat) (f : Session → Session) : (s.updSession i f).hostOut = s.hostOut := rfl
@[simp] theorem State.updSession_band (s : State) (i : Nat) (f : Session → Session) : (s.updSession i f).band = s.band := rfl
@[simp] theorem State.updSession_mortar (s : State) (i : Nat) (f : Session → Session) : (s.updSession i f).mortar = s.mortar := rfl
@[simp] theorem State.updSession_mon (s : State) (i : Nat) (f : Session → Session) : (s.updSession i f).mon = s.mon := rfl
@[simp] theorem State.updSession_fab (s : State) (i : Nat) (f : Session → Session) : (s.updSession i f).fab = s.fab := rfl
@[simp] theorem State.updSession_ioSes (s : State) (i : Nat) (f : Session → Session) : (s.updSession i f).ioSes = s.ioSes := rfl
@[simp] theorem State.updSession_fresh (s : State) (i : Nat) (f : Session → Session) : (s.updSession i f).fresh = s.fresh := rfl
@[simp] theorem State.updSession_pending (s : State) (i : Nat) (f : Session → Session) : (s.updSession i f).pending = s.pending := rfl

@[simp] theorem State.updJob_grade (s : State) (j : Nat) (f : Job → Job) : (s.updJob j f).grade = s.grade := rfl
@[simp] theorem State.updJob_power (s : State) (j : Nat) (f : Job → Job) : (s.updJob j f).power = s.power := rfl
@[simp] theorem State.updJob_boot (s : State) (j : Nat) (f : Job → Job) : (s.updJob j f).boot = s.boot := rfl
@[simp] theorem State.updJob_flash (s : State) (j : Nat) (f : Job → Job) : (s.updJob j f).flash = s.flash := rfl
@[simp] theorem State.updJob_fuses (s : State) (j : Nat) (f : Job → Job) : (s.updJob j f).fuses = s.fuses := rfl
@[simp] theorem State.updJob_stations (s : State) (j : Nat) (f : Job → Job) : (s.updJob j f).stations = s.stations := rfl
@[simp] theorem State.updJob_net (s : State) (j : Nat) (f : Job → Job) : (s.updJob j f).net = s.net := rfl
@[simp] theorem State.updJob_mem (s : State) (j : Nat) (f : Job → Job) : (s.updJob j f).mem = s.mem := rfl
@[simp] theorem State.updJob_mbx (s : State) (j : Nat) (f : Job → Job) : (s.updJob j f).mbx = s.mbx := rfl
@[simp] theorem State.updJob_bars (s : State) (j : Nat) (f : Job → Job) : (s.updJob j f).bars = s.bars := rfl
@[simp] theorem State.updJob_cfg (s : State) (j : Nat) (f : Job → Job) : (s.updJob j f).cfg = s.cfg := rfl
@[simp] theorem State.updJob_hostOut (s : State) (j : Nat) (f : Job → Job) : (s.updJob j f).hostOut = s.hostOut := rfl
@[simp] theorem State.updJob_band (s : State) (j : Nat) (f : Job → Job) : (s.updJob j f).band = s.band := rfl
@[simp] theorem State.updJob_mortar (s : State) (j : Nat) (f : Job → Job) : (s.updJob j f).mortar = s.mortar := rfl
@[simp] theorem State.updJob_mon (s : State) (j : Nat) (f : Job → Job) : (s.updJob j f).mon = s.mon := rfl
@[simp] theorem State.updJob_fab (s : State) (j : Nat) (f : Job → Job) : (s.updJob j f).fab = s.fab := rfl
@[simp] theorem State.updJob_ioSes (s : State) (j : Nat) (f : Job → Job) : (s.updJob j f).ioSes = s.ioSes := rfl
@[simp] theorem State.updJob_fresh (s : State) (j : Nat) (f : Job → Job) : (s.updJob j f).fresh = s.fresh := rfl
@[simp] theorem State.updJob_pending (s : State) (j : Nat) (f : Job → Job) : (s.updJob j f).pending = s.pending := rfl

@[simp] theorem State.unmark_grade (s : State) (keys : List Nat) : (s.unmark keys).grade = s.grade := rfl
@[simp] theorem State.unmark_power (s : State) (keys : List Nat) : (s.unmark keys).power = s.power := rfl
@[simp] theorem State.unmark_boot (s : State) (keys : List Nat) : (s.unmark keys).boot = s.boot := rfl
@[simp] theorem State.unmark_flash (s : State) (keys : List Nat) : (s.unmark keys).flash = s.flash := rfl
@[simp] theorem State.unmark_fuses (s : State) (keys : List Nat) : (s.unmark keys).fuses = s.fuses := rfl
@[simp] theorem State.unmark_stations (s : State) (keys : List Nat) : (s.unmark keys).stations = s.stations := rfl
@[simp] theorem State.unmark_net (s : State) (keys : List Nat) : (s.unmark keys).net = s.net := rfl
@[simp] theorem State.unmark_mem (s : State) (keys : List Nat) : (s.unmark keys).mem = s.mem := rfl
@[simp] theorem State.unmark_crown (s : State) (keys : List Nat) : (s.unmark keys).crown = s.crown := rfl
@[simp] theorem State.unmark_mbx (s : State) (keys : List Nat) : (s.unmark keys).mbx = s.mbx := rfl
@[simp] theorem State.unmark_bars (s : State) (keys : List Nat) : (s.unmark keys).bars = s.bars := rfl
@[simp] theorem State.unmark_cfg (s : State) (keys : List Nat) : (s.unmark keys).cfg = s.cfg := rfl
@[simp] theorem State.unmark_hostOut (s : State) (keys : List Nat) : (s.unmark keys).hostOut = s.hostOut := rfl
@[simp] theorem State.unmark_band (s : State) (keys : List Nat) : (s.unmark keys).band = s.band := rfl
@[simp] theorem State.unmark_mortar (s : State) (keys : List Nat) : (s.unmark keys).mortar = s.mortar := rfl
@[simp] theorem State.unmark_fab (s : State) (keys : List Nat) : (s.unmark keys).fab = s.fab := rfl
@[simp] theorem State.unmark_ioSes (s : State) (keys : List Nat) : (s.unmark keys).ioSes = s.ioSes := rfl
@[simp] theorem State.unmark_fresh (s : State) (keys : List Nat) : (s.unmark keys).fresh = s.fresh := rfl
@[simp] theorem State.unmark_pending (s : State) (keys : List Nat) : (s.unmark keys).pending = s.pending := rfl

@[simp] theorem State.countInternal_grade (s : State) (st : Fin 16) (unit : Nat) : (s.countInternal st unit).grade = s.grade := rfl
@[simp] theorem State.countInternal_power (s : State) (st : Fin 16) (unit : Nat) : (s.countInternal st unit).power = s.power := rfl
@[simp] theorem State.countInternal_boot (s : State) (st : Fin 16) (unit : Nat) : (s.countInternal st unit).boot = s.boot := rfl
@[simp] theorem State.countInternal_flash (s : State) (st : Fin 16) (unit : Nat) : (s.countInternal st unit).flash = s.flash := rfl
@[simp] theorem State.countInternal_fuses (s : State) (st : Fin 16) (unit : Nat) : (s.countInternal st unit).fuses = s.fuses := rfl
@[simp] theorem State.countInternal_net (s : State) (st : Fin 16) (unit : Nat) : (s.countInternal st unit).net = s.net := rfl
@[simp] theorem State.countInternal_mem (s : State) (st : Fin 16) (unit : Nat) : (s.countInternal st unit).mem = s.mem := rfl
@[simp] theorem State.countInternal_crown (s : State) (st : Fin 16) (unit : Nat) : (s.countInternal st unit).crown = s.crown := rfl
@[simp] theorem State.countInternal_mbx (s : State) (st : Fin 16) (unit : Nat) : (s.countInternal st unit).mbx = s.mbx := rfl
@[simp] theorem State.countInternal_bars (s : State) (st : Fin 16) (unit : Nat) : (s.countInternal st unit).bars = s.bars := rfl
@[simp] theorem State.countInternal_cfg (s : State) (st : Fin 16) (unit : Nat) : (s.countInternal st unit).cfg = s.cfg := rfl
@[simp] theorem State.countInternal_hostOut (s : State) (st : Fin 16) (unit : Nat) : (s.countInternal st unit).hostOut = s.hostOut := rfl
@[simp] theorem State.countInternal_band (s : State) (st : Fin 16) (unit : Nat) : (s.countInternal st unit).band = s.band := rfl
@[simp] theorem State.countInternal_mortar (s : State) (st : Fin 16) (unit : Nat) : (s.countInternal st unit).mortar = s.mortar := rfl
@[simp] theorem State.countInternal_mon (s : State) (st : Fin 16) (unit : Nat) : (s.countInternal st unit).mon = s.mon := rfl
@[simp] theorem State.countInternal_fab (s : State) (st : Fin 16) (unit : Nat) : (s.countInternal st unit).fab = s.fab := rfl
@[simp] theorem State.countInternal_ioSes (s : State) (st : Fin 16) (unit : Nat) : (s.countInternal st unit).ioSes = s.ioSes := rfl
@[simp] theorem State.countInternal_fresh (s : State) (st : Fin 16) (unit : Nat) : (s.countInternal st unit).fresh = s.fresh := rfl
@[simp] theorem State.countInternal_pending (s : State) (st : Fin 16) (unit : Nat) : (s.countInternal st unit).pending = s.pending := rfl

@[simp] theorem State.updChk_grade (s : State) (st : Fin 16) (e : Fin 12) (f : ChkCnt → ChkCnt) : (s.updChk st e f).grade = s.grade := rfl
@[simp] theorem State.updChk_power (s : State) (st : Fin 16) (e : Fin 12) (f : ChkCnt → ChkCnt) : (s.updChk st e f).power = s.power := rfl
@[simp] theorem State.updChk_boot (s : State) (st : Fin 16) (e : Fin 12) (f : ChkCnt → ChkCnt) : (s.updChk st e f).boot = s.boot := rfl
@[simp] theorem State.updChk_flash (s : State) (st : Fin 16) (e : Fin 12) (f : ChkCnt → ChkCnt) : (s.updChk st e f).flash = s.flash := rfl
@[simp] theorem State.updChk_fuses (s : State) (st : Fin 16) (e : Fin 12) (f : ChkCnt → ChkCnt) : (s.updChk st e f).fuses = s.fuses := rfl
@[simp] theorem State.updChk_net (s : State) (st : Fin 16) (e : Fin 12) (f : ChkCnt → ChkCnt) : (s.updChk st e f).net = s.net := rfl
@[simp] theorem State.updChk_mem (s : State) (st : Fin 16) (e : Fin 12) (f : ChkCnt → ChkCnt) : (s.updChk st e f).mem = s.mem := rfl
@[simp] theorem State.updChk_crown (s : State) (st : Fin 16) (e : Fin 12) (f : ChkCnt → ChkCnt) : (s.updChk st e f).crown = s.crown := rfl
@[simp] theorem State.updChk_mbx (s : State) (st : Fin 16) (e : Fin 12) (f : ChkCnt → ChkCnt) : (s.updChk st e f).mbx = s.mbx := rfl
@[simp] theorem State.updChk_bars (s : State) (st : Fin 16) (e : Fin 12) (f : ChkCnt → ChkCnt) : (s.updChk st e f).bars = s.bars := rfl
@[simp] theorem State.updChk_cfg (s : State) (st : Fin 16) (e : Fin 12) (f : ChkCnt → ChkCnt) : (s.updChk st e f).cfg = s.cfg := rfl
@[simp] theorem State.updChk_hostOut (s : State) (st : Fin 16) (e : Fin 12) (f : ChkCnt → ChkCnt) : (s.updChk st e f).hostOut = s.hostOut := rfl
@[simp] theorem State.updChk_band (s : State) (st : Fin 16) (e : Fin 12) (f : ChkCnt → ChkCnt) : (s.updChk st e f).band = s.band := rfl
@[simp] theorem State.updChk_mortar (s : State) (st : Fin 16) (e : Fin 12) (f : ChkCnt → ChkCnt) : (s.updChk st e f).mortar = s.mortar := rfl
@[simp] theorem State.updChk_mon (s : State) (st : Fin 16) (e : Fin 12) (f : ChkCnt → ChkCnt) : (s.updChk st e f).mon = s.mon := rfl
@[simp] theorem State.updChk_fab (s : State) (st : Fin 16) (e : Fin 12) (f : ChkCnt → ChkCnt) : (s.updChk st e f).fab = s.fab := rfl
@[simp] theorem State.updChk_ioSes (s : State) (st : Fin 16) (e : Fin 12) (f : ChkCnt → ChkCnt) : (s.updChk st e f).ioSes = s.ioSes := rfl
@[simp] theorem State.updChk_fresh (s : State) (st : Fin 16) (e : Fin 12) (f : ChkCnt → ChkCnt) : (s.updChk st e f).fresh = s.fresh := rfl
@[simp] theorem State.updChk_pending (s : State) (st : Fin 16) (e : Fin 12) (f : ChkCnt → ChkCnt) : (s.updChk st e f).pending = s.pending := rfl

@[simp] theorem State.updMbx_grade (s : State) (f : Fin 64) (g : Mbx → Mbx) : (s.updMbx f g).grade = s.grade := rfl
@[simp] theorem State.updMbx_power (s : State) (f : Fin 64) (g : Mbx → Mbx) : (s.updMbx f g).power = s.power := rfl
@[simp] theorem State.updMbx_boot (s : State) (f : Fin 64) (g : Mbx → Mbx) : (s.updMbx f g).boot = s.boot := rfl
@[simp] theorem State.updMbx_flash (s : State) (f : Fin 64) (g : Mbx → Mbx) : (s.updMbx f g).flash = s.flash := rfl
@[simp] theorem State.updMbx_fuses (s : State) (f : Fin 64) (g : Mbx → Mbx) : (s.updMbx f g).fuses = s.fuses := rfl
@[simp] theorem State.updMbx_stations (s : State) (f : Fin 64) (g : Mbx → Mbx) : (s.updMbx f g).stations = s.stations := rfl
@[simp] theorem State.updMbx_net (s : State) (f : Fin 64) (g : Mbx → Mbx) : (s.updMbx f g).net = s.net := rfl
@[simp] theorem State.updMbx_mem (s : State) (f : Fin 64) (g : Mbx → Mbx) : (s.updMbx f g).mem = s.mem := rfl
@[simp] theorem State.updMbx_crown (s : State) (f : Fin 64) (g : Mbx → Mbx) : (s.updMbx f g).crown = s.crown := rfl
@[simp] theorem State.updMbx_bars (s : State) (f : Fin 64) (g : Mbx → Mbx) : (s.updMbx f g).bars = s.bars := rfl
@[simp] theorem State.updMbx_cfg (s : State) (f : Fin 64) (g : Mbx → Mbx) : (s.updMbx f g).cfg = s.cfg := rfl
@[simp] theorem State.updMbx_hostOut (s : State) (f : Fin 64) (g : Mbx → Mbx) : (s.updMbx f g).hostOut = s.hostOut := rfl
@[simp] theorem State.updMbx_band (s : State) (f : Fin 64) (g : Mbx → Mbx) : (s.updMbx f g).band = s.band := rfl
@[simp] theorem State.updMbx_mortar (s : State) (f : Fin 64) (g : Mbx → Mbx) : (s.updMbx f g).mortar = s.mortar := rfl
@[simp] theorem State.updMbx_mon (s : State) (f : Fin 64) (g : Mbx → Mbx) : (s.updMbx f g).mon = s.mon := rfl
@[simp] theorem State.updMbx_fab (s : State) (f : Fin 64) (g : Mbx → Mbx) : (s.updMbx f g).fab = s.fab := rfl
@[simp] theorem State.updMbx_ioSes (s : State) (f : Fin 64) (g : Mbx → Mbx) : (s.updMbx f g).ioSes = s.ioSes := rfl
@[simp] theorem State.updMbx_fresh (s : State) (f : Fin 64) (g : Mbx → Mbx) : (s.updMbx f g).fresh = s.fresh := rfl
@[simp] theorem State.updMbx_pending (s : State) (f : Fin 64) (g : Mbx → Mbx) : (s.updMbx f g).pending = s.pending := rfl

@[simp] theorem State.popReq_grade (s : State) (f : Fin 64) : (s.popReq f).grade = s.grade := rfl
@[simp] theorem State.popReq_power (s : State) (f : Fin 64) : (s.popReq f).power = s.power := rfl
@[simp] theorem State.popReq_boot (s : State) (f : Fin 64) : (s.popReq f).boot = s.boot := rfl
@[simp] theorem State.popReq_flash (s : State) (f : Fin 64) : (s.popReq f).flash = s.flash := rfl
@[simp] theorem State.popReq_fuses (s : State) (f : Fin 64) : (s.popReq f).fuses = s.fuses := rfl
@[simp] theorem State.popReq_stations (s : State) (f : Fin 64) : (s.popReq f).stations = s.stations := rfl
@[simp] theorem State.popReq_net (s : State) (f : Fin 64) : (s.popReq f).net = s.net := rfl
@[simp] theorem State.popReq_mem (s : State) (f : Fin 64) : (s.popReq f).mem = s.mem := rfl
@[simp] theorem State.popReq_bars (s : State) (f : Fin 64) : (s.popReq f).bars = s.bars := rfl
@[simp] theorem State.popReq_cfg (s : State) (f : Fin 64) : (s.popReq f).cfg = s.cfg := rfl
@[simp] theorem State.popReq_hostOut (s : State) (f : Fin 64) : (s.popReq f).hostOut = s.hostOut := rfl
@[simp] theorem State.popReq_band (s : State) (f : Fin 64) : (s.popReq f).band = s.band := rfl
@[simp] theorem State.popReq_mortar (s : State) (f : Fin 64) : (s.popReq f).mortar = s.mortar := rfl
@[simp] theorem State.popReq_mon (s : State) (f : Fin 64) : (s.popReq f).mon = s.mon := rfl
@[simp] theorem State.popReq_fab (s : State) (f : Fin 64) : (s.popReq f).fab = s.fab := rfl
@[simp] theorem State.popReq_ioSes (s : State) (f : Fin 64) : (s.popReq f).ioSes = s.ioSes := rfl
@[simp] theorem State.popReq_fresh (s : State) (f : Fin 64) : (s.popReq f).fresh = s.fresh := rfl
@[simp] theorem State.popReq_pending (s : State) (f : Fin 64) : (s.popReq f).pending = s.pending := rfl

@[simp] theorem State.toHost_grade (s : State) (t : HostTlp) : (s.toHost t).grade = s.grade := rfl
@[simp] theorem State.toHost_power (s : State) (t : HostTlp) : (s.toHost t).power = s.power := rfl
@[simp] theorem State.toHost_boot (s : State) (t : HostTlp) : (s.toHost t).boot = s.boot := rfl
@[simp] theorem State.toHost_flash (s : State) (t : HostTlp) : (s.toHost t).flash = s.flash := rfl
@[simp] theorem State.toHost_fuses (s : State) (t : HostTlp) : (s.toHost t).fuses = s.fuses := rfl
@[simp] theorem State.toHost_stations (s : State) (t : HostTlp) : (s.toHost t).stations = s.stations := rfl
@[simp] theorem State.toHost_net (s : State) (t : HostTlp) : (s.toHost t).net = s.net := rfl
@[simp] theorem State.toHost_mem (s : State) (t : HostTlp) : (s.toHost t).mem = s.mem := rfl
@[simp] theorem State.toHost_crown (s : State) (t : HostTlp) : (s.toHost t).crown = s.crown := rfl
@[simp] theorem State.toHost_mbx (s : State) (t : HostTlp) : (s.toHost t).mbx = s.mbx := rfl
@[simp] theorem State.toHost_bars (s : State) (t : HostTlp) : (s.toHost t).bars = s.bars := rfl
@[simp] theorem State.toHost_cfg (s : State) (t : HostTlp) : (s.toHost t).cfg = s.cfg := rfl
@[simp] theorem State.toHost_band (s : State) (t : HostTlp) : (s.toHost t).band = s.band := rfl
@[simp] theorem State.toHost_mortar (s : State) (t : HostTlp) : (s.toHost t).mortar = s.mortar := rfl
@[simp] theorem State.toHost_mon (s : State) (t : HostTlp) : (s.toHost t).mon = s.mon := rfl
@[simp] theorem State.toHost_fab (s : State) (t : HostTlp) : (s.toHost t).fab = s.fab := rfl
@[simp] theorem State.toHost_ioSes (s : State) (t : HostTlp) : (s.toHost t).ioSes = s.ioSes := rfl
@[simp] theorem State.toHost_fresh (s : State) (t : HostTlp) : (s.toHost t).fresh = s.fresh := rfl
@[simp] theorem State.toHost_pending (s : State) (t : HostTlp) : (s.toHost t).pending = s.pending := rfl

@[simp] theorem State.retireAll_grade (s : State) (ses : Nat) : (s.retireAll ses).grade = s.grade := rfl
@[simp] theorem State.retireAll_power (s : State) (ses : Nat) : (s.retireAll ses).power = s.power := rfl
@[simp] theorem State.retireAll_boot (s : State) (ses : Nat) : (s.retireAll ses).boot = s.boot := rfl
@[simp] theorem State.retireAll_flash (s : State) (ses : Nat) : (s.retireAll ses).flash = s.flash := rfl
@[simp] theorem State.retireAll_fuses (s : State) (ses : Nat) : (s.retireAll ses).fuses = s.fuses := rfl
@[simp] theorem State.retireAll_stations (s : State) (ses : Nat) : (s.retireAll ses).stations = s.stations := rfl
@[simp] theorem State.retireAll_net (s : State) (ses : Nat) : (s.retireAll ses).net = s.net := rfl
@[simp] theorem State.retireAll_mem (s : State) (ses : Nat) : (s.retireAll ses).mem = s.mem := rfl
@[simp] theorem State.retireAll_mbx (s : State) (ses : Nat) : (s.retireAll ses).mbx = s.mbx := rfl
@[simp] theorem State.retireAll_bars (s : State) (ses : Nat) : (s.retireAll ses).bars = s.bars := rfl
@[simp] theorem State.retireAll_cfg (s : State) (ses : Nat) : (s.retireAll ses).cfg = s.cfg := rfl
@[simp] theorem State.retireAll_hostOut (s : State) (ses : Nat) : (s.retireAll ses).hostOut = s.hostOut := rfl
@[simp] theorem State.retireAll_band (s : State) (ses : Nat) : (s.retireAll ses).band = s.band := rfl
@[simp] theorem State.retireAll_mortar (s : State) (ses : Nat) : (s.retireAll ses).mortar = s.mortar := rfl
@[simp] theorem State.retireAll_mon (s : State) (ses : Nat) : (s.retireAll ses).mon = s.mon := rfl
@[simp] theorem State.retireAll_fab (s : State) (ses : Nat) : (s.retireAll ses).fab = s.fab := rfl
@[simp] theorem State.retireAll_ioSes (s : State) (ses : Nat) : (s.retireAll ses).ioSes = s.ioSes := rfl
@[simp] theorem State.retireAll_fresh (s : State) (ses : Nat) : (s.retireAll ses).fresh = s.fresh := rfl
@[simp] theorem State.retireAll_pending (s : State) (ses : Nat) : (s.retireAll ses).pending = s.pending := rfl

@[simp] theorem State.setKs_grade (s : State) (tag : Nat) (st : KsState) : (s.setKs tag st).grade = s.grade := rfl
@[simp] theorem State.setKs_power (s : State) (tag : Nat) (st : KsState) : (s.setKs tag st).power = s.power := rfl
@[simp] theorem State.setKs_boot (s : State) (tag : Nat) (st : KsState) : (s.setKs tag st).boot = s.boot := rfl
@[simp] theorem State.setKs_flash (s : State) (tag : Nat) (st : KsState) : (s.setKs tag st).flash = s.flash := rfl
@[simp] theorem State.setKs_fuses (s : State) (tag : Nat) (st : KsState) : (s.setKs tag st).fuses = s.fuses := rfl
@[simp] theorem State.setKs_stations (s : State) (tag : Nat) (st : KsState) : (s.setKs tag st).stations = s.stations := rfl
@[simp] theorem State.setKs_net (s : State) (tag : Nat) (st : KsState) : (s.setKs tag st).net = s.net := rfl
@[simp] theorem State.setKs_mem (s : State) (tag : Nat) (st : KsState) : (s.setKs tag st).mem = s.mem := rfl
@[simp] theorem State.setKs_mbx (s : State) (tag : Nat) (st : KsState) : (s.setKs tag st).mbx = s.mbx := rfl
@[simp] theorem State.setKs_bars (s : State) (tag : Nat) (st : KsState) : (s.setKs tag st).bars = s.bars := rfl
@[simp] theorem State.setKs_cfg (s : State) (tag : Nat) (st : KsState) : (s.setKs tag st).cfg = s.cfg := rfl
@[simp] theorem State.setKs_hostOut (s : State) (tag : Nat) (st : KsState) : (s.setKs tag st).hostOut = s.hostOut := rfl
@[simp] theorem State.setKs_band (s : State) (tag : Nat) (st : KsState) : (s.setKs tag st).band = s.band := rfl
@[simp] theorem State.setKs_mortar (s : State) (tag : Nat) (st : KsState) : (s.setKs tag st).mortar = s.mortar := rfl
@[simp] theorem State.setKs_mon (s : State) (tag : Nat) (st : KsState) : (s.setKs tag st).mon = s.mon := rfl
@[simp] theorem State.setKs_fab (s : State) (tag : Nat) (st : KsState) : (s.setKs tag st).fab = s.fab := rfl
@[simp] theorem State.setKs_ioSes (s : State) (tag : Nat) (st : KsState) : (s.setKs tag st).ioSes = s.ioSes := rfl
@[simp] theorem State.setKs_fresh (s : State) (tag : Nat) (st : KsState) : (s.setKs tag st).fresh = s.fresh := rfl
@[simp] theorem State.setKs_pending (s : State) (tag : Nat) (st : KsState) : (s.setKs tag st).pending = s.pending := rfl

@[simp] theorem State.updBuf_grade (s : State) (id : Nat) (f : Buffer → Buffer) : (s.updBuf id f).grade = s.grade := rfl
@[simp] theorem State.updBuf_power (s : State) (id : Nat) (f : Buffer → Buffer) : (s.updBuf id f).power = s.power := rfl
@[simp] theorem State.updBuf_boot (s : State) (id : Nat) (f : Buffer → Buffer) : (s.updBuf id f).boot = s.boot := rfl
@[simp] theorem State.updBuf_flash (s : State) (id : Nat) (f : Buffer → Buffer) : (s.updBuf id f).flash = s.flash := rfl
@[simp] theorem State.updBuf_fuses (s : State) (id : Nat) (f : Buffer → Buffer) : (s.updBuf id f).fuses = s.fuses := rfl
@[simp] theorem State.updBuf_stations (s : State) (id : Nat) (f : Buffer → Buffer) : (s.updBuf id f).stations = s.stations := rfl
@[simp] theorem State.updBuf_net (s : State) (id : Nat) (f : Buffer → Buffer) : (s.updBuf id f).net = s.net := rfl
@[simp] theorem State.updBuf_mem (s : State) (id : Nat) (f : Buffer → Buffer) : (s.updBuf id f).mem = s.mem := rfl
@[simp] theorem State.updBuf_mbx (s : State) (id : Nat) (f : Buffer → Buffer) : (s.updBuf id f).mbx = s.mbx := rfl
@[simp] theorem State.updBuf_bars (s : State) (id : Nat) (f : Buffer → Buffer) : (s.updBuf id f).bars = s.bars := rfl
@[simp] theorem State.updBuf_cfg (s : State) (id : Nat) (f : Buffer → Buffer) : (s.updBuf id f).cfg = s.cfg := rfl
@[simp] theorem State.updBuf_hostOut (s : State) (id : Nat) (f : Buffer → Buffer) : (s.updBuf id f).hostOut = s.hostOut := rfl
@[simp] theorem State.updBuf_band (s : State) (id : Nat) (f : Buffer → Buffer) : (s.updBuf id f).band = s.band := rfl
@[simp] theorem State.updBuf_mortar (s : State) (id : Nat) (f : Buffer → Buffer) : (s.updBuf id f).mortar = s.mortar := rfl
@[simp] theorem State.updBuf_mon (s : State) (id : Nat) (f : Buffer → Buffer) : (s.updBuf id f).mon = s.mon := rfl
@[simp] theorem State.updBuf_fab (s : State) (id : Nat) (f : Buffer → Buffer) : (s.updBuf id f).fab = s.fab := rfl
@[simp] theorem State.updBuf_ioSes (s : State) (id : Nat) (f : Buffer → Buffer) : (s.updBuf id f).ioSes = s.ioSes := rfl
@[simp] theorem State.updBuf_fresh (s : State) (id : Nat) (f : Buffer → Buffer) : (s.updBuf id f).fresh = s.fresh := rfl
@[simp] theorem State.updBuf_pending (s : State) (id : Nat) (f : Buffer → Buffer) : (s.updBuf id f).pending = s.pending := rfl

@[simp] theorem State.updStack_grade (s : State) (site : Nat) (f : Stack → Stack) : (s.updStack site f).grade = s.grade := rfl
@[simp] theorem State.updStack_power (s : State) (site : Nat) (f : Stack → Stack) : (s.updStack site f).power = s.power := rfl
@[simp] theorem State.updStack_boot (s : State) (site : Nat) (f : Stack → Stack) : (s.updStack site f).boot = s.boot := rfl
@[simp] theorem State.updStack_flash (s : State) (site : Nat) (f : Stack → Stack) : (s.updStack site f).flash = s.flash := rfl
@[simp] theorem State.updStack_fuses (s : State) (site : Nat) (f : Stack → Stack) : (s.updStack site f).fuses = s.fuses := rfl
@[simp] theorem State.updStack_stations (s : State) (site : Nat) (f : Stack → Stack) : (s.updStack site f).stations = s.stations := rfl
@[simp] theorem State.updStack_net (s : State) (site : Nat) (f : Stack → Stack) : (s.updStack site f).net = s.net := rfl
@[simp] theorem State.updStack_crown (s : State) (site : Nat) (f : Stack → Stack) : (s.updStack site f).crown = s.crown := rfl
@[simp] theorem State.updStack_mbx (s : State) (site : Nat) (f : Stack → Stack) : (s.updStack site f).mbx = s.mbx := rfl
@[simp] theorem State.updStack_bars (s : State) (site : Nat) (f : Stack → Stack) : (s.updStack site f).bars = s.bars := rfl
@[simp] theorem State.updStack_cfg (s : State) (site : Nat) (f : Stack → Stack) : (s.updStack site f).cfg = s.cfg := rfl
@[simp] theorem State.updStack_hostOut (s : State) (site : Nat) (f : Stack → Stack) : (s.updStack site f).hostOut = s.hostOut := rfl
@[simp] theorem State.updStack_band (s : State) (site : Nat) (f : Stack → Stack) : (s.updStack site f).band = s.band := rfl
@[simp] theorem State.updStack_mortar (s : State) (site : Nat) (f : Stack → Stack) : (s.updStack site f).mortar = s.mortar := rfl
@[simp] theorem State.updStack_mon (s : State) (site : Nat) (f : Stack → Stack) : (s.updStack site f).mon = s.mon := rfl
@[simp] theorem State.updStack_fab (s : State) (site : Nat) (f : Stack → Stack) : (s.updStack site f).fab = s.fab := rfl
@[simp] theorem State.updStack_ioSes (s : State) (site : Nat) (f : Stack → Stack) : (s.updStack site f).ioSes = s.ioSes := rfl
@[simp] theorem State.updStack_fresh (s : State) (site : Nat) (f : Stack → Stack) : (s.updStack site f).fresh = s.fresh := rfl
@[simp] theorem State.updStack_pending (s : State) (site : Nat) (f : Stack → Stack) : (s.updStack site f).pending = s.pending := rfl

@[simp] theorem State.memZero_grade (s : State) (ma len : Nat) : (s.memZero ma len).grade = s.grade := rfl
@[simp] theorem State.memZero_power (s : State) (ma len : Nat) : (s.memZero ma len).power = s.power := rfl
@[simp] theorem State.memZero_boot (s : State) (ma len : Nat) : (s.memZero ma len).boot = s.boot := rfl
@[simp] theorem State.memZero_flash (s : State) (ma len : Nat) : (s.memZero ma len).flash = s.flash := rfl
@[simp] theorem State.memZero_fuses (s : State) (ma len : Nat) : (s.memZero ma len).fuses = s.fuses := rfl
@[simp] theorem State.memZero_stations (s : State) (ma len : Nat) : (s.memZero ma len).stations = s.stations := rfl
@[simp] theorem State.memZero_net (s : State) (ma len : Nat) : (s.memZero ma len).net = s.net := rfl
@[simp] theorem State.memZero_crown (s : State) (ma len : Nat) : (s.memZero ma len).crown = s.crown := rfl
@[simp] theorem State.memZero_mbx (s : State) (ma len : Nat) : (s.memZero ma len).mbx = s.mbx := rfl
@[simp] theorem State.memZero_bars (s : State) (ma len : Nat) : (s.memZero ma len).bars = s.bars := rfl
@[simp] theorem State.memZero_cfg (s : State) (ma len : Nat) : (s.memZero ma len).cfg = s.cfg := rfl
@[simp] theorem State.memZero_hostOut (s : State) (ma len : Nat) : (s.memZero ma len).hostOut = s.hostOut := rfl
@[simp] theorem State.memZero_band (s : State) (ma len : Nat) : (s.memZero ma len).band = s.band := rfl
@[simp] theorem State.memZero_mortar (s : State) (ma len : Nat) : (s.memZero ma len).mortar = s.mortar := rfl
@[simp] theorem State.memZero_mon (s : State) (ma len : Nat) : (s.memZero ma len).mon = s.mon := rfl
@[simp] theorem State.memZero_fab (s : State) (ma len : Nat) : (s.memZero ma len).fab = s.fab := rfl
@[simp] theorem State.memZero_ioSes (s : State) (ma len : Nat) : (s.memZero ma len).ioSes = s.ioSes := rfl
@[simp] theorem State.memZero_fresh (s : State) (ma len : Nat) : (s.memZero ma len).fresh = s.fresh := rfl
@[simp] theorem State.memZero_pending (s : State) (ma len : Nat) : (s.memZero ma len).pending = s.pending := rfl

@[simp] theorem State.invalidate_grade (s : State) (first n : Nat) : (s.invalidate first n).grade = s.grade := by simp only [State.invalidate, State.mapStns]
@[simp] theorem State.invalidate_power (s : State) (first n : Nat) : (s.invalidate first n).power = s.power := by simp only [State.invalidate, State.mapStns]
@[simp] theorem State.invalidate_boot (s : State) (first n : Nat) : (s.invalidate first n).boot = s.boot := by simp only [State.invalidate, State.mapStns]
@[simp] theorem State.invalidate_flash (s : State) (first n : Nat) : (s.invalidate first n).flash = s.flash := by simp only [State.invalidate, State.mapStns]
@[simp] theorem State.invalidate_fuses (s : State) (first n : Nat) : (s.invalidate first n).fuses = s.fuses := by simp only [State.invalidate, State.mapStns]
@[simp] theorem State.invalidate_net (s : State) (first n : Nat) : (s.invalidate first n).net = s.net := by simp only [State.invalidate, State.mapStns]
@[simp] theorem State.invalidate_mem (s : State) (first n : Nat) : (s.invalidate first n).mem = s.mem := by simp only [State.invalidate, State.mapStns]
@[simp] theorem State.invalidate_crown (s : State) (first n : Nat) : (s.invalidate first n).crown = s.crown := by simp only [State.invalidate, State.mapStns]
@[simp] theorem State.invalidate_mbx (s : State) (first n : Nat) : (s.invalidate first n).mbx = s.mbx := by simp only [State.invalidate, State.mapStns]
@[simp] theorem State.invalidate_bars (s : State) (first n : Nat) : (s.invalidate first n).bars = s.bars := by simp only [State.invalidate, State.mapStns]
@[simp] theorem State.invalidate_cfg (s : State) (first n : Nat) : (s.invalidate first n).cfg = s.cfg := by simp only [State.invalidate, State.mapStns]
@[simp] theorem State.invalidate_hostOut (s : State) (first n : Nat) : (s.invalidate first n).hostOut = s.hostOut := by simp only [State.invalidate, State.mapStns]
@[simp] theorem State.invalidate_band (s : State) (first n : Nat) : (s.invalidate first n).band = s.band := by simp only [State.invalidate, State.mapStns]
@[simp] theorem State.invalidate_mortar (s : State) (first n : Nat) : (s.invalidate first n).mortar = s.mortar := by simp only [State.invalidate, State.mapStns]
@[simp] theorem State.invalidate_mon (s : State) (first n : Nat) : (s.invalidate first n).mon = s.mon := by simp only [State.invalidate, State.mapStns]
@[simp] theorem State.invalidate_fab (s : State) (first n : Nat) : (s.invalidate first n).fab = s.fab := by simp only [State.invalidate, State.mapStns]
@[simp] theorem State.invalidate_ioSes (s : State) (first n : Nat) : (s.invalidate first n).ioSes = s.ioSes := by simp only [State.invalidate, State.mapStns]
@[simp] theorem State.invalidate_fresh (s : State) (first n : Nat) : (s.invalidate first n).fresh = s.fresh := by simp only [State.invalidate, State.mapStns]
@[simp] theorem State.invalidate_pending (s : State) (first n : Nat) : (s.invalidate first n).pending = s.pending := by simp only [State.invalidate, State.mapStns]

@[simp] theorem State.updMortar_grade (s : State) (f : Mortar → Mortar) : (s.updMortar f).grade = s.grade := rfl
@[simp] theorem State.updMortar_power (s : State) (f : Mortar → Mortar) : (s.updMortar f).power = s.power := rfl
@[simp] theorem State.updMortar_boot (s : State) (f : Mortar → Mortar) : (s.updMortar f).boot = s.boot := rfl
@[simp] theorem State.updMortar_flash (s : State) (f : Mortar → Mortar) : (s.updMortar f).flash = s.flash := rfl
@[simp] theorem State.updMortar_fuses (s : State) (f : Mortar → Mortar) : (s.updMortar f).fuses = s.fuses := rfl
@[simp] theorem State.updMortar_stations (s : State) (f : Mortar → Mortar) : (s.updMortar f).stations = s.stations := rfl
@[simp] theorem State.updMortar_net (s : State) (f : Mortar → Mortar) : (s.updMortar f).net = s.net := rfl
@[simp] theorem State.updMortar_mem (s : State) (f : Mortar → Mortar) : (s.updMortar f).mem = s.mem := rfl
@[simp] theorem State.updMortar_crown (s : State) (f : Mortar → Mortar) : (s.updMortar f).crown = s.crown := rfl
@[simp] theorem State.updMortar_mbx (s : State) (f : Mortar → Mortar) : (s.updMortar f).mbx = s.mbx := rfl
@[simp] theorem State.updMortar_bars (s : State) (f : Mortar → Mortar) : (s.updMortar f).bars = s.bars := rfl
@[simp] theorem State.updMortar_cfg (s : State) (f : Mortar → Mortar) : (s.updMortar f).cfg = s.cfg := rfl
@[simp] theorem State.updMortar_hostOut (s : State) (f : Mortar → Mortar) : (s.updMortar f).hostOut = s.hostOut := rfl
@[simp] theorem State.updMortar_band (s : State) (f : Mortar → Mortar) : (s.updMortar f).band = s.band := rfl
@[simp] theorem State.updMortar_mon (s : State) (f : Mortar → Mortar) : (s.updMortar f).mon = s.mon := rfl
@[simp] theorem State.updMortar_fab (s : State) (f : Mortar → Mortar) : (s.updMortar f).fab = s.fab := rfl
@[simp] theorem State.updMortar_ioSes (s : State) (f : Mortar → Mortar) : (s.updMortar f).ioSes = s.ioSes := rfl
@[simp] theorem State.updMortar_fresh (s : State) (f : Mortar → Mortar) : (s.updMortar f).fresh = s.fresh := rfl
@[simp] theorem State.updMortar_pending (s : State) (f : Mortar → Mortar) : (s.updMortar f).pending = s.pending := rfl

@[simp] theorem State.updFunnel_grade (s : State) (st : Fin 16) (f : Funnel → Funnel) : (s.updFunnel st f).grade = s.grade := rfl
@[simp] theorem State.updFunnel_power (s : State) (st : Fin 16) (f : Funnel → Funnel) : (s.updFunnel st f).power = s.power := rfl
@[simp] theorem State.updFunnel_boot (s : State) (st : Fin 16) (f : Funnel → Funnel) : (s.updFunnel st f).boot = s.boot := rfl
@[simp] theorem State.updFunnel_flash (s : State) (st : Fin 16) (f : Funnel → Funnel) : (s.updFunnel st f).flash = s.flash := rfl
@[simp] theorem State.updFunnel_fuses (s : State) (st : Fin 16) (f : Funnel → Funnel) : (s.updFunnel st f).fuses = s.fuses := rfl
@[simp] theorem State.updFunnel_net (s : State) (st : Fin 16) (f : Funnel → Funnel) : (s.updFunnel st f).net = s.net := rfl
@[simp] theorem State.updFunnel_mem (s : State) (st : Fin 16) (f : Funnel → Funnel) : (s.updFunnel st f).mem = s.mem := rfl
@[simp] theorem State.updFunnel_crown (s : State) (st : Fin 16) (f : Funnel → Funnel) : (s.updFunnel st f).crown = s.crown := rfl
@[simp] theorem State.updFunnel_mbx (s : State) (st : Fin 16) (f : Funnel → Funnel) : (s.updFunnel st f).mbx = s.mbx := rfl
@[simp] theorem State.updFunnel_bars (s : State) (st : Fin 16) (f : Funnel → Funnel) : (s.updFunnel st f).bars = s.bars := rfl
@[simp] theorem State.updFunnel_cfg (s : State) (st : Fin 16) (f : Funnel → Funnel) : (s.updFunnel st f).cfg = s.cfg := rfl
@[simp] theorem State.updFunnel_hostOut (s : State) (st : Fin 16) (f : Funnel → Funnel) : (s.updFunnel st f).hostOut = s.hostOut := rfl
@[simp] theorem State.updFunnel_band (s : State) (st : Fin 16) (f : Funnel → Funnel) : (s.updFunnel st f).band = s.band := rfl
@[simp] theorem State.updFunnel_mortar (s : State) (st : Fin 16) (f : Funnel → Funnel) : (s.updFunnel st f).mortar = s.mortar := rfl
@[simp] theorem State.updFunnel_mon (s : State) (st : Fin 16) (f : Funnel → Funnel) : (s.updFunnel st f).mon = s.mon := rfl
@[simp] theorem State.updFunnel_fab (s : State) (st : Fin 16) (f : Funnel → Funnel) : (s.updFunnel st f).fab = s.fab := rfl
@[simp] theorem State.updFunnel_ioSes (s : State) (st : Fin 16) (f : Funnel → Funnel) : (s.updFunnel st f).ioSes = s.ioSes := rfl
@[simp] theorem State.updFunnel_fresh (s : State) (st : Fin 16) (f : Funnel → Funnel) : (s.updFunnel st f).fresh = s.fresh := rfl
@[simp] theorem State.updFunnel_pending (s : State) (st : Fin 16) (f : Funnel → Funnel) : (s.updFunnel st f).pending = s.pending := rfl

@[simp] theorem State.updStream_grade (s : State) (st : Fin 16) (j : Nat) (f : KeyStream → KeyStream) : (s.updStream st j f).grade = s.grade := rfl
@[simp] theorem State.updStream_power (s : State) (st : Fin 16) (j : Nat) (f : KeyStream → KeyStream) : (s.updStream st j f).power = s.power := rfl
@[simp] theorem State.updStream_boot (s : State) (st : Fin 16) (j : Nat) (f : KeyStream → KeyStream) : (s.updStream st j f).boot = s.boot := rfl
@[simp] theorem State.updStream_flash (s : State) (st : Fin 16) (j : Nat) (f : KeyStream → KeyStream) : (s.updStream st j f).flash = s.flash := rfl
@[simp] theorem State.updStream_fuses (s : State) (st : Fin 16) (j : Nat) (f : KeyStream → KeyStream) : (s.updStream st j f).fuses = s.fuses := rfl
@[simp] theorem State.updStream_net (s : State) (st : Fin 16) (j : Nat) (f : KeyStream → KeyStream) : (s.updStream st j f).net = s.net := rfl
@[simp] theorem State.updStream_mem (s : State) (st : Fin 16) (j : Nat) (f : KeyStream → KeyStream) : (s.updStream st j f).mem = s.mem := rfl
@[simp] theorem State.updStream_crown (s : State) (st : Fin 16) (j : Nat) (f : KeyStream → KeyStream) : (s.updStream st j f).crown = s.crown := rfl
@[simp] theorem State.updStream_mbx (s : State) (st : Fin 16) (j : Nat) (f : KeyStream → KeyStream) : (s.updStream st j f).mbx = s.mbx := rfl
@[simp] theorem State.updStream_bars (s : State) (st : Fin 16) (j : Nat) (f : KeyStream → KeyStream) : (s.updStream st j f).bars = s.bars := rfl
@[simp] theorem State.updStream_cfg (s : State) (st : Fin 16) (j : Nat) (f : KeyStream → KeyStream) : (s.updStream st j f).cfg = s.cfg := rfl
@[simp] theorem State.updStream_hostOut (s : State) (st : Fin 16) (j : Nat) (f : KeyStream → KeyStream) : (s.updStream st j f).hostOut = s.hostOut := rfl
@[simp] theorem State.updStream_band (s : State) (st : Fin 16) (j : Nat) (f : KeyStream → KeyStream) : (s.updStream st j f).band = s.band := rfl
@[simp] theorem State.updStream_mortar (s : State) (st : Fin 16) (j : Nat) (f : KeyStream → KeyStream) : (s.updStream st j f).mortar = s.mortar := rfl
@[simp] theorem State.updStream_mon (s : State) (st : Fin 16) (j : Nat) (f : KeyStream → KeyStream) : (s.updStream st j f).mon = s.mon := rfl
@[simp] theorem State.updStream_fab (s : State) (st : Fin 16) (j : Nat) (f : KeyStream → KeyStream) : (s.updStream st j f).fab = s.fab := rfl
@[simp] theorem State.updStream_ioSes (s : State) (st : Fin 16) (j : Nat) (f : KeyStream → KeyStream) : (s.updStream st j f).ioSes = s.ioSes := rfl
@[simp] theorem State.updStream_fresh (s : State) (st : Fin 16) (j : Nat) (f : KeyStream → KeyStream) : (s.updStream st j f).fresh = s.fresh := rfl
@[simp] theorem State.updStream_pending (s : State) (st : Fin 16) (j : Nat) (f : KeyStream → KeyStream) : (s.updStream st j f).pending = s.pending := rfl

@[simp] theorem State.updSlot_grade (s : State) (ses slot : Nat) (f : StreamSlot → StreamSlot) : (s.updSlot ses slot f).grade = s.grade := rfl
@[simp] theorem State.updSlot_power (s : State) (ses slot : Nat) (f : StreamSlot → StreamSlot) : (s.updSlot ses slot f).power = s.power := rfl
@[simp] theorem State.updSlot_boot (s : State) (ses slot : Nat) (f : StreamSlot → StreamSlot) : (s.updSlot ses slot f).boot = s.boot := rfl
@[simp] theorem State.updSlot_flash (s : State) (ses slot : Nat) (f : StreamSlot → StreamSlot) : (s.updSlot ses slot f).flash = s.flash := rfl
@[simp] theorem State.updSlot_fuses (s : State) (ses slot : Nat) (f : StreamSlot → StreamSlot) : (s.updSlot ses slot f).fuses = s.fuses := rfl
@[simp] theorem State.updSlot_stations (s : State) (ses slot : Nat) (f : StreamSlot → StreamSlot) : (s.updSlot ses slot f).stations = s.stations := rfl
@[simp] theorem State.updSlot_net (s : State) (ses slot : Nat) (f : StreamSlot → StreamSlot) : (s.updSlot ses slot f).net = s.net := rfl
@[simp] theorem State.updSlot_mem (s : State) (ses slot : Nat) (f : StreamSlot → StreamSlot) : (s.updSlot ses slot f).mem = s.mem := rfl
@[simp] theorem State.updSlot_mbx (s : State) (ses slot : Nat) (f : StreamSlot → StreamSlot) : (s.updSlot ses slot f).mbx = s.mbx := rfl
@[simp] theorem State.updSlot_bars (s : State) (ses slot : Nat) (f : StreamSlot → StreamSlot) : (s.updSlot ses slot f).bars = s.bars := rfl
@[simp] theorem State.updSlot_cfg (s : State) (ses slot : Nat) (f : StreamSlot → StreamSlot) : (s.updSlot ses slot f).cfg = s.cfg := rfl
@[simp] theorem State.updSlot_hostOut (s : State) (ses slot : Nat) (f : StreamSlot → StreamSlot) : (s.updSlot ses slot f).hostOut = s.hostOut := rfl
@[simp] theorem State.updSlot_band (s : State) (ses slot : Nat) (f : StreamSlot → StreamSlot) : (s.updSlot ses slot f).band = s.band := rfl
@[simp] theorem State.updSlot_mortar (s : State) (ses slot : Nat) (f : StreamSlot → StreamSlot) : (s.updSlot ses slot f).mortar = s.mortar := rfl
@[simp] theorem State.updSlot_mon (s : State) (ses slot : Nat) (f : StreamSlot → StreamSlot) : (s.updSlot ses slot f).mon = s.mon := rfl
@[simp] theorem State.updSlot_fab (s : State) (ses slot : Nat) (f : StreamSlot → StreamSlot) : (s.updSlot ses slot f).fab = s.fab := rfl
@[simp] theorem State.updSlot_ioSes (s : State) (ses slot : Nat) (f : StreamSlot → StreamSlot) : (s.updSlot ses slot f).ioSes = s.ioSes := rfl
@[simp] theorem State.updSlot_fresh (s : State) (ses slot : Nat) (f : StreamSlot → StreamSlot) : (s.updSlot ses slot f).fresh = s.fresh := rfl
@[simp] theorem State.updSlot_pending (s : State) (ses slot : Nat) (f : StreamSlot → StreamSlot) : (s.updSlot ses slot f).pending = s.pending := rfl

@[simp] theorem State.post_grade (s : State) (st dst : Fin 16) (k : NetKind) : (s.post st dst k).grade = s.grade := rfl
@[simp] theorem State.post_power (s : State) (st dst : Fin 16) (k : NetKind) : (s.post st dst k).power = s.power := rfl
@[simp] theorem State.post_boot (s : State) (st dst : Fin 16) (k : NetKind) : (s.post st dst k).boot = s.boot := rfl
@[simp] theorem State.post_flash (s : State) (st dst : Fin 16) (k : NetKind) : (s.post st dst k).flash = s.flash := rfl
@[simp] theorem State.post_fuses (s : State) (st dst : Fin 16) (k : NetKind) : (s.post st dst k).fuses = s.fuses := rfl
@[simp] theorem State.post_stations (s : State) (st dst : Fin 16) (k : NetKind) : (s.post st dst k).stations = s.stations := rfl
@[simp] theorem State.post_mem (s : State) (st dst : Fin 16) (k : NetKind) : (s.post st dst k).mem = s.mem := rfl
@[simp] theorem State.post_crown (s : State) (st dst : Fin 16) (k : NetKind) : (s.post st dst k).crown = s.crown := rfl
@[simp] theorem State.post_mbx (s : State) (st dst : Fin 16) (k : NetKind) : (s.post st dst k).mbx = s.mbx := rfl
@[simp] theorem State.post_bars (s : State) (st dst : Fin 16) (k : NetKind) : (s.post st dst k).bars = s.bars := rfl
@[simp] theorem State.post_cfg (s : State) (st dst : Fin 16) (k : NetKind) : (s.post st dst k).cfg = s.cfg := rfl
@[simp] theorem State.post_hostOut (s : State) (st dst : Fin 16) (k : NetKind) : (s.post st dst k).hostOut = s.hostOut := rfl
@[simp] theorem State.post_band (s : State) (st dst : Fin 16) (k : NetKind) : (s.post st dst k).band = s.band := rfl
@[simp] theorem State.post_mortar (s : State) (st dst : Fin 16) (k : NetKind) : (s.post st dst k).mortar = s.mortar := rfl
@[simp] theorem State.post_mon (s : State) (st dst : Fin 16) (k : NetKind) : (s.post st dst k).mon = s.mon := rfl
@[simp] theorem State.post_fab (s : State) (st dst : Fin 16) (k : NetKind) : (s.post st dst k).fab = s.fab := rfl
@[simp] theorem State.post_ioSes (s : State) (st dst : Fin 16) (k : NetKind) : (s.post st dst k).ioSes = s.ioSes := rfl
@[simp] theorem State.post_fresh (s : State) (st dst : Fin 16) (k : NetKind) : (s.post st dst k).fresh = s.fresh := rfl
@[simp] theorem State.post_pending (s : State) (st dst : Fin 16) (k : NetKind) : (s.post st dst k).pending = s.pending := rfl

@[simp] theorem State.countStale_grade (s : State) (ses : Nat) : (s.countStale ses).grade = s.grade := rfl
@[simp] theorem State.countStale_power (s : State) (ses : Nat) : (s.countStale ses).power = s.power := rfl
@[simp] theorem State.countStale_boot (s : State) (ses : Nat) : (s.countStale ses).boot = s.boot := rfl
@[simp] theorem State.countStale_flash (s : State) (ses : Nat) : (s.countStale ses).flash = s.flash := rfl
@[simp] theorem State.countStale_fuses (s : State) (ses : Nat) : (s.countStale ses).fuses = s.fuses := rfl
@[simp] theorem State.countStale_stations (s : State) (ses : Nat) : (s.countStale ses).stations = s.stations := rfl
@[simp] theorem State.countStale_net (s : State) (ses : Nat) : (s.countStale ses).net = s.net := rfl
@[simp] theorem State.countStale_mem (s : State) (ses : Nat) : (s.countStale ses).mem = s.mem := rfl
@[simp] theorem State.countStale_mbx (s : State) (ses : Nat) : (s.countStale ses).mbx = s.mbx := rfl
@[simp] theorem State.countStale_bars (s : State) (ses : Nat) : (s.countStale ses).bars = s.bars := rfl
@[simp] theorem State.countStale_cfg (s : State) (ses : Nat) : (s.countStale ses).cfg = s.cfg := rfl
@[simp] theorem State.countStale_hostOut (s : State) (ses : Nat) : (s.countStale ses).hostOut = s.hostOut := rfl
@[simp] theorem State.countStale_band (s : State) (ses : Nat) : (s.countStale ses).band = s.band := rfl
@[simp] theorem State.countStale_mortar (s : State) (ses : Nat) : (s.countStale ses).mortar = s.mortar := rfl
@[simp] theorem State.countStale_mon (s : State) (ses : Nat) : (s.countStale ses).mon = s.mon := rfl
@[simp] theorem State.countStale_fab (s : State) (ses : Nat) : (s.countStale ses).fab = s.fab := rfl
@[simp] theorem State.countStale_ioSes (s : State) (ses : Nat) : (s.countStale ses).ioSes = s.ioSes := rfl
@[simp] theorem State.countStale_fresh (s : State) (ses : Nat) : (s.countStale ses).fresh = s.fresh := rfl
@[simp] theorem State.countStale_pending (s : State) (ses : Nat) : (s.countStale ses).pending = s.pending := rfl

@[simp] theorem State.updPort_grade (s : State) (p : Fin 14) (f : Port → Port) : (s.updPort p f).grade = s.grade := rfl
@[simp] theorem State.updPort_power (s : State) (p : Fin 14) (f : Port → Port) : (s.updPort p f).power = s.power := rfl
@[simp] theorem State.updPort_boot (s : State) (p : Fin 14) (f : Port → Port) : (s.updPort p f).boot = s.boot := rfl
@[simp] theorem State.updPort_flash (s : State) (p : Fin 14) (f : Port → Port) : (s.updPort p f).flash = s.flash := rfl
@[simp] theorem State.updPort_fuses (s : State) (p : Fin 14) (f : Port → Port) : (s.updPort p f).fuses = s.fuses := rfl
@[simp] theorem State.updPort_stations (s : State) (p : Fin 14) (f : Port → Port) : (s.updPort p f).stations = s.stations := rfl
@[simp] theorem State.updPort_net (s : State) (p : Fin 14) (f : Port → Port) : (s.updPort p f).net = s.net := rfl
@[simp] theorem State.updPort_mem (s : State) (p : Fin 14) (f : Port → Port) : (s.updPort p f).mem = s.mem := rfl
@[simp] theorem State.updPort_crown (s : State) (p : Fin 14) (f : Port → Port) : (s.updPort p f).crown = s.crown := rfl
@[simp] theorem State.updPort_mbx (s : State) (p : Fin 14) (f : Port → Port) : (s.updPort p f).mbx = s.mbx := rfl
@[simp] theorem State.updPort_bars (s : State) (p : Fin 14) (f : Port → Port) : (s.updPort p f).bars = s.bars := rfl
@[simp] theorem State.updPort_cfg (s : State) (p : Fin 14) (f : Port → Port) : (s.updPort p f).cfg = s.cfg := rfl
@[simp] theorem State.updPort_hostOut (s : State) (p : Fin 14) (f : Port → Port) : (s.updPort p f).hostOut = s.hostOut := rfl
@[simp] theorem State.updPort_band (s : State) (p : Fin 14) (f : Port → Port) : (s.updPort p f).band = s.band := rfl
@[simp] theorem State.updPort_mortar (s : State) (p : Fin 14) (f : Port → Port) : (s.updPort p f).mortar = s.mortar := rfl
@[simp] theorem State.updPort_mon (s : State) (p : Fin 14) (f : Port → Port) : (s.updPort p f).mon = s.mon := rfl
@[simp] theorem State.updPort_ioSes (s : State) (p : Fin 14) (f : Port → Port) : (s.updPort p f).ioSes = s.ioSes := rfl
@[simp] theorem State.updPort_fresh (s : State) (p : Fin 14) (f : Port → Port) : (s.updPort p f).fresh = s.fresh := rfl
@[simp] theorem State.updPort_pending (s : State) (p : Fin 14) (f : Port → Port) : (s.updPort p f).pending = s.pending := rfl

@[simp] theorem State.sendBy_grade (s : State) (p : Fin 14) (h : FrameHdr) (payload : List Byte) : (s.sendBy p h payload).grade = s.grade := rfl
@[simp] theorem State.sendBy_power (s : State) (p : Fin 14) (h : FrameHdr) (payload : List Byte) : (s.sendBy p h payload).power = s.power := rfl
@[simp] theorem State.sendBy_boot (s : State) (p : Fin 14) (h : FrameHdr) (payload : List Byte) : (s.sendBy p h payload).boot = s.boot := rfl
@[simp] theorem State.sendBy_flash (s : State) (p : Fin 14) (h : FrameHdr) (payload : List Byte) : (s.sendBy p h payload).flash = s.flash := rfl
@[simp] theorem State.sendBy_fuses (s : State) (p : Fin 14) (h : FrameHdr) (payload : List Byte) : (s.sendBy p h payload).fuses = s.fuses := rfl
@[simp] theorem State.sendBy_stations (s : State) (p : Fin 14) (h : FrameHdr) (payload : List Byte) : (s.sendBy p h payload).stations = s.stations := rfl
@[simp] theorem State.sendBy_net (s : State) (p : Fin 14) (h : FrameHdr) (payload : List Byte) : (s.sendBy p h payload).net = s.net := rfl
@[simp] theorem State.sendBy_mem (s : State) (p : Fin 14) (h : FrameHdr) (payload : List Byte) : (s.sendBy p h payload).mem = s.mem := rfl
@[simp] theorem State.sendBy_crown (s : State) (p : Fin 14) (h : FrameHdr) (payload : List Byte) : (s.sendBy p h payload).crown = s.crown := rfl
@[simp] theorem State.sendBy_mbx (s : State) (p : Fin 14) (h : FrameHdr) (payload : List Byte) : (s.sendBy p h payload).mbx = s.mbx := rfl
@[simp] theorem State.sendBy_bars (s : State) (p : Fin 14) (h : FrameHdr) (payload : List Byte) : (s.sendBy p h payload).bars = s.bars := rfl
@[simp] theorem State.sendBy_cfg (s : State) (p : Fin 14) (h : FrameHdr) (payload : List Byte) : (s.sendBy p h payload).cfg = s.cfg := rfl
@[simp] theorem State.sendBy_hostOut (s : State) (p : Fin 14) (h : FrameHdr) (payload : List Byte) : (s.sendBy p h payload).hostOut = s.hostOut := rfl
@[simp] theorem State.sendBy_band (s : State) (p : Fin 14) (h : FrameHdr) (payload : List Byte) : (s.sendBy p h payload).band = s.band := rfl
@[simp] theorem State.sendBy_mortar (s : State) (p : Fin 14) (h : FrameHdr) (payload : List Byte) : (s.sendBy p h payload).mortar = s.mortar := rfl
@[simp] theorem State.sendBy_mon (s : State) (p : Fin 14) (h : FrameHdr) (payload : List Byte) : (s.sendBy p h payload).mon = s.mon := rfl
@[simp] theorem State.sendBy_ioSes (s : State) (p : Fin 14) (h : FrameHdr) (payload : List Byte) : (s.sendBy p h payload).ioSes = s.ioSes := rfl
@[simp] theorem State.sendBy_fresh (s : State) (p : Fin 14) (h : FrameHdr) (payload : List Byte) : (s.sendBy p h payload).fresh = s.fresh := rfl
@[simp] theorem State.sendBy_pending (s : State) (p : Fin 14) (h : FrameHdr) (payload : List Byte) : (s.sendBy p h payload).pending = s.pending := rfl

@[simp] theorem State.unbindPort_grade (s : State) (p : Fin 14) : (s.unbindPort p).grade = s.grade := rfl
@[simp] theorem State.unbindPort_power (s : State) (p : Fin 14) : (s.unbindPort p).power = s.power := rfl
@[simp] theorem State.unbindPort_boot (s : State) (p : Fin 14) : (s.unbindPort p).boot = s.boot := rfl
@[simp] theorem State.unbindPort_flash (s : State) (p : Fin 14) : (s.unbindPort p).flash = s.flash := rfl
@[simp] theorem State.unbindPort_fuses (s : State) (p : Fin 14) : (s.unbindPort p).fuses = s.fuses := rfl
@[simp] theorem State.unbindPort_stations (s : State) (p : Fin 14) : (s.unbindPort p).stations = s.stations := rfl
@[simp] theorem State.unbindPort_net (s : State) (p : Fin 14) : (s.unbindPort p).net = s.net := rfl
@[simp] theorem State.unbindPort_mem (s : State) (p : Fin 14) : (s.unbindPort p).mem = s.mem := rfl
@[simp] theorem State.unbindPort_mbx (s : State) (p : Fin 14) : (s.unbindPort p).mbx = s.mbx := rfl
@[simp] theorem State.unbindPort_bars (s : State) (p : Fin 14) : (s.unbindPort p).bars = s.bars := rfl
@[simp] theorem State.unbindPort_cfg (s : State) (p : Fin 14) : (s.unbindPort p).cfg = s.cfg := rfl
@[simp] theorem State.unbindPort_hostOut (s : State) (p : Fin 14) : (s.unbindPort p).hostOut = s.hostOut := rfl
@[simp] theorem State.unbindPort_band (s : State) (p : Fin 14) : (s.unbindPort p).band = s.band := rfl
@[simp] theorem State.unbindPort_mortar (s : State) (p : Fin 14) : (s.unbindPort p).mortar = s.mortar := rfl
@[simp] theorem State.unbindPort_mon (s : State) (p : Fin 14) : (s.unbindPort p).mon = s.mon := rfl
@[simp] theorem State.unbindPort_fab (s : State) (p : Fin 14) : (s.unbindPort p).fab = s.fab := rfl
@[simp] theorem State.unbindPort_ioSes (s : State) (p : Fin 14) : (s.unbindPort p).ioSes = s.ioSes := rfl
@[simp] theorem State.unbindPort_fresh (s : State) (p : Fin 14) : (s.unbindPort p).fresh = s.fresh := rfl
@[simp] theorem State.unbindPort_pending (s : State) (p : Fin 14) : (s.unbindPort p).pending = s.pending := rfl

@[simp] theorem State.pruneRelayed_grade (s : State) : (s.pruneRelayed).grade = s.grade := rfl
@[simp] theorem State.pruneRelayed_power (s : State) : (s.pruneRelayed).power = s.power := rfl
@[simp] theorem State.pruneRelayed_boot (s : State) : (s.pruneRelayed).boot = s.boot := rfl
@[simp] theorem State.pruneRelayed_flash (s : State) : (s.pruneRelayed).flash = s.flash := rfl
@[simp] theorem State.pruneRelayed_fuses (s : State) : (s.pruneRelayed).fuses = s.fuses := rfl
@[simp] theorem State.pruneRelayed_stations (s : State) : (s.pruneRelayed).stations = s.stations := rfl
@[simp] theorem State.pruneRelayed_net (s : State) : (s.pruneRelayed).net = s.net := rfl
@[simp] theorem State.pruneRelayed_mem (s : State) : (s.pruneRelayed).mem = s.mem := rfl
@[simp] theorem State.pruneRelayed_crown (s : State) : (s.pruneRelayed).crown = s.crown := rfl
@[simp] theorem State.pruneRelayed_mbx (s : State) : (s.pruneRelayed).mbx = s.mbx := rfl
@[simp] theorem State.pruneRelayed_bars (s : State) : (s.pruneRelayed).bars = s.bars := rfl
@[simp] theorem State.pruneRelayed_cfg (s : State) : (s.pruneRelayed).cfg = s.cfg := rfl
@[simp] theorem State.pruneRelayed_hostOut (s : State) : (s.pruneRelayed).hostOut = s.hostOut := rfl
@[simp] theorem State.pruneRelayed_band (s : State) : (s.pruneRelayed).band = s.band := rfl
@[simp] theorem State.pruneRelayed_mortar (s : State) : (s.pruneRelayed).mortar = s.mortar := rfl
@[simp] theorem State.pruneRelayed_mon (s : State) : (s.pruneRelayed).mon = s.mon := rfl
@[simp] theorem State.pruneRelayed_ioSes (s : State) : (s.pruneRelayed).ioSes = s.ioSes := rfl
@[simp] theorem State.pruneRelayed_fresh (s : State) : (s.pruneRelayed).fresh = s.fresh := rfl
@[simp] theorem State.pruneRelayed_pending (s : State) : (s.pruneRelayed).pending = s.pending := rfl

@[simp] theorem State.takeFrame_grade (s : State) (p : Fin 14) (frame : List Byte) : (s.takeFrame p frame).grade = s.grade := rfl
@[simp] theorem State.takeFrame_power (s : State) (p : Fin 14) (frame : List Byte) : (s.takeFrame p frame).power = s.power := rfl
@[simp] theorem State.takeFrame_boot (s : State) (p : Fin 14) (frame : List Byte) : (s.takeFrame p frame).boot = s.boot := rfl
@[simp] theorem State.takeFrame_flash (s : State) (p : Fin 14) (frame : List Byte) : (s.takeFrame p frame).flash = s.flash := rfl
@[simp] theorem State.takeFrame_fuses (s : State) (p : Fin 14) (frame : List Byte) : (s.takeFrame p frame).fuses = s.fuses := rfl
@[simp] theorem State.takeFrame_stations (s : State) (p : Fin 14) (frame : List Byte) : (s.takeFrame p frame).stations = s.stations := rfl
@[simp] theorem State.takeFrame_net (s : State) (p : Fin 14) (frame : List Byte) : (s.takeFrame p frame).net = s.net := rfl
@[simp] theorem State.takeFrame_mem (s : State) (p : Fin 14) (frame : List Byte) : (s.takeFrame p frame).mem = s.mem := rfl
@[simp] theorem State.takeFrame_crown (s : State) (p : Fin 14) (frame : List Byte) : (s.takeFrame p frame).crown = s.crown := rfl
@[simp] theorem State.takeFrame_mbx (s : State) (p : Fin 14) (frame : List Byte) : (s.takeFrame p frame).mbx = s.mbx := rfl
@[simp] theorem State.takeFrame_bars (s : State) (p : Fin 14) (frame : List Byte) : (s.takeFrame p frame).bars = s.bars := rfl
@[simp] theorem State.takeFrame_cfg (s : State) (p : Fin 14) (frame : List Byte) : (s.takeFrame p frame).cfg = s.cfg := rfl
@[simp] theorem State.takeFrame_hostOut (s : State) (p : Fin 14) (frame : List Byte) : (s.takeFrame p frame).hostOut = s.hostOut := rfl
@[simp] theorem State.takeFrame_band (s : State) (p : Fin 14) (frame : List Byte) : (s.takeFrame p frame).band = s.band := rfl
@[simp] theorem State.takeFrame_mortar (s : State) (p : Fin 14) (frame : List Byte) : (s.takeFrame p frame).mortar = s.mortar := rfl
@[simp] theorem State.takeFrame_mon (s : State) (p : Fin 14) (frame : List Byte) : (s.takeFrame p frame).mon = s.mon := rfl
@[simp] theorem State.takeFrame_ioSes (s : State) (p : Fin 14) (frame : List Byte) : (s.takeFrame p frame).ioSes = s.ioSes := rfl
@[simp] theorem State.takeFrame_fresh (s : State) (p : Fin 14) (frame : List Byte) : (s.takeFrame p frame).fresh = s.fresh := rfl
@[simp] theorem State.takeFrame_pending (s : State) (p : Fin 14) (frame : List Byte) : (s.takeFrame p frame).pending = s.pending := rfl

@[simp] theorem State.trained_grade (s : State) : (s.trained).grade = s.grade := rfl
@[simp] theorem State.trained_power (s : State) : (s.trained).power = s.power := rfl
@[simp] theorem State.trained_boot (s : State) : (s.trained).boot = s.boot := rfl
@[simp] theorem State.trained_flash (s : State) : (s.trained).flash = s.flash := rfl
@[simp] theorem State.trained_fuses (s : State) : (s.trained).fuses = s.fuses := rfl
@[simp] theorem State.trained_stations (s : State) : (s.trained).stations = s.stations := rfl
@[simp] theorem State.trained_net (s : State) : (s.trained).net = s.net := rfl
@[simp] theorem State.trained_crown (s : State) : (s.trained).crown = s.crown := rfl
@[simp] theorem State.trained_mbx (s : State) : (s.trained).mbx = s.mbx := rfl
@[simp] theorem State.trained_bars (s : State) : (s.trained).bars = s.bars := rfl
@[simp] theorem State.trained_cfg (s : State) : (s.trained).cfg = s.cfg := rfl
@[simp] theorem State.trained_hostOut (s : State) : (s.trained).hostOut = s.hostOut := rfl
@[simp] theorem State.trained_band (s : State) : (s.trained).band = s.band := rfl
@[simp] theorem State.trained_mortar (s : State) : (s.trained).mortar = s.mortar := rfl
@[simp] theorem State.trained_mon (s : State) : (s.trained).mon = s.mon := rfl
@[simp] theorem State.trained_fab (s : State) : (s.trained).fab = s.fab := rfl
@[simp] theorem State.trained_ioSes (s : State) : (s.trained).ioSes = s.ioSes := rfl
@[simp] theorem State.trained_fresh (s : State) : (s.trained).fresh = s.fresh := rfl
@[simp] theorem State.trained_pending (s : State) : (s.trained).pending = s.pending := rfl

/-! ## What each update changes -/

@[simp] theorem State.putStn_same (s : State) (st : Fin 16) (t : Station) : (s.putStn st t).stations[st] = t := vset_same ..
theorem State.putStn_get (s : State) (st x : Fin 16) (t : Station) :
    (s.putStn st t).stations[x] = if x = st then t else s.stations[x] := vset_get ..
theorem State.putStn_ne {s : State} {st x : Fin 16} (t : Station) (h : x ≠ st) : (s.putStn st t).stations[x] = s.stations[x] :=
  vset_ne t h
@[simp] theorem State.updStn_same (s : State) (st : Fin 16) (f : Station → Station) :
    (s.updStn st f).stations[st] = f s.stations[st] := vupd_same ..
theorem State.updStn_get (s : State) (st x : Fin 16) (f : Station → Station) :
    (s.updStn st f).stations[x] = if x = st then f s.stations[x] else s.stations[x] := vupd_get ..
theorem State.updStn_ne {s : State} {st x : Fin 16} (f : Station → Station) (h : x ≠ st) :
    (s.updStn st f).stations[x] = s.stations[x] := vupd_ne f h
theorem State.updStn_eq_putStn (s : State) (st : Fin 16) (f : Station → Station) : s.updStn st f = s.putStn st (f s.stations[st]) := rfl
theorem State.putStn_putStn (s : State) (st : Fin 16) (t u : Station) : (s.putStn st t).putStn st u = s.putStn st u := by
  simp [State.putStn]
theorem State.updStn_putStn (s : State) (st : Fin 16) (t : Station) (f : Station → Station) :
    (s.putStn st t).updStn st f = s.putStn st (f t) := by
  rw [State.updStn_eq_putStn, State.putStn_same, State.putStn_putStn]
theorem State.mapStns_get (s : State) (p : Fin 16 → Bool) (f : Station → Station) (x : Fin 16) :
    (s.mapStns p f).stations[x] = if p x then f s.stations[x] else s.stations[x] := by simp [State.mapStns]

@[simp] theorem State.updMbx_same (s : State) (f : Fin 64) (g : Mbx → Mbx) : (s.updMbx f g).mbx[f] = g s.mbx[f] := vupd_same ..
theorem State.updMbx_ne {s : State} {f x : Fin 64} (g : Mbx → Mbx) (h : x ≠ f) : (s.updMbx f g).mbx[x] = s.mbx[x] := vupd_ne g h
theorem State.updMbx_get (s : State) (f x : Fin 64) (g : Mbx → Mbx) :
    (s.updMbx f g).mbx[x] = if x = f then g s.mbx[x] else s.mbx[x] := vupd_get ..
@[simp] theorem State.toHost_hostOut (s : State) (t : HostTlp) : (s.toHost t).hostOut = s.hostOut ++ [t] := rfl
@[simp] theorem State.tick_fresh (s : State) : s.tick.fresh = s.fresh + 1 := rfl
@[simp] theorem State.updMortar_mortar (s : State) (f : Mortar → Mortar) : (s.updMortar f).mortar = f s.mortar := rfl

@[simp] theorem State.updPort_same (s : State) (p : Fin 14) (f : Port → Port) : (s.updPort p f).fab.ports[p] = f s.fab.ports[p] :=
  vupd_same ..
theorem State.updPort_ne {s : State} {p x : Fin 14} (f : Port → Port) (h : x ≠ p) :
    (s.updPort p f).fab.ports[x] = s.fab.ports[x] := vupd_ne f h
@[simp] theorem State.updPort_assigned (s : State) (p : Fin 14) (f : Port → Port) : (s.updPort p f).fab.assigned = s.fab.assigned := rfl
@[simp] theorem State.updPort_modid (s : State) (p : Fin 14) (f : Port → Port) : (s.updPort p f).fab.modid = s.fab.modid := rfl
@[simp] theorem State.updPort_relayed (s : State) (p : Fin 14) (f : Port → Port) : (s.updPort p f).fab.relayed = s.fab.relayed := rfl
@[simp] theorem State.updPort_reads (s : State) (p : Fin 14) (f : Port → Port) : (s.updPort p f).fab.reads = s.fab.reads := rfl

theorem State.updJob_get? (s : State) (j k : Nat) (f : Job → Job) :
    (s.updJob j f).crown.jobs.get? k = if k = j then (s.crown.jobs.get? k).map f else s.crown.jobs.get? k := Tab.get?_upd ..
theorem State.updBuf_get? (s : State) (j k : Nat) (f : Buffer → Buffer) :
    (s.updBuf j f).crown.buffers.get? k = if k = j then (s.crown.buffers.get? k).map f else s.crown.buffers.get? k := Tab.get?_upd ..
theorem State.updSession_get? (s : State) (j k : Nat) (f : Session → Session) :
    (s.updSession j f).crown.sessions.get? k = if k = j then (s.crown.sessions.get? k).map f else s.crown.sessions.get? k :=
  Tab.get?_upd ..
theorem State.session_eq (s : State) (i : Nat) : s.session i = (s.crown.sessions.get? i).getD Session.reset := rfl

/-- A stack's registers change, and nothing else in module memory. -/
theorem State.updStack_mem (s : State) (site : Nat) (f : Stack → Stack) :
    (s.updStack site f).mem = { s.mem with stackRegs := vupdN s.mem.stackRegs site f } := rfl
@[simp] theorem State.updStack_data (s : State) (site : Nat) (f : Stack → Stack) : (s.updStack site f).mem.data = s.mem.data := rfl
@[simp] theorem State.updStack_poison (s : State) (site : Nat) (f : Stack → Stack) : (s.updStack site f).mem.poison = s.mem.poison := rfl
@[simp] theorem State.updStack_regions (s : State) (site : Nat) (f : Stack → Stack) : (s.updStack site f).mem.regions = s.mem.regions := rfl
@[simp] theorem State.updStack_same (s : State) (site : Fin 8) (f : Stack → Stack) :
    (s.updStack site.val f).mem.stackRegs[site] = f s.mem.stackRegs[site] := by
  rw [State.updStack_mem, vupdN_val]; exact vupd_same ..
theorem State.updStack_ne {s : State} {site x : Fin 8} (f : Stack → Stack) (h : x ≠ site) :
    (s.updStack site.val f).mem.stackRegs[x] = s.mem.stackRegs[x] := by
  rw [State.updStack_mem, vupdN_val]; exact vupd_ne f h

end Sys2Proof.Machine
end

