-- ==== Sys2Proof/Laws/Rows.lean ====
section
/-! SUPPORT. Laws/Rows.lean: what the operations that the commands share do, said once: when an event occurs, a row of an engine,
a row of a mailbox, an answer, and the error log. -/

namespace Sys2Proof.Machine

/-! ## Events -/

/-- An event whose condition holds takes its effect. -/
theorem occurs_of {s : State} {c : Bool} {f : State → State} (h : s.Specified) (hc : c = true) : occurs s c f = .next (f s) := by
  simp only [State.Specified] at h
  simp [occurs, hc, h]

/-- An event whose condition does not hold leaves the state. -/
theorem occurs_not {s : State} {c : Bool} {f : State → State} (hc : c = false) : occurs s c f = .next s := by simp [occurs, hc]

/-- An event leaves the state or takes its effect, and nothing else. -/
theorem occurs_next {s t : State} {c : Bool} {f : State → State} (h : occurs s c f = .next t) :
    t = s ∨ (c = true ∧ s.Specified ∧ t = f s) := by
  simp only [occurs] at h
  split at h
  · next hc =>
    simp only [Bool.and_eq_true, Bool.not_eq_true'] at hc
    cases h; exact .inr ⟨hc.1, hc.2, rfl⟩
  · cases h; exact .inl rfl

/-! ## Rows of the sequencer and the engines -/

/-- An instruction that executes is the one the sequencer takes. -/
theorem control_of {s : State} {st : Fin 16} {op : Nat} {iw : BitVec 128} (h : s.Executes st op iw) : s.control st op = some iw := by
  obtain ⟨_, h1, h2, h3, h4, h5, h6⟩ := h
  simp [State.control, State.nextInstr, -Fin.getElem_fin, h1, h2, h3, h4, h5, h6]

theorem controlRow_of {s : State} {st : Fin 16} {op : Nat} {iw : BitVec 128} {f : State → Station → BitVec 128 → State}
    (h : s.Executes st op iw) : controlRow st op f s = .next (f s s.stations[st] iw) := by
  have hc := control_of h
  rw [controlRow, occurs_of h.1 (by rw [hc]; rfl)]
  rw [hc]

@[simp] theorem State.eccCount_clean (s : State) (st : Fin 16) : s.eccCount st .clean = s := rfl

@[simp] theorem State.eccSeen_clean (s : State) (st : Fin 16) (unit : Nat) (ok : State → State) :
    s.eccSeen st unit .clean ok = ok s := rfl

@[simp] theorem State.checked_pass (s : State) (st : Fin 16) (e : Fin 12) (n : Nat) (ok : State → State) :
    s.checked st e .pass n ok = ok s := rfl

theorem opRow_of {s : State} {st : Fin 16} {q : Fin 22} {op i : Nat} {e : QEntry} {plan : State → Station → QEntry → Plan}
    (h : s.Issued st q op i e) : opRow st q op plan s = .next (s.startOp st q i (plan s s.stations[st] e)) := by
  obtain ⟨h0, h1, h2⟩ := h
  rw [opRow, occurs_of h0 (by rw [h1, h2]; rfl), h2]

/-- A row whose reads find no error. -/
theorem opRead_clean {s : State} {st : Fin 16} {q : Fin 22} {op i : Nat} {e : QEntry} {plan : State → Station → QEntry → Plan}
    (h : s.Issued st q op i e) : opRead st q op .clean plan s = .next (s.startOp st q i (plan s s.stations[st] e)) := by
  obtain ⟨h0, h1, h2⟩ := h
  rw [opRead, occurs_of h0 (by rw [h1, h2]; rfl)]
  simp only [State.eccSeen, State.eccCount, h2]

theorem runRow_of {s : State} {st : Fin 16} {q : Fin 22} {op i : Nat} {e : QEntry} {ready : State → Station → QEntry → Bool}
    {effect : State → Station → Nat → QEntry → State} (h : s.Running st q op i e) (hr : ready s s.stations[st] e = true) :
    runRow st q [op] ready effect s = .next (effect s s.stations[st] i e) := by
  obtain ⟨h0, h1, h2⟩ := h
  rw [runRow, occurs_of h0 (by rw [h1, h2]; exact hr), h2]

/-! ## Rows of the mailboxes -/

/-- A command that passes the shared checks runs on the state without its entry, and then unknown entries behind it are refused. -/
theorem cmdRow_of {s : State} {f : Fin 64} {op : Nat} {fields : List (Nat × Nat)} {pf owner : Bool}
    {run : State → ReqRef → List Byte → State} {e : ReqEntry} (h : s.Takes f op fields e) (hp : pf = true → f = 0)
    (ho : owner = true → s.Owns f e) :
    cmdRow f op fields pf owner run s = .next ((run (s.popReq f) (e.ref f) e.bytes).settle f) := by
  obtain ⟨h0, h1, h2, h3⟩ := h
  rw [cmdRow, occurs_of h0 (by simp [h1])]
  have hr : (s.boot.recovery && !([0x01, 0x05, 0x50].contains op)) = false := by
    rcases h3 with h | h
    · simp [h]
    · simp only [recoveryOps] at h
      simp [List.contains_eq_mem, h]
  have hpf : (pf && f != 0) = false := by
    cases pf with
    | false => rfl
    | true => simp [hp rfl]
  have how : (owner && !(decide (reqSession e.bytes < 16384) && (s.session (reqSession e.bytes)).body.state != .free &&
      ((s.session (reqSession e.bytes)).body.func == f || f == 0))) = false := by
    cases owner with
    | false => rfl
    | true =>
      obtain ⟨o1, o2, o3⟩ := ho rfl
      rcases o3 with h | h <;> simp [o1, o2, h]
  simp only [h1, hr, h2, hpf, how, Bool.not_true, Bool.or_false, Bool.false_eq_true, if_false]

/-! ## Answers -/

/-- A reply joins its function's answers while EN is 1, and is discarded otherwise. -/
theorem State.reply_eq (s : State) (r : ReqRef) (c : Byte) (p : List Byte) :
    s.reply r c p = if s.mbx[r.f].en then s.updMbx r.f fun m => { m with
      replies := m.replies ++ [⟨r.op, r.tag, c, false, r.rqidx, p, 0, none⟩] } else s := rfl

theorem State.complete_eq (s : State) (r : ReqRef) (c : Byte) (p : List Byte) :
    s.complete r c p = if s.mbx[r.f].en then s.updMbx r.f fun m => { m with
      replies := m.replies ++ [⟨r.op, r.tag, c, true, r.rqidx, p, 0, none⟩] } else s := rfl

@[simp] theorem State.reply_grade (s : State) (r : ReqRef) (c : Byte) (p : List Byte) : (s.reply r c p).grade = s.grade := by rw [State.reply_eq]; split <;> rfl
@[simp] theorem State.reply_power (s : State) (r : ReqRef) (c : Byte) (p : List Byte) : (s.reply r c p).power = s.power := by rw [State.reply_eq]; split <;> rfl
@[simp] theorem State.reply_boot (s : State) (r : ReqRef) (c : Byte) (p : List Byte) : (s.reply r c p).boot = s.boot := by rw [State.reply_eq]; split <;> rfl
@[simp] theorem State.reply_flash (s : State) (r : ReqRef) (c : Byte) (p : List Byte) : (s.reply r c p).flash = s.flash := by rw [State.reply_eq]; split <;> rfl
@[simp] theorem State.reply_fuses (s : State) (r : ReqRef) (c : Byte) (p : List Byte) : (s.reply r c p).fuses = s.fuses := by rw [State.reply_eq]; split <;> rfl
@[simp] theorem State.reply_stations (s : State) (r : ReqRef) (c : Byte) (p : List Byte) : (s.reply r c p).stations = s.stations := by rw [State.reply_eq]; split <;> rfl
@[simp] theorem State.reply_net (s : State) (r : ReqRef) (c : Byte) (p : List Byte) : (s.reply r c p).net = s.net := by rw [State.reply_eq]; split <;> rfl
@[simp] theorem State.reply_mem (s : State) (r : ReqRef) (c : Byte) (p : List Byte) : (s.reply r c p).mem = s.mem := by rw [State.reply_eq]; split <;> rfl
@[simp] theorem State.reply_crown (s : State) (r : ReqRef) (c : Byte) (p : List Byte) : (s.reply r c p).crown = s.crown := by rw [State.reply_eq]; split <;> rfl
@[simp] theorem State.reply_bars (s : State) (r : ReqRef) (c : Byte) (p : List Byte) : (s.reply r c p).bars = s.bars := by rw [State.reply_eq]; split <;> rfl
@[simp] theorem State.reply_cfg (s : State) (r : ReqRef) (c : Byte) (p : List Byte) : (s.reply r c p).cfg = s.cfg := by rw [State.reply_eq]; split <;> rfl
@[simp] theorem State.reply_hostOut (s : State) (r : ReqRef) (c : Byte) (p : List Byte) : (s.reply r c p).hostOut = s.hostOut := by rw [State.reply_eq]; split <;> rfl
@[simp] theorem State.reply_band (s : State) (r : ReqRef) (c : Byte) (p : List Byte) : (s.reply r c p).band = s.band := by rw [State.reply_eq]; split <;> rfl
@[simp] theorem State.reply_mortar (s : State) (r : ReqRef) (c : Byte) (p : List Byte) : (s.reply r c p).mortar = s.mortar := by rw [State.reply_eq]; split <;> rfl
@[simp] theorem State.reply_mon (s : State) (r : ReqRef) (c : Byte) (p : List Byte) : (s.reply r c p).mon = s.mon := by rw [State.reply_eq]; split <;> rfl
@[simp] theorem State.reply_fab (s : State) (r : ReqRef) (c : Byte) (p : List Byte) : (s.reply r c p).fab = s.fab := by rw [State.reply_eq]; split <;> rfl
@[simp] theorem State.reply_ioSes (s : State) (r : ReqRef) (c : Byte) (p : List Byte) : (s.reply r c p).ioSes = s.ioSes := by rw [State.reply_eq]; split <;> rfl
@[simp] theorem State.reply_fresh (s : State) (r : ReqRef) (c : Byte) (p : List Byte) : (s.reply r c p).fresh = s.fresh := by rw [State.reply_eq]; split <;> rfl
@[simp] theorem State.reply_pending (s : State) (r : ReqRef) (c : Byte) (p : List Byte) : (s.reply r c p).pending = s.pending := by rw [State.reply_eq]; split <;> rfl

@[simp] theorem State.complete_grade (s : State) (r : ReqRef) (c : Byte) (p : List Byte) : (s.complete r c p).grade = s.grade := by rw [State.complete_eq]; split <;> rfl
@[simp] theorem State.complete_power (s : State) (r : ReqRef) (c : Byte) (p : List Byte) : (s.complete r c p).power = s.power := by rw [State.complete_eq]; split <;> rfl
@[simp] theorem State.complete_boot (s : State) (r : ReqRef) (c : Byte) (p : List Byte) : (s.complete r c p).boot = s.boot := by rw [State.complete_eq]; split <;> rfl
@[simp] theorem State.complete_flash (s : State) (r : ReqRef) (c : Byte) (p : List Byte) : (s.complete r c p).flash = s.flash := by rw [State.complete_eq]; split <;> rfl
@[simp] theorem State.complete_fuses (s : State) (r : ReqRef) (c : Byte) (p : List Byte) : (s.complete r c p).fuses = s.fuses := by rw [State.complete_eq]; split <;> rfl
@[simp] theorem State.complete_stations (s : State) (r : ReqRef) (c : Byte) (p : List Byte) : (s.complete r c p).stations = s.stations := by rw [State.complete_eq]; split <;> rfl
@[simp] theorem State.complete_net (s : State) (r : ReqRef) (c : Byte) (p : List Byte) : (s.complete r c p).net = s.net := by rw [State.complete_eq]; split <;> rfl
@[simp] theorem State.complete_mem (s : State) (r : ReqRef) (c : Byte) (p : List Byte) : (s.complete r c p).mem = s.mem := by rw [State.complete_eq]; split <;> rfl
@[simp] theorem State.complete_crown (s : State) (r : ReqRef) (c : Byte) (p : List Byte) : (s.complete r c p).crown = s.crown := by rw [State.complete_eq]; split <;> rfl
@[simp] theorem State.complete_bars (s : State) (r : ReqRef) (c : Byte) (p : List Byte) : (s.complete r c p).bars = s.bars := by rw [State.complete_eq]; split <;> rfl
@[simp] theorem State.complete_cfg (s : State) (r : ReqRef) (c : Byte) (p : List Byte) : (s.complete r c p).cfg = s.cfg := by rw [State.complete_eq]; split <;> rfl
@[simp] theorem State.complete_hostOut (s : State) (r : ReqRef) (c : Byte) (p : List Byte) : (s.complete r c p).hostOut = s.hostOut := by rw [State.complete_eq]; split <;> rfl
@[simp] theorem State.complete_band (s : State) (r : ReqRef) (c : Byte) (p : List Byte) : (s.complete r c p).band = s.band := by rw [State.complete_eq]; split <;> rfl
@[simp] theorem State.complete_mortar (s : State) (r : ReqRef) (c : Byte) (p : List Byte) : (s.complete r c p).mortar = s.mortar := by rw [State.complete_eq]; split <;> rfl
@[simp] theorem State.complete_mon (s : State) (r : ReqRef) (c : Byte) (p : List Byte) : (s.complete r c p).mon = s.mon := by rw [State.complete_eq]; split <;> rfl
@[simp] theorem State.complete_fab (s : State) (r : ReqRef) (c : Byte) (p : List Byte) : (s.complete r c p).fab = s.fab := by rw [State.complete_eq]; split <;> rfl
@[simp] theorem State.complete_ioSes (s : State) (r : ReqRef) (c : Byte) (p : List Byte) : (s.complete r c p).ioSes = s.ioSes := by rw [State.complete_eq]; split <;> rfl
@[simp] theorem State.complete_fresh (s : State) (r : ReqRef) (c : Byte) (p : List Byte) : (s.complete r c p).fresh = s.fresh := by rw [State.complete_eq]; split <;> rfl
@[simp] theorem State.complete_pending (s : State) (r : ReqRef) (c : Byte) (p : List Byte) : (s.complete r c p).pending = s.pending := by rw [State.complete_eq]; split <;> rfl

theorem State.reply_mbx (s : State) (r : ReqRef) (c : Byte) (p : List Byte) (f : Fin 64) :
    (s.reply r c p).mbx[f] = if f = r.f ∧ s.mbx[r.f].en = true then { s.mbx[f] with
      replies := s.mbx[f].replies ++ [⟨r.op, r.tag, c, false, r.rqidx, p, 0, none⟩] } else s.mbx[f] := by
  rw [State.reply_eq]
  by_cases he : s.mbx[r.f].en = true
  · rw [if_pos he, State.updMbx_get]; simp only [he, and_true]
  · rw [if_neg he, if_neg fun h => he h.2]

theorem State.complete_mbx (s : State) (r : ReqRef) (c : Byte) (p : List Byte) (f : Fin 64) :
    (s.complete r c p).mbx[f] = if f = r.f ∧ s.mbx[r.f].en = true then { s.mbx[f] with
      replies := s.mbx[f].replies ++ [⟨r.op, r.tag, c, true, r.rqidx, p, 0, none⟩] } else s.mbx[f] := by
  rw [State.complete_eq]
  by_cases he : s.mbx[r.f].en = true
  · rw [if_pos he, State.updMbx_get]; simp only [he, and_true]
  · rw [if_neg he, if_neg fun h => he h.2]

theorem State.popReq_mbx (s : State) (f x : Fin 64) :
    (s.popReq f).mbx[x] = if x = f then { s.mbx[x] with taken := s.mbx[x].taken.tail } else s.mbx[x] := State.updMbx_get ..

/-! ## The error log -/

@[simp] theorem State.logEvt_grade (s : State) (e : LogEvt) : (s.logEvt e).grade = s.grade := by unfold State.logEvt; split <;> rfl
@[simp] theorem State.logEvt_power (s : State) (e : LogEvt) : (s.logEvt e).power = s.power := by unfold State.logEvt; split <;> rfl
@[simp] theorem State.logEvt_boot (s : State) (e : LogEvt) : (s.logEvt e).boot = s.boot := by unfold State.logEvt; split <;> rfl
@[simp] theorem State.logEvt_flash (s : State) (e : LogEvt) : (s.logEvt e).flash = s.flash := by unfold State.logEvt; split <;> rfl
@[simp] theorem State.logEvt_fuses (s : State) (e : LogEvt) : (s.logEvt e).fuses = s.fuses := by unfold State.logEvt; split <;> rfl
@[simp] theorem State.logEvt_stations (s : State) (e : LogEvt) : (s.logEvt e).stations = s.stations := by unfold State.logEvt; split <;> rfl
@[simp] theorem State.logEvt_net (s : State) (e : LogEvt) : (s.logEvt e).net = s.net := by unfold State.logEvt; split <;> rfl
@[simp] theorem State.logEvt_mem (s : State) (e : LogEvt) : (s.logEvt e).mem = s.mem := by unfold State.logEvt; split <;> rfl
@[simp] theorem State.logEvt_crown (s : State) (e : LogEvt) : (s.logEvt e).crown = s.crown := by unfold State.logEvt; split <;> rfl
@[simp] theorem State.logEvt_mbx (s : State) (e : LogEvt) : (s.logEvt e).mbx = s.mbx := by unfold State.logEvt; split <;> rfl
@[simp] theorem State.logEvt_bars (s : State) (e : LogEvt) : (s.logEvt e).bars = s.bars := by unfold State.logEvt; split <;> rfl
@[simp] theorem State.logEvt_cfg (s : State) (e : LogEvt) : (s.logEvt e).cfg = s.cfg := by unfold State.logEvt; split <;> rfl
@[simp] theorem State.logEvt_hostOut (s : State) (e : LogEvt) : (s.logEvt e).hostOut = s.hostOut := by unfold State.logEvt; split <;> rfl
@[simp] theorem State.logEvt_band (s : State) (e : LogEvt) : (s.logEvt e).band = s.band := by unfold State.logEvt; split <;> rfl
@[simp] theorem State.logEvt_mortar (s : State) (e : LogEvt) : (s.logEvt e).mortar = s.mortar := by unfold State.logEvt; split <;> rfl
@[simp] theorem State.logEvt_fab (s : State) (e : LogEvt) : (s.logEvt e).fab = s.fab := by unfold State.logEvt; split <;> rfl
@[simp] theorem State.logEvt_ioSes (s : State) (e : LogEvt) : (s.logEvt e).ioSes = s.ioSes := by unfold State.logEvt; split <;> rfl
@[simp] theorem State.logEvt_fresh (s : State) (e : LogEvt) : (s.logEvt e).fresh = s.fresh := by unfold State.logEvt; split <;> rfl
@[simp] theorem State.logEvt_pending (s : State) (e : LogEvt) : (s.logEvt e).pending = s.pending := by unfold State.logEvt; split <;> rfl

@[simp] theorem State.noteSat_grade (s : State) (k : Nat) (a b c : Byte) (n : Nat) : (s.noteSat k a b c n).grade = s.grade := by unfold State.noteSat; split <;> simp
@[simp] theorem State.noteSat_power (s : State) (k : Nat) (a b c : Byte) (n : Nat) : (s.noteSat k a b c n).power = s.power := by unfold State.noteSat; split <;> simp
@[simp] theorem State.noteSat_boot (s : State) (k : Nat) (a b c : Byte) (n : Nat) : (s.noteSat k a b c n).boot = s.boot := by unfold State.noteSat; split <;> simp
@[simp] theorem State.noteSat_flash (s : State) (k : Nat) (a b c : Byte) (n : Nat) : (s.noteSat k a b c n).flash = s.flash := by unfold State.noteSat; split <;> simp
@[simp] theorem State.noteSat_fuses (s : State) (k : Nat) (a b c : Byte) (n : Nat) : (s.noteSat k a b c n).fuses = s.fuses := by unfold State.noteSat; split <;> simp
@[simp] theorem State.noteSat_stations (s : State) (k : Nat) (a b c : Byte) (n : Nat) : (s.noteSat k a b c n).stations = s.stations := by unfold State.noteSat; split <;> simp
@[simp] theorem State.noteSat_net (s : State) (k : Nat) (a b c : Byte) (n : Nat) : (s.noteSat k a b c n).net = s.net := by unfold State.noteSat; split <;> simp
@[simp] theorem State.noteSat_mem (s : State) (k : Nat) (a b c : Byte) (n : Nat) : (s.noteSat k a b c n).mem = s.mem := by unfold State.noteSat; split <;> simp
@[simp] theorem State.noteSat_crown (s : State) (k : Nat) (a b c : Byte) (n : Nat) : (s.noteSat k a b c n).crown = s.crown := by unfold State.noteSat; split <;> simp
@[simp] theorem State.noteSat_mbx (s : State) (k : Nat) (a b c : Byte) (n : Nat) : (s.noteSat k a b c n).mbx = s.mbx := by unfold State.noteSat; split <;> simp
@[simp] theorem State.noteSat_bars (s : State) (k : Nat) (a b c : Byte) (n : Nat) : (s.noteSat k a b c n).bars = s.bars := by unfold State.noteSat; split <;> simp
@[simp] theorem State.noteSat_cfg (s : State) (k : Nat) (a b c : Byte) (n : Nat) : (s.noteSat k a b c n).cfg = s.cfg := by unfold State.noteSat; split <;> simp
@[simp] theorem State.noteSat_hostOut (s : State) (k : Nat) (a b c : Byte) (n : Nat) : (s.noteSat k a b c n).hostOut = s.hostOut := by unfold State.noteSat; split <;> simp
@[simp] theorem State.noteSat_band (s : State) (k : Nat) (a b c : Byte) (n : Nat) : (s.noteSat k a b c n).band = s.band := by unfold State.noteSat; split <;> simp
@[simp] theorem State.noteSat_mortar (s : State) (k : Nat) (a b c : Byte) (n : Nat) : (s.noteSat k a b c n).mortar = s.mortar := by unfold State.noteSat; split <;> simp
@[simp] theorem State.noteSat_fab (s : State) (k : Nat) (a b c : Byte) (n : Nat) : (s.noteSat k a b c n).fab = s.fab := by unfold State.noteSat; split <;> simp
@[simp] theorem State.noteSat_ioSes (s : State) (k : Nat) (a b c : Byte) (n : Nat) : (s.noteSat k a b c n).ioSes = s.ioSes := by unfold State.noteSat; split <;> simp
@[simp] theorem State.noteSat_pending (s : State) (k : Nat) (a b c : Byte) (n : Nat) : (s.noteSat k a b c n).pending = s.pending := by unfold State.noteSat; split <;> simp

@[simp] theorem State.noteIf_grade (s : State) (x : Bool) (k : Nat) (a b c : Byte) (n : Nat) : (s.noteIf x k a b c n).grade = s.grade := by unfold State.noteIf; split <;> simp
@[simp] theorem State.noteIf_power (s : State) (x : Bool) (k : Nat) (a b c : Byte) (n : Nat) : (s.noteIf x k a b c n).power = s.power := by unfold State.noteIf; split <;> simp
@[simp] theorem State.noteIf_boot (s : State) (x : Bool) (k : Nat) (a b c : Byte) (n : Nat) : (s.noteIf x k a b c n).boot = s.boot := by unfold State.noteIf; split <;> simp
@[simp] theorem State.noteIf_flash (s : State) (x : Bool) (k : Nat) (a b c : Byte) (n : Nat) : (s.noteIf x k a b c n).flash = s.flash := by unfold State.noteIf; split <;> simp
@[simp] theorem State.noteIf_fuses (s : State) (x : Bool) (k : Nat) (a b c : Byte) (n : Nat) : (s.noteIf x k a b c n).fuses = s.fuses := by unfold State.noteIf; split <;> simp
@[simp] theorem State.noteIf_stations (s : State) (x : Bool) (k : Nat) (a b c : Byte) (n : Nat) : (s.noteIf x k a b c n).stations = s.stations := by unfold State.noteIf; split <;> simp
@[simp] theorem State.noteIf_net (s : State) (x : Bool) (k : Nat) (a b c : Byte) (n : Nat) : (s.noteIf x k a b c n).net = s.net := by unfold State.noteIf; split <;> simp
@[simp] theorem State.noteIf_mem (s : State) (x : Bool) (k : Nat) (a b c : Byte) (n : Nat) : (s.noteIf x k a b c n).mem = s.mem := by unfold State.noteIf; split <;> simp
@[simp] theorem State.noteIf_crown (s : State) (x : Bool) (k : Nat) (a b c : Byte) (n : Nat) : (s.noteIf x k a b c n).crown = s.crown := by unfold State.noteIf; split <;> simp
@[simp] theorem State.noteIf_mbx (s : State) (x : Bool) (k : Nat) (a b c : Byte) (n : Nat) : (s.noteIf x k a b c n).mbx = s.mbx := by unfold State.noteIf; split <;> simp
@[simp] theorem State.noteIf_bars (s : State) (x : Bool) (k : Nat) (a b c : Byte) (n : Nat) : (s.noteIf x k a b c n).bars = s.bars := by unfold State.noteIf; split <;> simp
@[simp] theorem State.noteIf_cfg (s : State) (x : Bool) (k : Nat) (a b c : Byte) (n : Nat) : (s.noteIf x k a b c n).cfg = s.cfg := by unfold State.noteIf; split <;> simp
@[simp] theorem State.noteIf_hostOut (s : State) (x : Bool) (k : Nat) (a b c : Byte) (n : Nat) : (s.noteIf x k a b c n).hostOut = s.hostOut := by unfold State.noteIf; split <;> simp
@[simp] theorem State.noteIf_band (s : State) (x : Bool) (k : Nat) (a b c : Byte) (n : Nat) : (s.noteIf x k a b c n).band = s.band := by unfold State.noteIf; split <;> simp
@[simp] theorem State.noteIf_mortar (s : State) (x : Bool) (k : Nat) (a b c : Byte) (n : Nat) : (s.noteIf x k a b c n).mortar = s.mortar := by unfold State.noteIf; split <;> simp
@[simp] theorem State.noteIf_fab (s : State) (x : Bool) (k : Nat) (a b c : Byte) (n : Nat) : (s.noteIf x k a b c n).fab = s.fab := by unfold State.noteIf; split <;> simp
@[simp] theorem State.noteIf_ioSes (s : State) (x : Bool) (k : Nat) (a b c : Byte) (n : Nat) : (s.noteIf x k a b c n).ioSes = s.ioSes := by unfold State.noteIf; split <;> simp
@[simp] theorem State.noteIf_pending (s : State) (x : Bool) (k : Nat) (a b c : Byte) (n : Nat) : (s.noteIf x k a b c n).pending = s.pending := by unfold State.noteIf; split <;> simp

/-- An event that finds room joins the queue of the log. -/
theorem State.logEvt_room {s : State} (e : LogEvt) (h : s.mon.queue.length < 256) :
    s.logEvt e = { s with mon := { s.mon with queue := s.mon.queue ++ [e] } } := if_pos h

/-- An event leaves the monitor units and the ring. -/
theorem State.logEvt_mon (s : State) (e : LogEvt) :
    (s.logEvt e).mon = { s.mon with queue := (s.logEvt e).mon.queue, lost := (s.logEvt e).mon.lost } := by
  unfold State.logEvt; split <;> rfl

/-! ## Messages to the host -/

@[simp] theorem State.msi_grade (s : State) (f : Fin 64) (v : Nat) : (s.msi f v).grade = s.grade := by unfold State.msi; split <;> rfl
@[simp] theorem State.msi_power (s : State) (f : Fin 64) (v : Nat) : (s.msi f v).power = s.power := by unfold State.msi; split <;> rfl
@[simp] theorem State.msi_boot (s : State) (f : Fin 64) (v : Nat) : (s.msi f v).boot = s.boot := by unfold State.msi; split <;> rfl
@[simp] theorem State.msi_flash (s : State) (f : Fin 64) (v : Nat) : (s.msi f v).flash = s.flash := by unfold State.msi; split <;> rfl
@[simp] theorem State.msi_fuses (s : State) (f : Fin 64) (v : Nat) : (s.msi f v).fuses = s.fuses := by unfold State.msi; split <;> rfl
@[simp] theorem State.msi_stations (s : State) (f : Fin 64) (v : Nat) : (s.msi f v).stations = s.stations := by unfold State.msi; split <;> rfl
@[simp] theorem State.msi_net (s : State) (f : Fin 64) (v : Nat) : (s.msi f v).net = s.net := by unfold State.msi; split <;> rfl
@[simp] theorem State.msi_mem (s : State) (f : Fin 64) (v : Nat) : (s.msi f v).mem = s.mem := by unfold State.msi; split <;> rfl
@[simp] theorem State.msi_crown (s : State) (f : Fin 64) (v : Nat) : (s.msi f v).crown = s.crown := by unfold State.msi; split <;> rfl
@[simp] theorem State.msi_bars (s : State) (f : Fin 64) (v : Nat) : (s.msi f v).bars = s.bars := by unfold State.msi; split <;> rfl
@[simp] theorem State.msi_cfg (s : State) (f : Fin 64) (v : Nat) : (s.msi f v).cfg = s.cfg := by unfold State.msi; split <;> rfl
@[simp] theorem State.msi_band (s : State) (f : Fin 64) (v : Nat) : (s.msi f v).band = s.band := by unfold State.msi; split <;> rfl
@[simp] theorem State.msi_mortar (s : State) (f : Fin 64) (v : Nat) : (s.msi f v).mortar = s.mortar := by unfold State.msi; split <;> rfl
@[simp] theorem State.msi_mon (s : State) (f : Fin 64) (v : Nat) : (s.msi f v).mon = s.mon := by unfold State.msi; split <;> rfl
@[simp] theorem State.msi_fab (s : State) (f : Fin 64) (v : Nat) : (s.msi f v).fab = s.fab := by unfold State.msi; split <;> rfl
@[simp] theorem State.msi_ioSes (s : State) (f : Fin 64) (v : Nat) : (s.msi f v).ioSes = s.ioSes := by unfold State.msi; split <;> rfl
@[simp] theorem State.msi_fresh (s : State) (f : Fin 64) (v : Nat) : (s.msi f v).fresh = s.fresh := by unfold State.msi; split <;> rfl
@[simp] theorem State.msi_pending (s : State) (f : Fin 64) (v : Nat) : (s.msi f v).pending = s.pending := by unfold State.msi; split <;> rfl

theorem State.msi_open {s : State} {f : Fin 64} {v : Nat} (h : s.mbx[f].masked v = false) : s.msi f v = s.toHost (.msix f v) := by
  rw [State.msi, if_neg (by rw [h]; exact Bool.false_ne_true)]

theorem State.msi_masked {s : State} {f : Fin 64} {v : Nat} (h : s.mbx[f].masked v = true) :
    s.msi f v = s.updMbx f fun m => { m with pba := m.pba ||| BitVec.ofNat 32 (2 ^ v) } := by rw [State.msi, if_pos h]

/-! ## Unknown entries are refused -/

/-- What taking an entry, a reply and an event of the log all keep, the refusal of unknown entries keeps. -/
theorem State.settleGo_ind {P : State → Prop} {f : Fin 64} (hp : ∀ s, P s → P (s.popReq f))
    (hr : ∀ s r c p, r.f = f → P s → P (s.reply r c p)) (hl : ∀ s e, P s → P (s.logEvt e)) (n : Nat) (s : State) (h : P s) :
    P (State.settleGo f n s) := by
  induction n generalizing s with
  | zero => exact h
  | succ n ih =>
    unfold State.settleGo
    split
    · exact h
    · split
      · exact h
      · apply ih
        split
        · exact hr _ _ _ _ rfl (hl _ _ (hp _ h))
        · exact hr _ _ _ _ rfl (hp _ h)

theorem State.settle_ind {P : State → Prop} {f : Fin 64} (hp : ∀ s, P s → P (s.popReq f))
    (hr : ∀ s r c p, r.f = f → P s → P (s.reply r c p)) (hl : ∀ s e, P s → P (s.logEvt e)) (s : State) (h : P s) : P (s.settle f) :=
  State.settleGo_ind hp hr hl _ s h

/-- An entry at the head whose opcode is known, or none, leaves nothing to refuse. -/
theorem State.settle_known {s : State} {f : Fin 64} (h : ∀ e ∈ s.mbx[f].taken, knownOps.contains (reqOp e.bytes) = true) :
    s.settle f = s := by
  unfold State.settle
  cases ht : s.mbx[f].taken with
  | nil => rfl
  | cons e l =>
    have he := h e (by rw [ht]; exact List.mem_cons_self ..)
    simp only [List.length_cons, State.settleGo, ht, he, Bool.true_or, if_true]

@[simp] theorem State.settle_grade (s : State) (f : Fin 64) : (s.settle f).grade = s.grade := State.settle_ind (P := fun t => t.grade = s.grade) (by simp) (by simp) (by simp) s rfl
@[simp] theorem State.settle_power (s : State) (f : Fin 64) : (s.settle f).power = s.power := State.settle_ind (P := fun t => t.power = s.power) (by simp) (by simp) (by simp) s rfl
@[simp] theorem State.settle_boot (s : State) (f : Fin 64) : (s.settle f).boot = s.boot := State.settle_ind (P := fun t => t.boot = s.boot) (by simp) (by simp) (by simp) s rfl
@[simp] theorem State.settle_flash (s : State) (f : Fin 64) : (s.settle f).flash = s.flash := State.settle_ind (P := fun t => t.flash = s.flash) (by simp) (by simp) (by simp) s rfl
@[simp] theorem State.settle_fuses (s : State) (f : Fin 64) : (s.settle f).fuses = s.fuses := State.settle_ind (P := fun t => t.fuses = s.fuses) (by simp) (by simp) (by simp) s rfl
@[simp] theorem State.settle_stations (s : State) (f : Fin 64) : (s.settle f).stations = s.stations := State.settle_ind (P := fun t => t.stations = s.stations) (by simp) (by simp) (by simp) s rfl
@[simp] theorem State.settle_net (s : State) (f : Fin 64) : (s.settle f).net = s.net := State.settle_ind (P := fun t => t.net = s.net) (by simp) (by simp) (by simp) s rfl
@[simp] theorem State.settle_mem (s : State) (f : Fin 64) : (s.settle f).mem = s.mem := State.settle_ind (P := fun t => t.mem = s.mem) (by simp) (by simp) (by simp) s rfl
@[simp] theorem State.settle_bars (s : State) (f : Fin 64) : (s.settle f).bars = s.bars := State.settle_ind (P := fun t => t.bars = s.bars) (by simp) (by simp) (by simp) s rfl
@[simp] theorem State.settle_cfg (s : State) (f : Fin 64) : (s.settle f).cfg = s.cfg := State.settle_ind (P := fun t => t.cfg = s.cfg) (by simp) (by simp) (by simp) s rfl
@[simp] theorem State.settle_hostOut (s : State) (f : Fin 64) : (s.settle f).hostOut = s.hostOut := State.settle_ind (P := fun t => t.hostOut = s.hostOut) (by simp) (by simp) (by simp) s rfl
@[simp] theorem State.settle_band (s : State) (f : Fin 64) : (s.settle f).band = s.band := State.settle_ind (P := fun t => t.band = s.band) (by simp) (by simp) (by simp) s rfl
@[simp] theorem State.settle_mortar (s : State) (f : Fin 64) : (s.settle f).mortar = s.mortar := State.settle_ind (P := fun t => t.mortar = s.mortar) (by simp) (by simp) (by simp) s rfl
@[simp] theorem State.settle_fab (s : State) (f : Fin 64) : (s.settle f).fab = s.fab := State.settle_ind (P := fun t => t.fab = s.fab) (by simp) (by simp) (by simp) s rfl
@[simp] theorem State.settle_ioSes (s : State) (f : Fin 64) : (s.settle f).ioSes = s.ioSes := State.settle_ind (P := fun t => t.ioSes = s.ioSes) (by simp) (by simp) (by simp) s rfl
@[simp] theorem State.settle_fresh (s : State) (f : Fin 64) : (s.settle f).fresh = s.fresh := State.settle_ind (P := fun t => t.fresh = s.fresh) (by simp) (by simp) (by simp) s rfl
@[simp] theorem State.settle_pending (s : State) (f : Fin 64) : (s.settle f).pending = s.pending := State.settle_ind (P := fun t => t.pending = s.pending) (by simp) (by simp) (by simp) s rfl

/-- The refusal of unknown entries moves Crown's turn and changes no table. -/
theorem State.settle_turn (s : State) (f : Fin 64) : ∃ k, (s.settle f).crown = { s.crown with turn := k } :=
  State.settle_ind (P := fun t => ∃ k, t.crown = { s.crown with turn := k })
    (fun t h => by obtain ⟨k, h⟩ := h; exact ⟨f + 1, by simp only [State.popReq, State.updMbx, h]⟩)
    (fun t r c p _ h => by rw [State.reply_crown]; exact h) (fun t e h => by rw [State.logEvt_crown]; exact h) s ⟨s.crown.turn, rfl⟩
@[simp] theorem State.settle_sessions (s : State) (f : Fin 64) : (s.settle f).crown.sessions = s.crown.sessions := by obtain ⟨k, h⟩ := s.settle_turn f; rw [h]
@[simp] theorem State.settle_keysets (s : State) (f : Fin 64) : (s.settle f).crown.keysets = s.crown.keysets := by obtain ⟨k, h⟩ := s.settle_turn f; rw [h]
@[simp] theorem State.settle_buffers (s : State) (f : Fin 64) : (s.settle f).crown.buffers = s.crown.buffers := by obtain ⟨k, h⟩ := s.settle_turn f; rw [h]
@[simp] theorem State.settle_jobs (s : State) (f : Fin 64) : (s.settle f).crown.jobs = s.crown.jobs := by obtain ⟨k, h⟩ := s.settle_turn f; rw [h]
@[simp] theorem State.settle_endOrder (s : State) (f : Fin 64) : (s.settle f).crown.endOrder = s.crown.endOrder := by obtain ⟨k, h⟩ := s.settle_turn f; rw [h]
@[simp] theorem State.settle_journal (s : State) (f : Fin 64) : (s.settle f).crown.journal = s.crown.journal := by obtain ⟨k, h⟩ := s.settle_turn f; rw [h]
@[simp] theorem State.settle_commits (s : State) (f : Fin 64) : (s.settle f).crown.commits = s.crown.commits := by obtain ⟨k, h⟩ := s.settle_turn f; rw [h]
@[simp] theorem State.settle_kpmPlaced (s : State) (f : Fin 64) : (s.settle f).crown.kpmPlaced = s.crown.kpmPlaced := by obtain ⟨k, h⟩ := s.settle_turn f; rw [h]
@[simp] theorem State.settle_cache (s : State) (f : Fin 64) : (s.settle f).crown.cache = s.crown.cache := by obtain ⟨k, h⟩ := s.settle_turn f; rw [h]
@[simp] theorem State.settle_groups (s : State) (f : Fin 64) : (s.settle f).crown.groups = s.crown.groups := by obtain ⟨k, h⟩ := s.settle_turn f; rw [h]
@[simp] theorem State.settle_exports (s : State) (f : Fin 64) : (s.settle f).crown.exports = s.crown.exports := by obtain ⟨k, h⟩ := s.settle_turn f; rw [h]
@[simp] theorem State.settle_funcs (s : State) (f : Fin 64) : (s.settle f).crown.funcs = s.crown.funcs := by obtain ⟨k, h⟩ := s.settle_turn f; rw [h]
@[simp] theorem State.settle_quar (s : State) (f : Fin 64) : (s.settle f).crown.quar = s.crown.quar := by obtain ⟨k, h⟩ := s.settle_turn f; rw [h]
@[simp] theorem State.settle_withdrawn (s : State) (f : Fin 64) : (s.settle f).crown.withdrawn = s.crown.withdrawn := by obtain ⟨k, h⟩ := s.settle_turn f; rw [h]
@[simp] theorem State.settle_quarSeen (s : State) (f : Fin 64) : (s.settle f).crown.quarSeen = s.crown.quarSeen := by obtain ⟨k, h⟩ := s.settle_turn f; rw [h]
@[simp] theorem State.settle_stage (s : State) (f : Fin 64) : (s.settle f).crown.stage = s.crown.stage := by obtain ⟨k, h⟩ := s.settle_turn f; rw [h]
@[simp] theorem State.settle_activation (s : State) (f : Fin 64) : (s.settle f).crown.activation = s.crown.activation := by obtain ⟨k, h⟩ := s.settle_turn f; rw [h]
@[simp] theorem State.settle_snaps (s : State) (f : Fin 64) : (s.settle f).crown.snaps = s.crown.snaps := by obtain ⟨k, h⟩ := s.settle_turn f; rw [h]
@[simp] theorem State.settle_marginReq (s : State) (f : Fin 64) : (s.settle f).crown.marginReq = s.crown.marginReq := by obtain ⟨k, h⟩ := s.settle_turn f; rw [h]
@[simp] theorem State.settle_verifies (s : State) (f : Fin 64) : (s.settle f).crown.verifies = s.crown.verifies := by obtain ⟨k, h⟩ := s.settle_turn f; rw [h]
@[simp] theorem State.settle_waits (s : State) (f : Fin 64) : (s.settle f).crown.waits = s.crown.waits := by obtain ⟨k, h⟩ := s.settle_turn f; rw [h]
@[simp] theorem State.settle_nextMtag (s : State) (f : Fin 64) : (s.settle f).crown.nextMtag = s.crown.nextMtag := by obtain ⟨k, h⟩ := s.settle_turn f; rw [h]
@[simp] theorem State.settle_mustWrite (s : State) (f : Fin 64) : (s.settle f).crown.mustWrite = s.crown.mustWrite := by obtain ⟨k, h⟩ := s.settle_turn f; rw [h]
@[simp] theorem State.settle_everAdmitted (s : State) (f : Fin 64) : (s.settle f).crown.everAdmitted = s.crown.everAdmitted := by obtain ⟨k, h⟩ := s.settle_turn f; rw [h]

theorem State.settle_mbx_ne {s : State} {f x : Fin 64} (h : x ≠ f) : (s.settle f).mbx[x] = s.mbx[x] :=
  State.settle_ind (P := fun t => t.mbx[x] = s.mbx[x]) (fun t ht => by rw [State.popReq_mbx, if_neg h, ht])
    (fun t r c p hr ht => by rw [State.reply_mbx, if_neg (fun hx => h (hx.1.trans hr)), ht]) (fun t e ht => by rw [State.logEvt_mbx, ht])
    s rfl

end Sys2Proof.Machine
end

