-- ==== Sys2Proof/Laws/Jobs.lean ====
section
/-! SUPPORT. Laws/Jobs.lean: what the end of a job by a fault or an abort does, said once (R116, R264, R266, R338). -/

namespace Sys2Proof.Machine

/-- The state after an abortable job has been swapped to ABORTING and its stations have stopped: its record, its stations, and, where
it asked Mortar for its ticket, that Mortar job and its wait. -/
theorem State.abortJob_of {s : State} {j : Nat} {x : Job} (cause : Byte) (timeout : Bool) (hj : s.crown.jobs.get? j = some x)
    (ha : x.state.abortable = true) :
    s.abortJob j cause timeout =
      let t := (s.updJob j fun x => { x with state := .aborting, cause := cause, timeout := timeout }).mapStns (s.holds j) Station.stop
      match x.mtag with
      | some tag => { t with
          mortar := s.mortar.cancel s.fresh tag
          crown := { t.crown with waits := s.crown.waits.filter fun w => w.mtag != tag } }
      | none => t := by
  unfold State.abortJob
  rw [hj]
  simp only [ha, if_true]
  have hh : State.holds (s.updJob j fun x => { x with state := .aborting, cause := cause, timeout := timeout }) j = s.holds j := rfl
  cases x.mtag <;> rfl

/-- Where no abortable job has the number, nothing changes. -/
theorem State.abortJob_none {s : State} {j : Nat} (cause : Byte) (timeout : Bool)
    (h : ∀ x, s.crown.jobs.get? j = some x → x.state.abortable = false) : s.abortJob j cause timeout = s := by
  unfold State.abortJob
  split
  · rfl
  · next x hx => rw [if_neg]; rw [h x hx]; exact Bool.false_ne_true

/-- An abort touches the job table, Mortar and the stations, and nothing else. -/
theorem State.abortJob_ind {P : State → Prop} {s : State} {j : Nat} {cause : Byte} {timeout : Bool} (h0 : P s)
    (h1 : ∀ (c : Crown) (m : Mortar) (v : Vector Station 16), P { s with crown := c, mortar := m, stations := v }) :
    P (s.abortJob j cause timeout) := by
  cases hj : s.crown.jobs.get? j with
  | none => rw [State.abortJob_none cause timeout (by simp [hj])]; exact h0
  | some x =>
    cases ha : x.state.abortable with
    | false => rw [State.abortJob_none cause timeout (by intro y hy; rw [hj] at hy; cases hy; exact ha)]; exact h0
    | true =>
      rw [State.abortJob_of cause timeout hj ha]
      cases x.mtag with
      | none => simp only [State.mapStns, State.updJob]; exact h1 _ s.mortar _
      | some tag => simp only [State.mapStns, State.updJob]; exact h1 _ _ _

@[simp] theorem State.abortJob_grade (s : State) (j : Nat) (c : Byte) (b : Bool) : (s.abortJob j c b).grade = s.grade :=
  State.abortJob_ind (P := fun t => t.grade = s.grade) rfl fun _ _ _ => rfl
@[simp] theorem State.abortJob_power (s : State) (j : Nat) (c : Byte) (b : Bool) : (s.abortJob j c b).power = s.power :=
  State.abortJob_ind (P := fun t => t.power = s.power) rfl fun _ _ _ => rfl
@[simp] theorem State.abortJob_boot (s : State) (j : Nat) (c : Byte) (b : Bool) : (s.abortJob j c b).boot = s.boot :=
  State.abortJob_ind (P := fun t => t.boot = s.boot) rfl fun _ _ _ => rfl
@[simp] theorem State.abortJob_flash (s : State) (j : Nat) (c : Byte) (b : Bool) : (s.abortJob j c b).flash = s.flash :=
  State.abortJob_ind (P := fun t => t.flash = s.flash) rfl fun _ _ _ => rfl
@[simp] theorem State.abortJob_fuses (s : State) (j : Nat) (c : Byte) (b : Bool) : (s.abortJob j c b).fuses = s.fuses :=
  State.abortJob_ind (P := fun t => t.fuses = s.fuses) rfl fun _ _ _ => rfl
@[simp] theorem State.abortJob_net (s : State) (j : Nat) (c : Byte) (b : Bool) : (s.abortJob j c b).net = s.net :=
  State.abortJob_ind (P := fun t => t.net = s.net) rfl fun _ _ _ => rfl
@[simp] theorem State.abortJob_mem (s : State) (j : Nat) (c : Byte) (b : Bool) : (s.abortJob j c b).mem = s.mem :=
  State.abortJob_ind (P := fun t => t.mem = s.mem) rfl fun _ _ _ => rfl
@[simp] theorem State.abortJob_mbx (s : State) (j : Nat) (c : Byte) (b : Bool) : (s.abortJob j c b).mbx = s.mbx :=
  State.abortJob_ind (P := fun t => t.mbx = s.mbx) rfl fun _ _ _ => rfl
@[simp] theorem State.abortJob_bars (s : State) (j : Nat) (c : Byte) (b : Bool) : (s.abortJob j c b).bars = s.bars :=
  State.abortJob_ind (P := fun t => t.bars = s.bars) rfl fun _ _ _ => rfl
@[simp] theorem State.abortJob_hostOut (s : State) (j : Nat) (c : Byte) (b : Bool) : (s.abortJob j c b).hostOut = s.hostOut :=
  State.abortJob_ind (P := fun t => t.hostOut = s.hostOut) rfl fun _ _ _ => rfl
@[simp] theorem State.abortJob_band (s : State) (j : Nat) (c : Byte) (b : Bool) : (s.abortJob j c b).band = s.band :=
  State.abortJob_ind (P := fun t => t.band = s.band) rfl fun _ _ _ => rfl
@[simp] theorem State.abortJob_mon (s : State) (j : Nat) (c : Byte) (b : Bool) : (s.abortJob j c b).mon = s.mon :=
  State.abortJob_ind (P := fun t => t.mon = s.mon) rfl fun _ _ _ => rfl
@[simp] theorem State.abortJob_fab (s : State) (j : Nat) (c : Byte) (b : Bool) : (s.abortJob j c b).fab = s.fab :=
  State.abortJob_ind (P := fun t => t.fab = s.fab) rfl fun _ _ _ => rfl
@[simp] theorem State.abortJob_ioSes (s : State) (j : Nat) (c : Byte) (b : Bool) : (s.abortJob j c b).ioSes = s.ioSes :=
  State.abortJob_ind (P := fun t => t.ioSes = s.ioSes) rfl fun _ _ _ => rfl
@[simp] theorem State.abortJob_fresh (s : State) (j : Nat) (c : Byte) (b : Bool) : (s.abortJob j c b).fresh = s.fresh :=
  State.abortJob_ind (P := fun t => t.fresh = s.fresh) rfl fun _ _ _ => rfl
@[simp] theorem State.abortJob_pending (s : State) (j : Nat) (c : Byte) (b : Bool) : (s.abortJob j c b).pending = s.pending :=
  State.abortJob_ind (P := fun t => t.pending = s.pending) rfl fun _ _ _ => rfl

/-- The record of the job that an abort ends. -/
theorem State.abortJob_job {s : State} {j : Nat} {x : Job} (cause : Byte) (timeout : Bool) (hj : s.crown.jobs.get? j = some x)
    (ha : x.state.abortable = true) :
    (s.abortJob j cause timeout).crown.jobs = s.crown.jobs.upd j fun x =>
      { x with state := .aborting, cause := cause, timeout := timeout } := by
  rw [State.abortJob_of cause timeout hj ha]
  cases x.mtag <;> rfl

/-- Every station that the job holds stops; every other stays. -/
theorem State.abortJob_stn {s : State} {j : Nat} {x : Job} (cause : Byte) (timeout : Bool) (hj : s.crown.jobs.get? j = some x)
    (ha : x.state.abortable = true) (st : Fin 16) :
    (s.abortJob j cause timeout).stations[st] = if s.holds j st then s.stations[st].stop else s.stations[st] := by
  rw [State.abortJob_of cause timeout hj ha]
  cases x.mtag <;> simp only [State.mapStns_get, State.updJob_stations]

@[simp] theorem State.instrFault_grade (s : State) (st : Fin 16) (c : Byte) : (s.instrFault st c).grade = s.grade := by
  unfold State.instrFault; split <;> simp
@[simp] theorem State.instrFault_power (s : State) (st : Fin 16) (c : Byte) : (s.instrFault st c).power = s.power := by
  unfold State.instrFault; split <;> simp
@[simp] theorem State.instrFault_boot (s : State) (st : Fin 16) (c : Byte) : (s.instrFault st c).boot = s.boot := by
  unfold State.instrFault; split <;> simp
@[simp] theorem State.instrFault_flash (s : State) (st : Fin 16) (c : Byte) : (s.instrFault st c).flash = s.flash := by
  unfold State.instrFault; split <;> simp
@[simp] theorem State.instrFault_fuses (s : State) (st : Fin 16) (c : Byte) : (s.instrFault st c).fuses = s.fuses := by
  unfold State.instrFault; split <;> simp
@[simp] theorem State.instrFault_net (s : State) (st : Fin 16) (c : Byte) : (s.instrFault st c).net = s.net := by
  unfold State.instrFault; split <;> simp
@[simp] theorem State.instrFault_mem (s : State) (st : Fin 16) (c : Byte) : (s.instrFault st c).mem = s.mem := by
  unfold State.instrFault; split <;> simp
@[simp] theorem State.instrFault_mbx (s : State) (st : Fin 16) (c : Byte) : (s.instrFault st c).mbx = s.mbx := by
  unfold State.instrFault; split <;> simp
@[simp] theorem State.instrFault_bars (s : State) (st : Fin 16) (c : Byte) : (s.instrFault st c).bars = s.bars := by
  unfold State.instrFault; split <;> simp
@[simp] theorem State.instrFault_hostOut (s : State) (st : Fin 16) (c : Byte) : (s.instrFault st c).hostOut = s.hostOut := by
  unfold State.instrFault; split <;> simp
@[simp] theorem State.instrFault_band (s : State) (st : Fin 16) (c : Byte) : (s.instrFault st c).band = s.band := by
  unfold State.instrFault; split <;> simp
@[simp] theorem State.instrFault_mon (s : State) (st : Fin 16) (c : Byte) : (s.instrFault st c).mon = s.mon := by
  unfold State.instrFault; split <;> simp
@[simp] theorem State.instrFault_fab (s : State) (st : Fin 16) (c : Byte) : (s.instrFault st c).fab = s.fab := by
  unfold State.instrFault; split <;> simp
@[simp] theorem State.instrFault_ioSes (s : State) (st : Fin 16) (c : Byte) : (s.instrFault st c).ioSes = s.ioSes := by
  unfold State.instrFault; split <;> simp
@[simp] theorem State.instrFault_fresh (s : State) (st : Fin 16) (c : Byte) : (s.instrFault st c).fresh = s.fresh := by
  unfold State.instrFault; split <;> simp
@[simp] theorem State.instrFault_pending (s : State) (st : Fin 16) (c : Byte) : (s.instrFault st c).pending = s.pending := by
  unfold State.instrFault; split <;> simp

/-- A fault of an instruction of a station whose job is known is the abort of that job. -/
theorem State.instrFault_of {s : State} {st : Fin 16} {j : Nat} (c : Byte) (h : s.stations[st].job = some j) :
    s.instrFault st c = s.abortJob j c := by rw [State.instrFault, h]

/-- A stopped station keeps its Pantry, its check counts, its Skillets' caches, its role and its registers of state. -/
theorem Station.stop_keeps (t : Station) :
    t.stop.pantry = t.pantry ∧ t.stop.chk = t.chk ∧ t.stop.skillets = t.skillets ∧ t.stop.held = t.held ∧ t.stop.job = t.job ∧
      t.stop.epoch = t.epoch ∧ t.stop.ses = t.ses ∧ t.stop.win = t.win ∧ t.stop.modtab = t.modtab ∧ t.stop.ctrs = t.ctrs ∧
      t.stop.flags = t.flags ∧ t.stop.internals = t.internals :=
  ⟨rfl, rfl, rfl, rfl, rfl, rfl, rfl, rfl, rfl, rfl, rfl, rfl⟩

/-- Nothing waits or runs on a stopped station. -/
theorem Station.stop_idle (t : Station) :
    t.stop.run = false ∧ t.stop.load = none ∧ t.stop.queues = Vector.replicate 22 [] ∧ t.stop.funnel.streams = [] :=
  ⟨rfl, rfl, rfl, rfl⟩

end Sys2Proof.Machine
end

