-- ==== Sys2Proof/Laws/Mem.lean ====
section
/-! SUPPORT. Laws/Mem.lean: what the operations on a byte memory do: they keep the canonical form, a byte written is the byte read,
every other byte stays, and two canonical memories that read alike are equal. -/

namespace Sys2Proof.Machine

/-! ## The canonical form is kept -/

theorem Mem.wfFrom_mono {lo hi : Nat} {m : Mem} (h : lo ≤ hi) (hm : Mem.wfFrom hi m = true) : Mem.wfFrom lo m = true := by
  cases m with
  | nil => rfl
  | cons c t =>
    simp only [Mem.wfFrom, Bool.and_eq_true, decide_eq_true_eq] at hm ⊢
    exact ⟨⟨by omega, hm.1.2⟩, hm.2⟩

theorem Mem.wfFrom_write {m : Mem} {a : Nat} {b : Byte} {lo : Nat} (h : lo ≤ a) (hm : Mem.wfFrom lo m = true) :
    Mem.wfFrom lo (m.write a b) = true := by
  induction m generalizing lo with
  | nil => simp only [Mem.write]; split <;> simp_all [Mem.wfFrom]
  | cons c t ih =>
    obtain ⟨k, c⟩ := c
    simp only [Mem.wfFrom, Bool.and_eq_true, decide_eq_true_eq] at hm
    simp only [Mem.write]
    split
    · split
      · exact Mem.wfFrom_mono (by omega) hm.2
      · subst k; simp_all [Mem.wfFrom]
    · split
      · split
        · simp_all [Mem.wfFrom]
        · simp only [Mem.wfFrom, Bool.and_eq_true, decide_eq_true_eq]
          exact ⟨⟨h, by assumption⟩, ⟨by omega, hm.1.2⟩, hm.2⟩
      · simp only [Mem.wfFrom, Bool.and_eq_true, decide_eq_true_eq]
        exact ⟨hm.1, ih (by omega) hm.2⟩

theorem Mem.wf_nil : Mem.wf [] = true := rfl

theorem Mem.wf_write {m : Mem} (a : Nat) (b : Byte) (hm : m.wf = true) : (m.write a b).wf = true :=
  Mem.wfFrom_write (Nat.zero_le a) hm

theorem Mem.wf_writeN {m : Mem} (a : Nat) (bs : List Byte) (hm : m.wf = true) : (m.writeN a bs).wf = true := by
  induction bs generalizing m a with
  | nil => exact hm
  | cons b bs ih => exact ih (a + 1) (Mem.wf_write a b hm)

theorem Mem.wfFrom_filter {m : Mem} {lo : Nat} (p : Host.Cell → Bool) (hm : Mem.wfFrom lo m = true) :
    Mem.wfFrom lo (m.filter p) = true := by
  induction m generalizing lo with
  | nil => rfl
  | cons c t ih =>
    obtain ⟨k, c⟩ := c
    simp only [Mem.wfFrom, Bool.and_eq_true, decide_eq_true_eq] at hm
    simp only [List.filter_cons]
    split
    · simp only [Mem.wfFrom, Bool.and_eq_true, decide_eq_true_eq]
      exact ⟨hm.1, ih hm.2⟩
    · exact Mem.wfFrom_mono (by omega) (ih hm.2)

theorem Mem.wf_zeroRange {m : Mem} (a n : Nat) (hm : m.wf = true) : (m.zeroRange a n).wf = true := Mem.wfFrom_filter _ hm

/-! ## Reading after writing -/

theorem Mem.read_below {m : Mem} {lo a : Nat} (hm : Mem.wfFrom lo m = true) (h : a < lo) : m.read a = Mem.unlisted := by
  induction m generalizing lo with
  | nil => rfl
  | cons c t ih =>
    obtain ⟨k, c⟩ := c
    simp only [Mem.wfFrom, Bool.and_eq_true, decide_eq_true_eq] at hm
    simp only [Mem.read]
    split
    · omega
    · exact ih hm.2 (by omega)

theorem Mem.read_write_same {m : Mem} (a : Nat) (b : Byte) (hm : m.wf = true) : (m.write a b).read a = b := by
  suffices h : ∀ lo, Mem.wfFrom lo m = true → (m.write a b).read a = b from h 0 hm
  clear hm
  induction m with
  | nil => intro lo _; simp only [Mem.write]; split <;> simp_all [Mem.read]
  | cons c t ih =>
    obtain ⟨k, c⟩ := c
    intro lo hm
    simp only [Mem.wfFrom, Bool.and_eq_true, decide_eq_true_eq] at hm
    simp only [Mem.write]
    split
    · subst k
      split
      · next hb => rw [Mem.read_below hm.2 (by omega)]; exact hb.symm
      · simp [Mem.read]
    · split
      · split
        · next hb =>
          simp only [Mem.read]
          rw [if_neg (by assumption), Mem.read_below hm.2 (by omega)]
          exact hb.symm
        · simp [Mem.read]
      · simp only [Mem.read]
        rw [if_neg (by assumption)]
        exact ih _ hm.2

theorem Mem.read_write_ne {m : Mem} {a a' : Nat} (b : Byte) (h : a' ≠ a) : (m.write a b).read a' = m.read a' := by
  induction m with
  | nil => simp only [Mem.write]; split <;> simp_all [Mem.read, Ne.symm]
  | cons c t ih =>
    obtain ⟨k, c⟩ := c
    simp only [Mem.write]
    split
    · subst k; split <;> simp [Mem.read, Ne.symm h]
    · split
      · split <;> simp [Mem.read, Ne.symm h]
      · simp only [Mem.read, ih]

theorem Mem.read_writeN_out {m : Mem} {a : Nat} (bs : List Byte) {x : Nat} (h : x < a ∨ a + bs.length ≤ x) :
    (m.writeN a bs).read x = m.read x := by
  induction bs generalizing m a with
  | nil => rfl
  | cons b bs ih =>
    simp only [List.length_cons] at h
    rw [Mem.writeN, ih (by omega), Mem.read_write_ne b (by omega)]

theorem Mem.read_writeN_in {m : Mem} (a : Nat) (bs : List Byte) (hm : m.wf = true) {k : Nat} (h : k < bs.length) :
    (m.writeN a bs).read (a + k) = bs.getD k 0 := by
  induction bs generalizing m a k with
  | nil => simp at h
  | cons b bs ih =>
    rw [Mem.writeN]
    cases k with
    | zero => rw [Mem.read_writeN_out bs (by omega)]; simpa using Mem.read_write_same a b hm
    | succ k =>
      have := ih (a + 1) (Mem.wf_write a b hm) (k := k) (by simpa using h)
      rw [show a + (k + 1) = a + 1 + k by omega, this]
      simp

theorem Mem.read_filter {m : Mem} (p : Nat → Bool) (a : Nat) :
    Mem.read (m.filter fun c => p c.1) a = if p a then m.read a else Mem.unlisted := by
  induction m with
  | nil => simp [Mem.read]
  | cons c t ih =>
    obtain ⟨k, c⟩ := c
    simp only [List.filter_cons]
    split
    · simp only [Mem.read]
      split
      · subst k; simp_all
      · exact ih
    · rw [ih]
      simp only [Mem.read]
      split
      · split <;> simp_all
      · rfl

theorem Mem.read_zeroRange (m : Mem) (a n x : Nat) :
    (m.zeroRange a n).read x = if x < a ∨ a + n ≤ x then m.read x else 0 := by
  have := Mem.read_filter (m := m) (fun k => decide (k < a ∨ a + n ≤ k)) x
  simpa [Mem.zeroRange, Mem.unlisted] using this

/-! ## Several bytes -/

@[simp] theorem Mem.length_readN (m : Mem) (a n : Nat) : (m.readN a n).length = n := by
  induction n generalizing a with
  | zero => rfl
  | succ n ih => simp [Mem.readN, ih]

theorem Mem.getElem?_readN (m : Mem) (a : Nat) {n k : Nat} (h : k < n) : (m.readN a n)[k]? = some (m.read (a + k)) := by
  induction n generalizing a k with
  | zero => omega
  | succ n ih =>
    cases k with
    | zero => simp [Mem.readN]
    | succ k =>
      simp only [Mem.readN, List.getElem?_cons_succ]
      rw [ih (a + 1) (by omega)]
      congr 2
      omega

theorem Mem.readN_congr {m m' : Mem} {a n : Nat} (h : ∀ k < n, m.read (a + k) = m'.read (a + k)) : m.readN a n = m'.readN a n := by
  apply List.ext_getElem?
  intro k
  by_cases hk : k < n
  · rw [Mem.getElem?_readN m a hk, Mem.getElem?_readN m' a hk, h k hk]
  · rw [List.getElem?_eq_none (by simpa using hk), List.getElem?_eq_none (by simpa using hk)]

theorem Mem.readN_writeN_same {m : Mem} (a : Nat) (bs : List Byte) (hm : m.wf = true) : (m.writeN a bs).readN a bs.length = bs := by
  apply List.ext_getElem?
  intro k
  by_cases hk : k < bs.length
  · rw [Mem.getElem?_readN _ a hk, Mem.read_writeN_in a bs hm hk]; simp [hk]
  · rw [List.getElem?_eq_none (by simpa using hk), List.getElem?_eq_none (by simpa using hk)]

theorem Mem.readN_writeN_apart {m : Mem} {a : Nat} (bs : List Byte) {x n : Nat} (h : x + n ≤ a ∨ a + bs.length ≤ x) :
    (m.writeN a bs).readN x n = m.readN x n :=
  Mem.readN_congr fun _ _ => Mem.read_writeN_out bs (by omega)

/-! ## One form for one memory -/

theorem Mem.eq_of_read {m m' : Mem} (hm : m.wf = true) (hm' : m'.wf = true) (h : ∀ a, m.read a = m'.read a) : m = m' := by
  suffices g : ∀ lo lo', Mem.wfFrom lo m = true → Mem.wfFrom lo' m' = true → m = m' from g 0 0 hm hm'
  clear hm hm'
  induction m generalizing m' with
  | nil =>
    intro lo lo' _ h'
    cases m' with
    | nil => rfl
    | cons c t =>
      obtain ⟨k, b⟩ := c
      simp only [Mem.wfFrom, Bool.and_eq_true, decide_eq_true_eq] at h'
      have := h k
      simp [Mem.read] at this
      exact absurd this.symm h'.1.2
  | cons c t ih =>
    obtain ⟨k, b⟩ := c
    intro lo lo' hc h'
    simp only [Mem.wfFrom, Bool.and_eq_true, decide_eq_true_eq] at hc
    cases m' with
    | nil =>
      have := h k
      simp [Mem.read] at this
      exact absurd this hc.1.2
    | cons c' t' =>
      obtain ⟨k', b'⟩ := c'
      simp only [Mem.wfFrom, Bool.and_eq_true, decide_eq_true_eq] at h'
      have hk : k = k' := by
        rcases Nat.lt_trichotomy k k' with hlt | heq | hgt
        · have := h k
          simp only [Mem.read, if_true] at this
          rw [if_neg (by omega), Mem.read_below h'.2 (by omega)] at this
          exact absurd this hc.1.2
        · exact heq
        · have := h k'
          simp only [Mem.read, if_true] at this
          rw [if_neg (by omega), Mem.read_below hc.2 (by omega)] at this
          exact absurd this.symm h'.1.2
      subst k'
      have hb : b = b' := by have := h k; simpa [Mem.read] using this
      subst b'
      congr 1
      refine ih (fun a => ?_) _ _ hc.2 h'.2
      by_cases ha : a = k
      · subst a; rw [Mem.read_below hc.2 (by omega), Mem.read_below h'.2 (by omega)]
      · have := h a
        simpa [Mem.read, Ne.symm ha] using this

/-! ## The reset state's memories -/

theorem State.reset_mem_wf : State.reset.mem.data.wf = true := rfl

theorem State.reset_pantry_wf (st : Fin 16) : State.reset.stations[st].pantry.mem.wf = true := by
  simp [State.reset, Station.reset, Pantry.reset, Mem.wf, Mem.wfFrom]

end Sys2Proof.Machine
end

