-- ==== Sys2Proof/Laws/Keeps.lean ====
section
/-! SUPPORT. Laws/Keeps.lean: what a change of state keeps: every part that it does not name, the queue, the grade, every blown
fuse, and the canonical form of the memories. -/

namespace Sys2Proof.Machine

/-- Every blown step of the fuses stays, and the identity with them (R340). -/
structure Fuses.Grows (f g : Fuses) : Prop where
  vkhash : g.vkhash = f.vkhash
  idseed : g.idseed = f.idseed
  serial : g.serial = f.serial
  svnA : ∀ i, bitAt f.svnA.toNat i = true → bitAt g.svnA.toNat i = true
  svnB : ∀ i, bitAt f.svnB.toNat i = true → bitAt g.svnB.toNat i = true

theorem Fuses.Grows.refl (f : Fuses) : f.Grows f := ⟨rfl, rfl, rfl, fun _ h => h, fun _ h => h⟩

theorem Fuses.Grows.trans {f g h : Fuses} (a : f.Grows g) (b : g.Grows h) : f.Grows h :=
  ⟨b.vkhash.trans a.vkhash, b.idseed.trans a.idseed, b.serial.trans a.serial, fun i x => b.svnA i (a.svnA i x),
    fun i x => b.svnB i (a.svnB i x)⟩

/-- From `s` to `t`, only the parts of `ps` change. -/
structure State.Keeps (ps : List Part) (s t : State) : Prop where
  same : ∀ p, p ∉ ps → p.same s t
  pending : t.pending = s.pending
  grade : t.grade = s.grade
  fuses : s.fuses.Grows t.fuses
  canonical : s.Canonical → t.Canonical

theorem Part.same_trans {p : Part} {s t u : State} (h : p.same s t) (g : p.same t u) : p.same s u := by
  cases p <;> exact Eq.trans g h

theorem State.Keeps.refl (ps : List Part) (s : State) : State.Keeps ps s s :=
  ⟨fun p _ => by cases p <;> rfl, rfl, rfl, .refl _, fun h => h⟩

theorem State.Keeps.trans {ps : List Part} {s t u : State} (h : State.Keeps ps s t) (g : State.Keeps ps t u) : State.Keeps ps s u :=
  ⟨fun p hp => Part.same_trans (h.same p hp) (g.same p hp), g.pending.trans h.pending, g.grade.trans h.grade, h.fuses.trans g.fuses,
    fun c => g.canonical (h.canonical c)⟩

theorem State.Keeps.mono {ps qs : List Part} {s t : State} (h : State.Keeps ps s t) (hs : ∀ p ∈ ps, p ∈ qs) : State.Keeps qs s t :=
  ⟨fun p hp => h.same p fun hq => hp (hs p hq), h.pending, h.grade, h.fuses, h.canonical⟩

end Sys2Proof.Machine
end

