-- ==== Sys2Proof/WellFormed.lean ====
section
/-! DEFINITION. WellFormed.lean: which commands could come from the manual's agents. A station, an engine, a port or a function that
does not exist cannot be written down (Syntax.lean bounds it by its type); the numbers and byte lists that a type leaves free are
bounded here. The meanings do not rest on these checks: each one answers an ill-formed command too. -/

namespace Sys2Proof

/-- Bytes that a host read brought. -/
def sizeOfRead (h : HostRead) : Nat := match h with | some b => b.length | none => 0

/-- Bounds of an access to a unit: it stays within the unit's 64 bytes (R203). -/
def accessBounds (acc : UnitAccess) : List (Nat × Nat) :=
  match acc with
  | .read => []
  | .write bytes => [(bytes.length, 65)]
  | .modify off bytes => [(off + bytes.length, 65)]

/-- Bytes that a page read brought. -/
def sizeOfPage (h : PageRead) : Nat := match h with | .bytes b => b.length | .poisoned => 0 | .failed => 0

/-- The numbers of a command with what each has to stay below: jobs 4,096 (R263), streams of a Funnel 8 (R151), tags 192 (R189), map
entries 524,288 (R147), module addresses 2^40 (R201), flits 512 bytes (R300), frames of at most 64 KiB of payload (R303), sessions
16,384 (R252). -/
def operandBounds (i : Instr) : List (Nat × Nat) :=
  match i with
  | .nop _ => []
  | .endCode _ => []
  | .cset _ => []
  | .cmpset _ => []
  | .cload _ _ => []
  | .cloadWordArrival _ => []
  | .cstore _ => []
  | .loop _ => []
  | .mload _ => []
  | .ahdr _ _ => []
  | .esync _ _ => []
  | .xfer _ _ => []
  | .xgather _ _ => []
  | .fstream _ => []
  | .fclose _ => []
  | .gload _ _ _ => []
  | .gmac _ _ _ => []
  | .gkeydot _ _ _ => []
  | .wntt _ _ _ => []
  | .sadd _ _ _ => []
  | .ssub _ _ _ => []
  | .sneg _ _ _ => []
  | .saddc _ _ _ => []
  | .snegm _ _ _ => []
  | .smul _ _ _ => []
  | .smulc _ _ _ => []
  | .smac _ _ _ => []
  | .srescale _ _ _ => []
  | .smodsw _ _ _ => []
  | .ssum _ _ _ => []
  | .sload _ _ _ => []
  | .krefresh _ _ _ => []
  | .cxpose _ _ => []
  | .cauto _ _ => []
  | .cperm _ _ => []
  | .bextract _ _ => []
  | .bpack _ _ => []
  | .dispatch _ => []
  | .engineIssue _ _ => []
  | .instructionSignal _ _ => []
  | .remoteSignal _ _ => []
  | .staleAnswer _ => []
  | .griddlePass _ _ _ _ => []
  | .gkeydotBlock _ _ _ => []
  | .whiskStage _ _ _ => []
  | .kettleRotationStart _ _ stall => [(stall, 281474976710656)]
  | .kettleElementStep _ _ v => [(v.2, 281474976710656)]
  | .keySwitchRound _ _ v => [(v.2, 281474976710656)]
  | .bextractPass _ => []
  | .descriptorFetch _ _ _ => []
  | .descriptorStart _ _ => []
  | .chunkIssue _ _ => []
  | .chunkLand _ _ c _ => [(c, 192)]
  | .xferSignal _ _ => []
  | .hostDmaChunk _ _ c bytes _ _ => [(c, 192), (bytes.length, 4097)]
  | .streamOpen _ => []
  | .precheckDone _ j hdrs => [(j, 8)] ++ hdrs.map (fun h => (sizeOfPage h, 65))
  | .mapCacheFill _ m => [(m, 524288)]
  | .pageArrival _ j remote => [(j, 8), (sizeOfPage remote, 1048577)]
  | .keyRowLaunch _ waits => (waits.length, 5) :: waits.map fun w => (w, 4294967296)
  | .remotePantryAccess _ _ => []
  | .windowZeroingDone _ _ => []
  | .memUnitAccess ma acc => (ma, 1099511627776) :: accessBounds acc
  | .memCrcReread ma _ => [(ma, 1099511627776)]
  | .sieveRead _ _ _ => []
  | .bar2Access _ off len wr => [(off + len, 68719476737), (off + sizeOfRead wr, 68719476737)]
  | .stackTemperatureReading _ t => [(t, 256)]
  | .memZeroingDone _ => []
  | .marginPointTest _ _ => []
  | .jobAdmission j img btab ticket => [(j, 4096), (sizeOfRead img, 4294967296), (sizeOfRead btab, 8193), (sizeOfRead ticket, 65536)]
  | .stationPartComplete _ => []
  | .commitPoint j => [(j, 4096)]
  | .jobTimeLimit j => [(j, 4096)]
  | .jobAbortCleanup j => [(j, 4096)]
  | .mbxCtrlWrite _ _ => []
  | .doorbell _ _ => []
  | .requestEntryFetch _ entry => [(sizeOfRead entry, 257)]
  | .mbxCqHeadWrite _ _ => []
  | .completionEntryWrite _ => []
  | .vector0Timer _ => []
  | .bar0BadAccess _ off _ => [(off, 67108864)]
  | .deviceInfo _ => []
  | .funcConfig _ => []
  | .powerCap _ => []
  | .resetWarm _ => []
  | .resetCold _ => []
  | .stationReset _ => []
  | .memMargin _ => []
  | .monSnapshot _ => []
  | .sessionOpen _ => []
  | .sessionClose _ => []
  | .sessionModlist _ dma => [(sizeOfRead dma, 1025)]
  | .sessionQuery _ => []
  | .keysetRegister _ _ _ => []
  | .keysetVerify _ dma => [(sizeOfRead dma, 65536)]
  | .keysetActivate _ => []
  | .keysetRetire _ => []
  | .bufAlloc _ => []
  | .bufFree _ => []
  | .bufCommit _ => []
  | .bufQuery _ => []
  | .bufMap _ => []
  | .bufUnmap _ => []
  | .bufDma _ _ => []
  | .jobSubmit _ => []
  | .jobAbort _ => []
  | .jobQuery _ => []
  | .fwStage _ dma => [(sizeOfRead dma, 4294967296)]
  | .flashWriteDone _ => []
  | .fwActivate _ => []
  | .firmwareActivation => []
  | .drainTimeout => []
  | .attest _ => []
  | .fabConfig _ => []
  | .fabStatus _ => []
  | .fabExport _ => []
  | .fabUnexport _ => []
  | .pldmFirmwareUpdate image => [(sizeOfRead image, 4294967296)]
  | .portTrain _ => []
  | .capExchange _ _ => []
  | .mismatchRetry _ => []
  | .flitReceive _ flit => [(flit.length, 513)]
  | .flitReplayTimeout _ => []
  | .dataFrame _ frame => [(frame.length, 65605)]
  | .creditFrame _ frame => [(frame.length, 65605)]
  | .ackFrame _ frame => [(frame.length, 65605)]
  | .staleFrame _ frame => [(frame.length, 65605)]
  | .readFrame _ frame => [(frame.length, 65605)]
  | .rdataFrame _ frame => [(frame.length, 65605)]
  | .holdFrame _ frame => [(frame.length, 65605)]
  | .capFrame _ frame => [(frame.length, 65605)]
  | .frameRelay _ frame => [(frame.length, 65605)]
  | .endToEndRetransmit ses _ => [(ses, 16384)]
  | .holdTimer => []
  | .frameHoldLimit => []
  | .ethernetCapBroadcast _ => []
  | .sendDataFrame _ _ => []
  | .bndCtrlWrite _ _ => []
  | .bndInit _ => []
  | .bndFeed8 _ _ => []
  | .bndFeed16 _ _ => []
  | .bndFeed32 _ _ => []
  | .bndRunWrite _ _ _ => []
  | .bndAnextWrite _ _ => []
  | .bndAchk _ _ => []
  | .bndAstatClr _ => []
  | .bndResultRead _ _ => []
  | .mrtSubmit _ => []
  | .mrtCancel _ => []
  | .mrtResultRead => []
  | .mrtSlotWrite _ _ => []
  | .mrtMemWrite _ _ => []
  | .mortarJobStart => []
  | .mortarCheckPhaseEnd => []
  | .mortarYieldPoint => []
  | .mortarJobEnd => []
  | .mortarProgramLoad => []
  | .perstNAssert => []
  | .coldBoot => []
  | .watchdogExpiry => []
  | .imageConfirm => []
  | .configBlockWrite => []
  | .hotReset => []
  | .functionLevelReset _ => []
  | .p1PowerUp => []
  | .undervoltageLockout => []
  | .thermtrip => []
  | .referenceLoss _ => []
  | .powerCapSample watts mv10 frac => [(watts, 65536), (mv10, 65536), (frac, 65)]
  | .smbusAlertResponse => []
  | .tapInstruction _ => []
  | .monitorSample src i _ => [(src, 256), (i, 65536)]
  | .monCfgWrite _ _ _ => []
  | .snapshotFreeze => []
  | .errorLogWrite => []
  | .quarantinePass => []
  | .chkcntClr _ _ => []
  | .panEccClr _ => []
  | .memErrcntClr _ => []
  | .mbxChkcntClr _ => []
  | .fabLinkcntClr _ => []
  | .fabFrmcntClr _ => []
  | .registerWrite _ _ => []
  | .dieTemperatureReading temps => (temps.length, 9) :: temps.map fun t => (t, 256)
  | .portSignalLoss _ => []
  | .refclk100Present => []
  | .pfcFrame _ _ _ => []
  | .reservedFtypeFrame _ frame => [(frame.length, 65605)]

/-- The command is well formed. -/
def wellFormed (i : Instr) : Bool := (operandBounds i).all fun x => decide (x.1 < x.2)

end Sys2Proof
end

