-- ==== Sys2Proof/Laws/PerInstr.lean ====
section
/-! SUPPORT. PerInstr.lean: the bounds that a well-formed command keeps, one lemma for each constructor. -/

namespace Sys2Proof.Laws.OperandBounds

/-- Every number of a well-formed command is below its bound. -/
def Statement (i : Instr) : Prop := wellFormed i = true → ∀ x ∈ operandBounds i, x.1 < x.2

/-- What the check says, once for every command. -/
theorem of_wellFormed (i : Instr) : Statement i := fun h x hx => of_decide_eq_true (List.all_eq_true.mp h x hx)

theorem nop (st : Fin 16) : Statement (.nop st) := of_wellFormed _
theorem endCode (st : Fin 16) : Statement (.endCode st) := of_wellFormed _
theorem cset (st : Fin 16) : Statement (.cset st) := of_wellFormed _
theorem cmpset (st : Fin 16) : Statement (.cmpset st) := of_wellFormed _
theorem cload (st : Fin 16) (ecc : EccEvent) : Statement (.cload st ecc) := of_wellFormed _
theorem cloadWordArrival (st : Fin 16) : Statement (.cloadWordArrival st) := of_wellFormed _
theorem cstore (st : Fin 16) : Statement (.cstore st) := of_wellFormed _
theorem loop (st : Fin 16) : Statement (.loop st) := of_wellFormed _
theorem mload (st : Fin 16) : Statement (.mload st) := of_wellFormed _
theorem ahdr (st : Fin 16) (ecc : EccEvent) : Statement (.ahdr st ecc) := of_wellFormed _
theorem esync (st : Fin 16) (q : Fin 22) : Statement (.esync st q) := of_wellFormed _
theorem xfer (st : Fin 16) (e : Fin 4) : Statement (.xfer st e) := of_wellFormed _
theorem xgather (st : Fin 16) (e : Fin 4) : Statement (.xgather st e) := of_wellFormed _
theorem fstream (st : Fin 16) : Statement (.fstream st) := of_wellFormed _
theorem fclose (st : Fin 16) : Statement (.fclose st) := of_wellFormed _
theorem gload (st : Fin 16) (g : Fin 2) (ecc : EccEvent) : Statement (.gload st g ecc) := of_wellFormed _
theorem gmac (st : Fin 16) (g : Fin 2) (ecc : EccEvent) : Statement (.gmac st g ecc) := of_wellFormed _
theorem gkeydot (st : Fin 16) (g : Fin 2) (ecc : EccEvent) : Statement (.gkeydot st g ecc) := of_wellFormed _
theorem wntt (st : Fin 16) (g : Fin 2) (ecc : EccEvent) : Statement (.wntt st g ecc) := of_wellFormed _
theorem sadd (st : Fin 16) (g : Fin 2) (ecc : EccEvent) : Statement (.sadd st g ecc) := of_wellFormed _
theorem ssub (st : Fin 16) (g : Fin 2) (ecc : EccEvent) : Statement (.ssub st g ecc) := of_wellFormed _
theorem sneg (st : Fin 16) (g : Fin 2) (ecc : EccEvent) : Statement (.sneg st g ecc) := of_wellFormed _
theorem saddc (st : Fin 16) (g : Fin 2) (ecc : EccEvent) : Statement (.saddc st g ecc) := of_wellFormed _
theorem snegm (st : Fin 16) (g : Fin 2) (ecc : EccEvent) : Statement (.snegm st g ecc) := of_wellFormed _
theorem smul (st : Fin 16) (g : Fin 2) (ecc : EccEvent) : Statement (.smul st g ecc) := of_wellFormed _
theorem smulc (st : Fin 16) (g : Fin 2) (ecc : EccEvent) : Statement (.smulc st g ecc) := of_wellFormed _
theorem smac (st : Fin 16) (g : Fin 2) (ecc : EccEvent) : Statement (.smac st g ecc) := of_wellFormed _
theorem srescale (st : Fin 16) (g : Fin 2) (ecc : EccEvent) : Statement (.srescale st g ecc) := of_wellFormed _
theorem smodsw (st : Fin 16) (g : Fin 2) (ecc : EccEvent) : Statement (.smodsw st g ecc) := of_wellFormed _
theorem ssum (st : Fin 16) (g : Fin 2) (ecc : EccEvent) : Statement (.ssum st g ecc) := of_wellFormed _
theorem sload (st : Fin 16) (g : Fin 2) (ecc : EccEvent) : Statement (.sload st g ecc) := of_wellFormed _
theorem krefresh (st : Fin 16) (k : Fin 8) (ecc : EccEvent) : Statement (.krefresh st k ecc) := of_wellFormed _
theorem cxpose (st : Fin 16) (ecc : EccEvent) : Statement (.cxpose st ecc) := of_wellFormed _
theorem cauto (st : Fin 16) (ecc : EccEvent) : Statement (.cauto st ecc) := of_wellFormed _
theorem cperm (st : Fin 16) (ecc : EccEvent) : Statement (.cperm st ecc) := of_wellFormed _
theorem bextract (st : Fin 16) (ecc : EccEvent) : Statement (.bextract st ecc) := of_wellFormed _
theorem bpack (st : Fin 16) (ecc : EccEvent) : Statement (.bpack st ecc) := of_wellFormed _
theorem dispatch (st : Fin 16) : Statement (.dispatch st) := of_wellFormed _
theorem engineIssue (st : Fin 16) (q : Fin 22) : Statement (.engineIssue st q) := of_wellFormed _
theorem instructionSignal (st : Fin 16) (q : Fin 22 × EccEvent) : Statement (.instructionSignal st q) := of_wellFormed _
theorem remoteSignal (src : Fin 16) (dst : Fin 16) : Statement (.remoteSignal src dst) := of_wellFormed _
theorem staleAnswer (st : Fin 16) : Statement (.staleAnswer st) := of_wellFormed _
theorem griddlePass (st : Fin 16) (g : Fin 2) (v : Verdict) (ecc : EccEvent) : Statement (.griddlePass st g v ecc) := of_wellFormed _
theorem gkeydotBlock (st : Fin 16) (g : Fin 2) (v : Verdict × EccEvent) : Statement (.gkeydotBlock st g v) := of_wellFormed _
theorem whiskStage (st : Fin 16) (g : Fin 2) (v : Verdict) : Statement (.whiskStage st g v) := of_wellFormed _
theorem kettleRotationStart (st : Fin 16) (k : Fin 8) (stall : Nat) : Statement (.kettleRotationStart st k stall) := of_wellFormed _
theorem kettleElementStep (st : Fin 16) (k : Fin 8) (v : Verdict × Nat) : Statement (.kettleElementStep st k v) := of_wellFormed _
theorem keySwitchRound (st : Fin 16) (k : Fin 8) (v : Verdict × Nat) : Statement (.keySwitchRound st k v) := of_wellFormed _
theorem bextractPass (st : Fin 16) : Statement (.bextractPass st) := of_wellFormed _
theorem descriptorFetch (st : Fin 16) (e : Fin 4) (ecc : EccEvent) : Statement (.descriptorFetch st e ecc) := of_wellFormed _
theorem descriptorStart (st : Fin 16) (e : Fin 4) : Statement (.descriptorStart st e) := of_wellFormed _
theorem chunkIssue (st : Fin 16) (e : Fin 4 × EccEvent) : Statement (.chunkIssue st e) := of_wellFormed _
theorem chunkLand (st : Fin 16) (e : Fin 4) (c : Nat) (ecc : EccEvent) : Statement (.chunkLand st e c ecc) := of_wellFormed _
theorem xferSignal (st : Fin 16) (e : Fin 4) : Statement (.xferSignal st e) := of_wellFormed _
theorem hostDmaChunk (st : Fin 16) (e : Fin 4) (c : Nat) (bytes : List Byte) (crc : Word) (alive : Word) : Statement (.hostDmaChunk st e c bytes crc alive) := of_wellFormed _
theorem streamOpen (st : Fin 16) : Statement (.streamOpen st) := of_wellFormed _
theorem precheckDone (st : Fin 16) (j : Nat) (hdrs : List PageRead) : Statement (.precheckDone st j hdrs) := of_wellFormed _
theorem mapCacheFill (st : Fin 16) (m : Nat) : Statement (.mapCacheFill st m) := of_wellFormed _
theorem pageArrival (st : Fin 16) (j : Nat) (remote : PageRead) : Statement (.pageArrival st j remote) := of_wellFormed _
theorem keyRowLaunch (grp : Fin 64) (waits : List Nat) : Statement (.keyRowLaunch grp waits) := of_wellFormed _
theorem remotePantryAccess (src : Fin 16) (dst : Fin 16 × EccEvent) : Statement (.remotePantryAccess src dst) := of_wellFormed _
theorem windowZeroingDone (st : Fin 16) (w : Fin 4) : Statement (.windowZeroingDone st w) := of_wellFormed _
theorem memUnitAccess (ma : Nat) (acc : UnitAccess) : Statement (.memUnitAccess ma acc) := of_wellFormed _
theorem memCrcReread (ma : Nat) (fails : Fin 4) : Statement (.memCrcReread ma fails) := of_wellFormed _
theorem sieveRead (st : Fin 16) (e : Fin 4) (ecc : EccEvent) : Statement (.sieveRead st e ecc) := of_wellFormed _
theorem bar2Access (f : Fin 64) (off : Nat) (len : Nat) (wr : HostRead) : Statement (.bar2Access f off len wr) := of_wellFormed _
theorem stackTemperatureReading (site : Fin 8) (t : Nat) : Statement (.stackTemperatureReading site t) := of_wellFormed _
theorem memZeroingDone (ok : Bool) : Statement (.memZeroingDone ok) := of_wellFormed _
theorem marginPointTest (site : Fin 8) (pass : Bool) : Statement (.marginPointTest site pass) := of_wellFormed _
theorem jobAdmission (j : Nat) (img : HostRead) (btab : HostRead) (ticket : HostRead) : Statement (.jobAdmission j img btab ticket) := of_wellFormed _
theorem stationPartComplete (st : Fin 16) : Statement (.stationPartComplete st) := of_wellFormed _
theorem commitPoint (j : Nat) : Statement (.commitPoint j) := of_wellFormed _
theorem jobTimeLimit (j : Nat) : Statement (.jobTimeLimit j) := of_wellFormed _
theorem jobAbortCleanup (j : Nat) : Statement (.jobAbortCleanup j) := of_wellFormed _
theorem mbxCtrlWrite (f : Fin 64) (val : Word) : Statement (.mbxCtrlWrite f val) := of_wellFormed _
theorem doorbell (f : Fin 64) (val : Word) : Statement (.doorbell f val) := of_wellFormed _
theorem requestEntryFetch (f : Fin 64) (entry : HostRead) : Statement (.requestEntryFetch f entry) := of_wellFormed _
theorem mbxCqHeadWrite (f : Fin 64) (val : Word) : Statement (.mbxCqHeadWrite f val) := of_wellFormed _
theorem completionEntryWrite (f : Fin 64) : Statement (.completionEntryWrite f) := of_wellFormed _
theorem vector0Timer (f : Fin 64) : Statement (.vector0Timer f) := of_wellFormed _
theorem bar0BadAccess (f : Fin 64) (off : Nat) (isRead : Bool) : Statement (.bar0BadAccess f off isRead) := of_wellFormed _
theorem deviceInfo (f : Fin 64) : Statement (.deviceInfo f) := of_wellFormed _
theorem funcConfig (f : Fin 64) : Statement (.funcConfig f) := of_wellFormed _
theorem powerCap (f : Fin 64) : Statement (.powerCap f) := of_wellFormed _
theorem resetWarm (f : Fin 64) : Statement (.resetWarm f) := of_wellFormed _
theorem resetCold (f : Fin 64) : Statement (.resetCold f) := of_wellFormed _
theorem stationReset (f : Fin 64) : Statement (.stationReset f) := of_wellFormed _
theorem memMargin (f : Fin 64) : Statement (.memMargin f) := of_wellFormed _
theorem monSnapshot (f : Fin 64) : Statement (.monSnapshot f) := of_wellFormed _
theorem sessionOpen (f : Fin 64) : Statement (.sessionOpen f) := of_wellFormed _
theorem sessionClose (f : Fin 64) : Statement (.sessionClose f) := of_wellFormed _
theorem sessionModlist (f : Fin 64) (dma : HostRead) : Statement (.sessionModlist f dma) := of_wellFormed _
theorem sessionQuery (f : Fin 64) : Statement (.sessionQuery f) := of_wellFormed _
theorem keysetRegister (f : Fin 64) (dma : HostRead) (objs : List HostRead) : Statement (.keysetRegister f dma objs) := of_wellFormed _
theorem keysetVerify (f : Fin 64) (dma : HostRead) : Statement (.keysetVerify f dma) := of_wellFormed _
theorem keysetActivate (f : Fin 64) : Statement (.keysetActivate f) := of_wellFormed _
theorem keysetRetire (f : Fin 64) : Statement (.keysetRetire f) := of_wellFormed _
theorem bufAlloc (f : Fin 64) : Statement (.bufAlloc f) := of_wellFormed _
theorem bufFree (f : Fin 64) : Statement (.bufFree f) := of_wellFormed _
theorem bufCommit (f : Fin 64) : Statement (.bufCommit f) := of_wellFormed _
theorem bufQuery (f : Fin 64) : Statement (.bufQuery f) := of_wellFormed _
theorem bufMap (f : Fin 64) : Statement (.bufMap f) := of_wellFormed _
theorem bufUnmap (f : Fin 64) : Statement (.bufUnmap f) := of_wellFormed _
theorem bufDma (f : Fin 64) (dma : HostRead × PathEvent) : Statement (.bufDma f dma) := of_wellFormed _
theorem jobSubmit (f : Fin 64) : Statement (.jobSubmit f) := of_wellFormed _
theorem jobAbort (f : Fin 64) : Statement (.jobAbort f) := of_wellFormed _
theorem jobQuery (f : Fin 64) : Statement (.jobQuery f) := of_wellFormed _
theorem fwStage (f : Fin 64) (dma : HostRead) : Statement (.fwStage f dma) := of_wellFormed _
theorem flashWriteDone (ok : Bool) : Statement (.flashWriteDone ok) := of_wellFormed _
theorem fwActivate (f : Fin 64) : Statement (.fwActivate f) := of_wellFormed _
theorem firmwareActivation : Statement (.firmwareActivation) := of_wellFormed _
theorem drainTimeout : Statement (.drainTimeout) := of_wellFormed _
theorem attest (f : Fin 64) : Statement (.attest f) := of_wellFormed _
theorem fabConfig (f : Fin 64) : Statement (.fabConfig f) := of_wellFormed _
theorem fabStatus (f : Fin 64) : Statement (.fabStatus f) := of_wellFormed _
theorem fabExport (f : Fin 64) : Statement (.fabExport f) := of_wellFormed _
theorem fabUnexport (f : Fin 64) : Statement (.fabUnexport f) := of_wellFormed _
theorem pldmFirmwareUpdate (image : HostRead) : Statement (.pldmFirmwareUpdate image) := of_wellFormed _
theorem portTrain (p : Fin 14) : Statement (.portTrain p) := of_wellFormed _
theorem capExchange (p : Fin 14) (cap : CapRecord) : Statement (.capExchange p cap) := of_wellFormed _
theorem mismatchRetry (p : Fin 14) : Statement (.mismatchRetry p) := of_wellFormed _
theorem flitReceive (p : Fin 14) (flit : List Byte) : Statement (.flitReceive p flit) := of_wellFormed _
theorem flitReplayTimeout (p : Fin 14) : Statement (.flitReplayTimeout p) := of_wellFormed _
theorem dataFrame (p : Fin 14) (frame : List Byte) : Statement (.dataFrame p frame) := of_wellFormed _
theorem creditFrame (p : Fin 14) (frame : List Byte) : Statement (.creditFrame p frame) := of_wellFormed _
theorem ackFrame (p : Fin 14) (frame : List Byte) : Statement (.ackFrame p frame) := of_wellFormed _
theorem staleFrame (p : Fin 14) (frame : List Byte) : Statement (.staleFrame p frame) := of_wellFormed _
theorem readFrame (p : Fin 14) (frame : List Byte) : Statement (.readFrame p frame) := of_wellFormed _
theorem rdataFrame (p : Fin 14) (frame : List Byte) : Statement (.rdataFrame p frame) := of_wellFormed _
theorem holdFrame (p : Fin 14) (frame : List Byte) : Statement (.holdFrame p frame) := of_wellFormed _
theorem capFrame (p : Fin 14) (frame : List Byte) : Statement (.capFrame p frame) := of_wellFormed _
theorem frameRelay (p : Fin 14) (frame : List Byte) : Statement (.frameRelay p frame) := of_wellFormed _
theorem endToEndRetransmit (ses : Nat) (slot : Fin 8) : Statement (.endToEndRetransmit ses slot) := of_wellFormed _
theorem holdTimer : Statement (.holdTimer) := of_wellFormed _
theorem frameHoldLimit : Statement (.frameHoldLimit) := of_wellFormed _
theorem ethernetCapBroadcast (p : Fin 14) : Statement (.ethernetCapBroadcast p) := of_wellFormed _
theorem sendDataFrame (st : Fin 16) (e : Fin 4) : Statement (.sendDataFrame st e) := of_wellFormed _
theorem bndCtrlWrite (u : Fin 4) (val : Word) : Statement (.bndCtrlWrite u val) := of_wellFormed _
theorem bndInit (u : Fin 4) : Statement (.bndInit u) := of_wellFormed _
theorem bndFeed8 (u : Fin 4) (val : Word) : Statement (.bndFeed8 u val) := of_wellFormed _
theorem bndFeed16 (u : Fin 4) (val : Word) : Statement (.bndFeed16 u val) := of_wellFormed _
theorem bndFeed32 (u : Fin 4) (val : Word) : Statement (.bndFeed32 u val) := of_wellFormed _
theorem bndRunWrite (u : Fin 4) (hi : Bool) (val : Word) : Statement (.bndRunWrite u hi val) := of_wellFormed _
theorem bndAnextWrite (u : Fin 4) (val : Word) : Statement (.bndAnextWrite u val) := of_wellFormed _
theorem bndAchk (u : Fin 4) (val : Word) : Statement (.bndAchk u val) := of_wellFormed _
theorem bndAstatClr (u : Fin 4) : Statement (.bndAstatClr u) := of_wellFormed _
theorem bndResultRead (u : Fin 4) (reg : BndReg) : Statement (.bndResultRead u reg) := of_wellFormed _
theorem mrtSubmit (val : Word) : Statement (.mrtSubmit val) := of_wellFormed _
theorem mrtCancel (val : Word) : Statement (.mrtCancel val) := of_wellFormed _
theorem mrtResultRead : Statement (.mrtResultRead) := of_wellFormed _
theorem mrtSlotWrite (i : Fin 64) (val : Word) : Statement (.mrtSlotWrite i val) := of_wellFormed _
theorem mrtMemWrite (w : Fin 8192) (val : Dword) : Statement (.mrtMemWrite w val) := of_wellFormed _
theorem mortarJobStart : Statement (.mortarJobStart) := of_wellFormed _
theorem mortarCheckPhaseEnd : Statement (.mortarCheckPhaseEnd) := of_wellFormed _
theorem mortarYieldPoint : Statement (.mortarYieldPoint) := of_wellFormed _
theorem mortarJobEnd : Statement (.mortarJobEnd) := of_wellFormed _
theorem mortarProgramLoad : Statement (.mortarProgramLoad) := of_wellFormed _
theorem perstNAssert : Statement (.perstNAssert) := of_wellFormed _
theorem coldBoot : Statement (.coldBoot) := of_wellFormed _
theorem watchdogExpiry : Statement (.watchdogExpiry) := of_wellFormed _
theorem imageConfirm : Statement (.imageConfirm) := of_wellFormed _
theorem configBlockWrite : Statement (.configBlockWrite) := of_wellFormed _
theorem hotReset : Statement (.hotReset) := of_wellFormed _
theorem functionLevelReset (f : Fin 64) : Statement (.functionLevelReset f) := of_wellFormed _
theorem p1PowerUp : Statement (.p1PowerUp) := of_wellFormed _
theorem undervoltageLockout : Statement (.undervoltageLockout) := of_wellFormed _
theorem thermtrip : Statement (.thermtrip) := of_wellFormed _
theorem referenceLoss (ref : RefLoss) : Statement (.referenceLoss ref) := of_wellFormed _
theorem powerCapSample (watts : Nat) (mv10 : Nat) (frac : Nat) : Statement (.powerCapSample watts mv10 frac) := of_wellFormed _
theorem smbusAlertResponse : Statement (.smbusAlertResponse) := of_wellFormed _
theorem tapInstruction (ins : TapIns) : Statement (.tapInstruction ins) := of_wellFormed _
theorem monitorSample (src : Nat) (inst : Nat) (v : Nat) : Statement (.monitorSample src inst v) := of_wellFormed _
theorem monCfgWrite (u : Fin 64) (reg : MonReg) (val : Word) : Statement (.monCfgWrite u reg val) := of_wellFormed _
theorem snapshotFreeze : Statement (.snapshotFreeze) := of_wellFormed _
theorem errorLogWrite : Statement (.errorLogWrite) := of_wellFormed _
theorem quarantinePass : Statement (.quarantinePass) := of_wellFormed _
theorem chkcntClr (st : Fin 16) (eng : Fin 12) : Statement (.chkcntClr st eng) := of_wellFormed _
theorem panEccClr (st : Fin 16) : Statement (.panEccClr st) := of_wellFormed _
theorem memErrcntClr (site : Fin 8) : Statement (.memErrcntClr site) := of_wellFormed _
theorem mbxChkcntClr (f : Fin 64) : Statement (.mbxChkcntClr f) := of_wellFormed _
theorem fabLinkcntClr (p : Fin 14) : Statement (.fabLinkcntClr p) := of_wellFormed _
theorem fabFrmcntClr (p : Fin 14) : Statement (.fabFrmcntClr p) := of_wellFormed _
theorem registerWrite (reg : RegTarget) (val : Word) : Statement (.registerWrite reg val) := of_wellFormed _
theorem dieTemperatureReading (temps : List Nat) : Statement (.dieTemperatureReading temps) := of_wellFormed _
theorem portSignalLoss (p : Fin 14) : Statement (.portSignalLoss p) := of_wellFormed _
theorem refclk100Present : Statement (.refclk100Present) := of_wellFormed _
theorem pfcFrame (p : Fin 14) (prios : BitVec 8) (pause : Bool) : Statement (.pfcFrame p prios pause) := of_wellFormed _
theorem reservedFtypeFrame (p : Fin 14) (frame : List Byte) : Statement (.reservedFtypeFrame p frame) := of_wellFormed _

end Sys2Proof.Laws.OperandBounds
end

