-- ==== Sys2Proof/Machine/RegRead.lean ====
section
/-! DEFINITION. RegRead.lean: what reads of registers return: the capability registers, and the functions' BAR0 (R2, R3, R12, R84, R199,
R269, R276, R277, R283, R314, R350, R356, R383, R387). The table has no row for these reads, which change no state but the latched
halves of two counters; BND_RESULT_READ is a row of its own. -/

namespace Sys2Proof.Machine

/-! ## Capability registers -/

/-- GRD_CAP: KEYDOT, WIDTH, SLOTS, FUSED and ENABLED. -/
def State.grdCap (s : State) (st : Fin 16) (g : Fin 2) : Nat :=
  let on := s.griddleOn st g
  2 ^ 24 + (if on then s.stations[st].griddles[g].width else 0) * 2 ^ 16 + 8 * 2 ^ 12 +
    b2n (s.grade.fused.contains (2 * st.val + g.val)) * 2 + b2n on

/-- MEM_CAP: SLICES, CHANNELS, SITE and PRESENT; the registers of an absent stack read as 0. -/
def Grade.memCap (g : Grade) (site : Fin 8) : Nat :=
  if bitAt g.sites.toNat site.val then 96 * 2 ^ 24 + 16 * 2 ^ 16 + site.val * 2 ^ 8 + 1 else 0

/-- FAB_VER: the own version and the pod floor. -/
def State.fabVerReg (s : State) : Nat := s.fabVer * 2 ^ 8 + s.podFloor

/-- FAB_MODID. -/
def State.fabModid (s : State) : Nat := b2n s.fab.assigned * 2 ^ 31 + s.fab.modid.toNat

/-! ## BAR0 (R276, R277) -/

/-- The size of a function's BAR0: 64 MiB for the PF, 64 KiB for a VF. -/
def bar0Size (f : Fin 64) : Nat := if f = 0 then 2 ^ 26 else 2 ^ 16

/-- Crown is taking commands. -/
def State.readyBit (s : State) : Bool := s.boot.state == .ready
/-- A warm reset is in progress. -/
def State.resetBit (s : State) : Bool := s.boot.state == .activating

/-- A register of a function's mailbox page. -/
def State.mbxReg (s : State) (f : Fin 64) (off : Nat) : Nat :=
  let m := s.mbx[f]
  match off with
  | 0x00 => m.coalt.toNat * 2 ^ 16 + m.coaln.toNat * 2 ^ 8 + b2n m.en
  | 0x10 => m.base[0].toNat
  | 0x14 => m.base[1].toNat
  | 0x18 => m.base[2].toNat
  | 0x1C => m.base[3].toNat
  | 0x20 => m.rqTail.toNat
  | 0x24 => m.cqHead.toNat
  | 0x28 => b2n s.resetBit * 2 ^ 18 + b2n s.readyBit * 2 ^ 17 + b2n m.phase * 2 ^ 16 + m.rqHead.toNat * 2 ^ 8 + m.cqTail.toNat
  | 0x2C => m.rseq.toNat * 2 ^ 26 + m.check.toNat * 2 ^ 24 + m.alive.toNat * 2 ^ 8 + m.index.toNat
  | 0x30 => m.txnext.toNat * 2 ^ 16 + m.rxnext.toNat
  | 0x34 => m.crcCnt.toNat * 2 ^ 24 + m.repCnt.toNat * 2 ^ 16 + m.gapCnt.toNat * 2 ^ 8
  | _ => 0

/-- HST_DEVICE_STATUS. -/
def State.deviceStatus (s : State) : Nat :=
  b2n s.crown.quarSeen * 128 + b2n s.boot.bank * 64 + b2n s.boot.staged * 32 + b2n s.mem.margin * 16 + b2n s.resetBit * 8 +
    b2n s.mem.ready * 4 + b2n s.boot.cfgdef * 2 + b2n s.readyBit

/-- A register of a monitor unit. -/
def State.monReg (s : State) (u : Fin 64) (k : Nat) : Nat :=
  let x := s.mon.units[u]
  let live := x.active s.grade
  match k with
  | 0 => x.cfga.toNat
  | 1 => x.cfgb.toNat
  | 2 => x.cfgc.toNat
  | _ => (if live then srcClock x.src x.inst else 0) * 2 ^ 24 + b2n x.sat * 2 + b2n live

/-- A register of a Band unit of BAR0, once the writes that its read waits for have taken effect (R324). -/
def BndUnit.reg (x : BndUnit) (off : Nat) : Nat :=
  match off with
  | 0x00 => x.value .ctrl
  | 0x04 => x.value .status
  | 0x14 => x.value .runLo
  | 0x18 => x.value .runHi
  | 0x1C => x.value .resLo
  | 0x20 => x.value .resHi
  | 0x24 => x.value .anext
  | 0x2C => x.value .astat
  | _ => 0

/-- A CRN_ register. -/
def State.crnReg (s : State) (off : Nat) : Nat :=
  let jobs := fun (p : JobState → Bool) => (s.crown.jobs.filter fun j => p j.2.state).length
  match off with
  | 0x100 => (s.crown.sessions.filter fun x => x.2.body.state != .free).length
  | 0x104 => jobs (fun x => x == .aborting) * 2 ^ 16 + jobs fun x => x == .admitting || x == .running
  | 0x108 => s.crown.journal.length
  | 0x10C => s.crown.commits.toNat
  | 0x110 => s.mon.next.toNat % 2 ^ 32
  | 0x114 => s.mon.lost.toNat * 2 ^ 16 + s.mon.next.toNat / 2 ^ 32
  | 0x200 => s.boot.cfgsrc.toNat * 64 + b2n s.boot.recovery * 8 + b2n s.boot.fallback * 4 + b2n s.boot.trial * 2 + b2n s.boot.bank
  | 0x204 => s.fwVersion
  | 0x208 => field s.boot.header 5 1 * 2 ^ 8 + s.fuses.svnf
  | 0x20C => s.boot.pct.toNat * 2 ^ 16 + s.boot.reason.toNat * 2 ^ 8 + b2n s.boot.stageConfig * 2 + b2n s.crown.stage.isSome
  | _ =>
    if h : 0x120 ≤ off ∧ off < 0x160 then s.quarWord ⟨(off - 0x120) / 4, by omega⟩
    else if 0x300 ≤ off ∧ off < 0x3A0 then field (padTo 160 s.boot.meas.flatten) (off - 0x300) 4
    else 0

/-- The 256 bytes of an error-log entry (Table 22.4). -/
def LogEvt.bytes (e : LogEvt) (seq : Nat) : List Byte :=
  natLe 8 seq ++ [e.cls, e.code, e.srcKind, e.unit, e.station, e.func] ++ natLe 2 e.session.toNat ++ natLe 4 e.jobId.toNat ++
    zeros 4 ++ padTo 32 e.detail ++ zeros 200

/-- The word at an offset of the error-log ring; an entry not yet written is 0. -/
def State.logWord (s : State) (off : Nat) : Nat :=
  match s.mon.ring.get? (off / 256) with
  | some (n, e) => field (e.bytes n.toNat) (off % 256) 4
  | none => 0

/-- The aligned 32-bit word that a read of a function's BAR0 returns: a reserved offset reads as 0. -/
def State.bar0Word (s : State) (f : Fin 64) (off : Nat) : Nat :=
  if off < 0x4000 then s.mbxReg f off
  else if 0x8000 ≤ off ∧ off < 0x8200 then ((s.mbx[f].msix.get? ((off - 0x8000) / 4)).getD (if off % 16 = 12 then 1 else 0)).toNat
  else if off = 0xC000 then s.mbx[f].pba.toNat
  else if f ≠ 0 then 0
  else if off = 0x10000 then s.deviceStatus
  else if 0x10100 ≤ off ∧ off < 0x10180 then (s.band.toList.getD ((off - 0x10100) / 64) BndUnit.reset).reg (off % 64)
  else if h : 0x10400 ≤ off ∧ off < 0x10800 then s.monReg ⟨(off - 0x10400) / 16, by omega⟩ (off % 16 / 4)
  else if 0x20000 ≤ off ∧ off < 0x21000 then s.crnReg (off - 0x20000)
  else if 0x100000 ≤ off ∧ off < 0x200000 then s.logWord (off - 0x100000)
  else if 0x200000 ≤ off ∧ off < 0x204000 then field ((s.mon.area.get? ((off - 0x200000) / 256)).getD []) (off % 256) 4
  else 0

/-- A BAR0 read of 4 or 8 bytes, naturally aligned: 8 bytes cover two registers, the lower address first (R277). -/
def State.bar0Read (s : State) (f : Fin 64) (off len : Nat) : List Byte :=
  natLe 4 (s.bar0Word f off) ++ (if len = 8 then natLe 4 (s.bar0Word f (off + 4)) else [])

end Sys2Proof.Machine
end

