-- ==== Sys2Proof/Tests/Slice0.lean ====
section
/-! SUPPORT. Tests/Slice0.lean: for each statement with hypotheses a small state and operands that meet them, tests of single steps and
functions, and the commands that WellFormed refuses. Their states are small: a station, a session or a port, with what the statement
needs. -/

namespace Sys2Proof.Tests

open Sys2Proof.Machine

-- One theorem at a time: each of their evaluations takes a thread with a large stack.
set_option Elab.async false

/-! ## States to test on -/

/-- A running job of session 3 with a key set, at entry 0. -/
def theJob : Job := { Job.reset with
  gen := 1, state := .running, ses := 3, ktag := 7, stns := [0], admitted := true, limit := 5
  handles := [⟨0, true, 4096, 4096⟩] }

/-- Its key set: PS-T1 with PS-P1 of two limbs, tag 7. -/
def theKeys : KeySet := KsBody.fresh ⟨3, [0, 0, 1, 0x11, 1, 1, 1, 0] ++ zeros 120, .active, [], []⟩

/-- 469762049 = 7 × 2^26 + 1 with a root of order 2^18 (R50). -/
def theMod : ModEntry := ⟨469762049, 29, 17, 8, 10052677718266, 422997289, 44275780, 469758465, true⟩

/-- Descriptors with an address and a modulus index, and with a body (Table 13.7). -/
def addrDesc (a : Nat) (mod : Nat := 0) : BitVec 256 := BitVec.ofNat 256 (1 + mod * 2 ^ 32 + a * 2 ^ 64)
/-- A PARAM. -/
def paramDesc (body : Nat) : BitVec 256 := BitVec.ofNat 256 (2 + body * 2 ^ 128)

/-- A PARAM's body from its fields: lowest bit and value. -/
def fields (l : List (Nat × Nat)) : Nat := l.foldl (fun x p => x + p.2 * 2 ^ p.1) 0

/-- An instruction word: opcode, MODS, D0, D1, D2 (Table 13.5). -/
def word (op mods d0 d1 d2 : Nat) : BitVec 128 :=
  BitVec.ofNat 128 (op + mods * 2 ^ 14 + d0 * 2 ^ 56 + d1 * 2 ^ 80 + d2 * 2 ^ 104)

/-- A station that works for the job: window 0 is the whole of its Pantry, every region DUAL. -/
def stn (code : List (BitVec 128)) (descs : List (BitVec 256)) : Station := { Station.reset with
  held := true, epoch := 5, ses := 3, job := some 0, run := true, jobStns := [0, 1], code := code, descs := descs
  modtab := Vector.replicate 64 theMod
  pantry := { Pantry.reset with dual := 0xFF, wins := Vector.replicate 4 ⟨true, 512, 0⟩ } }

/-- A module that is ready, with the job running on station 0. -/
def base (t : Station) : State := { State.reset with
  boot := { Boot.reset with state := .ready }
  mem := { ModMem.reset with ready := true }
  crown := { Crown.reset with jobs := [(0, theJob)], keysets := [(7, theKeys)] }
  stations := State.reset.stations.set 0 t }

/-- The entry an instruction makes, in a phase, with check units to end. -/
def inPhase (p : Phase) (t : Station) (iw : BitVec 128) (left : Nat := 0) : QEntry :=
  { t.entryOf iw with phase := p, left := left }

/-- The module with one entry in one queue of station 0. -/
def withEntry (q : Fin 22) (t : Station) (e : QEntry) : State := base { t with queues := t.queues.set q [e] }

/-- The state after an outcome; a stop leaves the reset state. -/
def after (o : Host.Outcome State Fault Refusal) : State :=
  match o with
  | .next s => s
  | _ => State.reset

/-! ## The sequencer -/

/-- Counter 2, comparator 1; descriptor 1 a PARAM, descriptor 2 the last word of the window, descriptor 3 an address 0. -/
def seqStn (iw : BitVec 128) : Station := stn [iw] [0, paramDesc 0xFFFFFFFF, addrDesc (512 * 65536 - 8), addrDesc 0]

theorem witness_ControlOperations :
    ∀ op ∈ [0x01, 0x02, 0x03, 0x04, 0x07], (base (seqStn (word op 0x22 3 0 1))).Executes 0 op (word op 0x22 3 0 1) := by
  unfold State.Executes State.Specified; decide +kernel

theorem witness_ScratchpadWords :
    ∀ op ∈ [0x05, 0x06], (seqStn (word op 2 2 0 0)).ea (d0Of (word op 2 2 0 0)) = ((512 * 65536 - 8 : Nat) : Int) ∧
      (seqStn (word op 2 2 0 0)).Narrow (512 * 65536 - 8) ∧
      (base (seqStn (word op 2 2 0 0))).Executes 0 op (word op 2 2 0 0) := by
  unfold State.Executes State.Specified Station.Narrow; decide +kernel

theorem witness_ScratchpadWords_arrival :
    let l : LoadPend := ⟨word 5 2 2 0 0, 2, 0xFFFFFFFF00000001⟩
    let s := base { seqStn (word 5 2 2 0 0) with load := some l }
    (seqStn (word 5 2 2 0 0)).Narrow (512 * 65536 - 8) ∧ s.Specified ∧ s.jobRuns s.stations[0] = true ∧ s.stations[0].load = some l := by
  unfold State.Specified Station.Narrow; decide +kernel

/-- Fifteen entries wait in the queue that an instruction for the side queue enters: it has room for one more. -/
theorem witness_DispatchAndIssue :
    let iw := word 0x08 0 0 0 1
    let t := seqStn iw
    let s := base { t with queues := t.queues.set 0 (List.replicate 15 (inPhase .waiting t iw)) }
    s.Specified ∧ s.jobRuns s.stations[0] = true ∧ s.stations[0].run = true ∧ s.stations[0].load = none ∧
      s.stations[0].code[s.stations[0].pc]? = some iw ∧ (opOf iw = 0 ∨ 8 ≤ opOf iw) ∧
      s.stations[0].queues[s.stations[0].queueOf iw].length < 16 ∧ s.issuable 0 0 = some (0, inPhase .waiting t iw) := by
  unfold State.Specified; decide +kernel

theorem witness_SignalsAndPartEnd :
    let iw := word 0x0A 0 0 0 0
    let t := stn [iw] []
    let e := inPhase .running t iw
    let hdr : PendHdr := ⟨512, 1 :: zeros 63, true⟩
    -- a row that holds something else: the locked update finds that it no longer agrees
    let bad := { t with pantry := { t.pantry with mem := [(513, 1)] } }
    ((withEntry 0 t e).stations[0].signalable 0 = some (0, e) ∧ (t.putHdrs e.hdrs).isSome = true) ∧
      ((withEntry 0 bad { e with hdrs := [hdr] }).stations[0].signalable 0 = some (0, { e with hdrs := [hdr] }) ∧
        (withEntry 0 bad { e with hdrs := [hdr] }).stations[0].putHdrs [hdr] = none) ∧
      (base { t with ended := true }).jobRuns (base { t with ended := true }).stations[0] = true ∧
      ∀ q : Fin 22, (base { t with ended := true }).stations[0].queues[q] = [] := by
  decide +kernel

/-- A message of station 1 to station 0's role, and one to a role that has ended. -/
def netMsg (epoch : BitVec 16) (k : NetKind) : NetMsg := ⟨1, 0, 3, epoch, 9, k⟩

theorem witness_MessagesBetweenStations :
    let s := fun m => { base (stn [] []) with net := [m] }
    let sig := fun m : NetMsg => firstWith (fun n => n.isSignal && n.src == 1 && n.dst == 0) (s m).net
    let st0 := (base (stn [] [])).stations[0]
    sig (netMsg 5 (.signal 3 31)) = some (0, netMsg 5 (.signal 3 31)) ∧ sig (netMsg 4 (.signal 1 127)) = some (0, netMsg 4 (.signal 1 127)) ∧
      (st0.held = true ∧ st0.ses = 3 ∧ st0.epoch = 5) ∧
      firstWith (fun n : NetMsg => n.isStale && n.dst == 0) (s (netMsg 5 (.stale none))).net = some (0, netMsg 5 (.stale none)) ∧
      (base (stn [] [])).jobRuns st0 = true := by
  decide +kernel

/-- LOOP leaves the loop when its incremented counter reaches the comparator, and goes to D0's ADDR before (R227). -/
theorem test_loop_exits : (after (exec (.loop 0) (base (seqStn (word 7 2 3 0 0))))).stations[0].pc = 1 := by decide +kernel
theorem test_loop_branches :
    let t := { seqStn (word 7 2 3 0 0) with cmps := Vector.replicate 8 ⟨2, 0, 0⟩, pc := 0 }
    (after (exec (.loop 0) (base { t with descs := [0, 0, 0, addrDesc 9] }))).stations[0].pc = 9 := by decide +kernel

/-- CSTORE stores the counter zero-extended, so that CLOAD reads it back (R239). -/
theorem test_cstore :
    let t := { seqStn (word 6 2 2 0 0) with ctrs := Vector.replicate 32 0x80000001 }
    ((after (exec (.cstore 0) (base t))).stations[0].rd (512 * 65536 - 8) 8) = [1, 0, 0, 0x80, 0, 0, 0, 0] := by decide +kernel

/-! ## The engines -/

/-- A memory reads 0 above everything it lists. -/
theorem readN_above {m : Mem} {a n : Nat} (h : ∀ c ∈ m, c.1 < a) : ∀ b ∈ m.readN a n, b = 0 := by
  have one : ∀ (m : Mem) (a : Nat), (∀ c ∈ m, c.1 < a) → m.read a = 0 := by
    intro m
    induction m with
    | nil => intros; rfl
    | cons c m ih =>
      intro a h
      have h1 := h c (by simp)
      obtain ⟨k, b⟩ := c
      simp only [Mem.read]
      rw [if_neg (by simpa using Nat.ne_of_lt h1)]
      exact ih a fun c hc => h c (by simp [hc])
  induction n generalizing a with
  | zero => simp [Mem.readN]
  | succ n ih =>
    simp only [Mem.readN, List.mem_cons]
    rintro b (rfl | hb)
    · exact one m a h
    · exact ih (fun c hc => Nat.lt_succ_of_lt (h c hc)) b hb

/-- Zero bytes spell zero words. -/
theorem wordsOf_zero : ∀ l : List Byte, (∀ b ∈ l, b = 0) → ∀ w ∈ wordsOf l, w = 0
  | a :: b :: c :: d :: t, h, w, hw => by
    simp only [wordsOf, List.mem_cons] at hw
    rcases hw with rfl | hw
    · have := h a (by simp); have := h b (by simp); have := h c (by simp); have := h d (by simp)
      subst a b c d; rfl
    · exact wordsOf_zero t (fun x hx => h x (by simp [hx])) w hw
  | [], _, _, hw => by simp [wordsOf] at hw
  | [_], _, _, hw => by simp [wordsOf] at hw
  | [_, _], _, _, hw => by simp [wordsOf] at hw
  | [_, _, _], _, _, hw => by simp [wordsOf] at hw

/-- The words of a limb above everything a Pantry lists are 0. -/
theorem limbAt_zero {t : Station} {off n : Nat} (h : ∀ c ∈ t.pantry.mem, c.1 < t.phys off) : ∀ w ∈ t.limbAt off n, w = 0 := by
  intro w hw
  simp only [Station.limbAt, List.mem_map] at hw
  obtain ⟨x, hx, rfl⟩ := hw
  simp [wordsOf_zero _ (readN_above (n := 4 * n) h) x hx]

/-- Headers: a PS-T1 batch of one element, and a PS-P1 object of two limbs (Table 2.2). -/
def digitHdr (layout : Nat) : Hdr := Hdr.sized ⟨0x20, 0, 1, layout, 7, 0, 0, 0, 1, 0, 0⟩
/-- A packed ciphertext or plaintext. -/
def packedHdr (family layout : Nat) (scale : Nat := 0x100000) (level : Nat := 1) : Hdr :=
  Hdr.sized ⟨0x20, family, 0x11, layout, 7, level, 0, scale, 1, 0, 0⟩

/-- A Pantry that holds headers at window offsets, given in rising order. -/
def holding (hs : List (Nat × Hdr)) (t : Station) : Station :=
  { t with pantry := { t.pantry with mem := hs.foldl (fun m h => m.writeN h.1 h.2.bytes) [] } }

/-- Operands A, B, C at 0, 4 and 8 MiB (descriptors 1, 2, 3), and a PARAM (descriptor 4) that names C as XD. -/
def opStn (iw : BitVec 128) (body : Nat) (hs : List (Nat × Hdr)) : Station :=
  holding hs (stn [iw] [0, addrDesc 0, addrDesc 0x400000, addrDesc 0x800000, paramDesc body, 0])

/-- One entry of an opcode has issued on station 0. -/
def issuedState (q : Fin 22) (t : Station) (iw : BitVec 128) : State := withEntry q t (inPhase .issued t iw)

/-- A tile of zeros in S4 form loads slot 7 with PERCOL clear. -/
theorem witness_LoadsFillStores_gload :
    let iw := word 0x20 (7 + 3 * 32) 1 0 0
    let t := opStn iw 0 []
    let e := inPhase .issued t iw
    (issuedState (qGriddle 1) t iw).Issued 0 (qGriddle 1) 0x20 0 e ∧ e.ea0 = ((0 : Nat) : Int) ∧ t.inWin 0 (tileBytes 3) = true ∧
      (t.modAt (t.mod0 iw)).valid = true ∧
      ∀ f < 128, ∀ c < 128, weightOk (t.colMod false (t.mod0 iw) c) 3 (tileElem 3 false (t.rd 0 (tileBytes 3)) f c) = true := by
  refine ⟨by unfold State.Issued State.Specified; decide +kernel, by decide +kernel, by decide +kernel, by decide +kernel, ?_⟩
  intro f _ c _
  have h : (Station.modAt (opStn (word 0x20 (7 + 3 * 32) 1 0 0) 0 []) (Station.mod0 (opStn (word 0x20 (7 + 3 * 32) 1 0 0) 0 [])
    (word 0x20 (7 + 3 * 32) 1 0 0))).valid = true := by decide +kernel
  simp [weightOk, Station.colMod, h]

/-- SLOAD of the last cache row, tagged SGN. -/
theorem witness_LoadsFillStores_sload :
    let iw := word 0x4B 0 1 0 4
    let t := opStn iw (fields [(56, 127), (77, 1)]) []
    let e := inPhase .issued t iw
    let p := t.sklOf iw
    (issuedState (qSkillet 0) t iw).Issued 0 (qSkillet 0) 0x4B 0 e ∧ e.ea0 = ((0 : Nat) : Int) ∧ t.inWin 0 (512 * p.k) = true ∧
      p.crow + p.k = 128 ∧ p.sgn = true ∧ ∀ j < p.k, ∀ w ∈ wordsOf (t.rd (0 + 512 * j) 512), w.toInt.natAbs ≤ 2 ^ 15 := by
  refine ⟨by unfold State.Issued State.Specified; decide +kernel, by decide +kernel, by decide +kernel, by decide +kernel,
    by decide +kernel, ?_⟩
  intro j _ w hw
  rw [wordsOf_zero _ (readN_above (by intro c hc; cases hc)) w hw]
  decide

theorem witness_GriddleOperationsStart_gmac :
    let iw := word 0x21 0 1 2 4
    let t0 := opStn iw 0 [(0, digitHdr 3)]
    let t := { t0 with griddles := Vector.replicate 2 { Griddle.reset with
      slots := Vector.replicate 8 { Slot.reset with loaded := true } } }
    let s := issuedState (qGriddle 0) t iw
    let e := inPhase .issued t iw
    s.Issued 0 (qGriddle 0) 0x21 0 e ∧ gmacFault (s.stnKeySet t) (s.stnTag t) t 0 e = none := by
  unfold State.Issued State.Specified; decide +kernel

theorem witness_GriddleOperationsStart_gkeydot :
    let iw := word 0x22 0 1 2 4
    let t := opStn iw 3 [(0, packedHdr 1 1)]
    let s := issuedState (qGriddle 0) t iw
    let e := inPhase .issued t iw
    s.Issued 0 (qGriddle 0) 0x22 0 e ∧ keydotFault (s.stnKeySet t) (s.stnTag t) t e = none := by
  unfold State.Issued State.Specified; decide +kernel

theorem witness_WnttTransforms :
    let iw := word 0x30 0 1 2 4
    let t := opStn iw 0 [(0, packedHdr 1 0)]
    let s := issuedState (qWhisk 0) t iw
    let e := inPhase .issued t iw
    let p := t.wnttOf iw
    let h := Hdr.ofBytes (t.rd e.ea0.toNat 64)
    s.Issued 0 (qWhisk 0) 0x30 0 e ∧ wnttFault (s.stnKeySet t) (s.stnTag t) t e = none ∧
      ∀ jl ∈ t.wnttIn p h e.ea0.toNat, ∀ x ∈ jl.2, x < (t.modAt (p.mod + p.limb0 + jl.1)).q := by
  refine ⟨by unfold State.Issued State.Specified; decide +kernel, by decide +kernel, ?_⟩
  intro jl hj x hx
  simp only [Station.wnttIn, List.mem_flatMap, List.mem_map, List.mem_range] at hj
  obtain ⟨k, _, j, hj, rfl⟩ := hj
  rw [limbAt_zero (by
    intro c hc
    refine Nat.lt_of_lt_of_le (m := 512) ?_ (by simp only [Station.phys]; omega)
    revert c; decide +kernel) x hx]
  dsimp only; clear hx
  revert j; decide +kernel

/-- The station with nothing listed in its Pantry. -/
def blank (t : Station) : Station := { t with pantry := { t.pantry with mem := [] } }

theorem mem_eq_zero : ∀ l : List Byte, (∀ b ∈ l, b = 0) → l = zeros l.length
  | [], _ => rfl
  | b :: l, h => by
    rw [h b (by simp), List.length_cons, zeros, List.replicate_succ]
    exact congrArg _ (mem_eq_zero l fun x hx => h x (by simp [hx]))

theorem rd_blank {t : Station} {off n : Nat} (h : ∀ c ∈ t.pantry.mem, c.1 < t.phys off) : t.rd off n = (blank t).rd off n := by
  have h2 : ∀ c ∈ (blank t).pantry.mem, c.1 < (blank t).phys off := by intro c hc; cases hc
  rw [mem_eq_zero (t.rd off n) (readN_above h), mem_eq_zero ((blank t).rd off n) (readN_above h2)]
  simp only [Station.rd, Mem.length_readN]

theorem sklWrites_blank {t : Station} (h : ∀ c ∈ t.pantry.mem, c.1 < t.phys 512) (v : Fin 2) (p : Skl) (e : QEntry) (ha hb : Hdr) :
    t.sklWrites v p e ha hb = (blank t).sklWrites v p e ha hb := by
  have hc : ∀ q a b, t.canonRow q (a + 512 + b) = (blank t).canonRow q (a + 512 + b) := by
    intro q a b
    unfold Station.canonRow Station.row
    rw [rd_blank]
    intro c hc
    exact Nat.lt_of_lt_of_le (h c hc) (by simp only [Station.phys]; omega)
  have hm : ∀ i, t.modAt i = (blank t).modAt i := fun _ => rfl
  have hk : ∀ p r q, t.coefs v p r q = (blank t).coefs v p r q := fun _ _ _ => rfl
  have hw : ∀ r, t.crow v r = (blank t).crow v r := fun _ => rfl
  simp only [Station.sklWrites, Station.ssumWrites, Station.ssumTerm, Station.sklRow, Station.sklSecond, hc, hm, hk, hw]

/-- For each element-wise operation: A's header, and the PARAM's fields beside XD and B's descriptor, both A itself. SMUL and SMAC work
on EVAL products, SRESCALE on limb 0 of a packed ciphertext, SMODSW towards modulus entry 0. -/
def skilletForms : List (Nat × Hdr × List (Nat × Nat) × Nat) :=
  [(0x40, digitHdr 2, [], 1), (0x41, digitHdr 2, [], 1), (0x42, digitHdr 2, [], 0), (0x43, digitHdr 2, [], 0),
   (0x44, digitHdr 3, [], 0), (0x45, packedHdr 1 1, [(76, 1)], 1), (0x46, digitHdr 2, [(76, 1)], 0),
   (0x47, packedHdr 1 1 128, [(76, 1)], 1), (0x48, packedHdr 1 0 0x300000, [], 0), (0x49, digitHdr 2, [], 0), (0x4A, digitHdr 3, [], 0)]

/-- Station and word of a form: cache row 0 is loaded. -/
def skilletStn (x : Nat × Hdr × List (Nat × Nat) × Nat) : Station × BitVec 128 :=
  let iw := word x.1 0 1 x.2.2.2 4
  ({ opStn iw (fields ((0, 1) :: x.2.2.1)) [(0, x.2.1)] with
    skillets := Vector.replicate 2 ⟨[(0, ⟨false, List.replicate 128 1⟩)], 0⟩ }, iw)

/-- The entry of a form, and the module in which it has issued. -/
def skilletEntry (x : Nat × Hdr × List (Nat × Nat) × Nat) : QEntry := inPhase .issued (skilletStn x).1 (skilletStn x).2
/-- The module. -/
def skilletState (x : Nat × Hdr × List (Nat × Nat) × Nat) : State := issuedState (qSkillet 0) (skilletStn x).1 (skilletStn x).2

/-- The operands of a form. -/
def skilletIn (x : Nat × Hdr × List (Nat × Nat) × Nat) : SklIn :=
  (skilletStn x).1.sklIn ((skilletState x).stnKeySet (skilletStn x).1) ((skilletStn x).1.sklOf (skilletStn x).2) (skilletEntry x)

/-- The output header of a form. -/
def skilletOut (x : Nat × Hdr × List (Nat × Nat) × Nat) (free : Nat) : Hdr :=
  (skilletStn x).1.sklHdr 0 ((skilletStn x).1.sklOf (skilletStn x).2) (skilletIn x).ha (skilletIn x).hb (skilletIn x).hx
    ((((skilletState x).stnKeySet (skilletStn x).1).map KeySet.eKs).getD 0) free

/-- The check of a form's operands with an output header. -/
def skilletFault (x : Nat × Hdr × List (Nat × Nat) × Nat) (out : Hdr) : Option Byte :=
  sklFault (skilletStn x).1 0 ((skilletStn x).1.sklOf (skilletStn x).2) (skilletEntry x) (skilletIn x)
    ((skilletState x).stnTag (skilletStn x).1) out

theorem log2_theMod : Nat.log2 (469762049 ^ 2 ^ 17) = 3775837 := by
  refine (Nat.log2_eq_iff ?_).2 ⟨?_, ?_⟩
  · decide +kernel
  · decide +kernel
  · decide +kernel

theorem log2Fix_of {q l : Nat} (h : Nat.log2 (q ^ 2 ^ 17) = l) : log2Fix q = (l + 1) / 2 := by
  unfold log2Fix
  rw [h]

/-- log2 of the modulus in 16.16 fixed point (R43). -/
theorem log2Fix_theMod : log2Fix 469762049 = 1887919 := (log2Fix_of (q := 469762049) log2_theMod).trans (by decide)

/-- SRESCALE's SCALE loses log2 of the top modulus (R43). -/
theorem sklScale_rescale {t : Station} {p : Skl} {ha hb : Hdr} {free l : Nat} (hp : p.op = 0x48)
    (hl : log2Fix (t.modAt (p.mod + ha.level)).q = l) (h : l ≤ ha.scale) : t.sklScale p ha hb free = ha.scale - l := by
  unfold Station.sklScale
  rw [if_neg (by omega), if_pos hp]
  simp only [hl, if_pos h]

/-- The form of SRESCALE, and its output header. -/
def rescaleForm : Nat × Hdr × List (Nat × Nat) × Nat := (0x48, packedHdr 1 0 0x300000, [], 0)

theorem rescale_in : (skilletIn rescaleForm).ha = packedHdr 1 0 0x300000 := by decide +kernel

theorem rescale_mod : ((skilletStn rescaleForm).1.modAt (((skilletStn rescaleForm).1.sklOf (skilletStn rescaleForm).2).mod +
    (skilletIn rescaleForm).ha.level)).q = 469762049 := by decide +kernel

theorem rescale_scale (free : Nat) : (skilletStn rescaleForm).1.sklScale ((skilletStn rescaleForm).1.sklOf (skilletStn rescaleForm).2)
    (skilletIn rescaleForm).ha (skilletIn rescaleForm).hb free = (packedHdr 1 0 0x300000).scale - 1887919 := by
  have h := sklScale_rescale (hb := (skilletIn rescaleForm).hb) (free := free)
    (show ((skilletStn rescaleForm).1.sklOf (skilletStn rescaleForm).2).op = 0x48 by decide +kernel)
    ((congrArg log2Fix rescale_mod).trans log2Fix_theMod) (by rw [rescale_in]; decide +kernel)
  rw [h, rescale_in]

/-- SRESCALE's output header: the rescale noise of R43, and a SCALE of 19.2 bits. -/
theorem rescale_out (free : Nat) : skilletOut rescaleForm free = Hdr.sized { packedHdr 1 0 0x300000 with
    level := 0, noise := 175, scale := (packedHdr 1 0 0x300000).scale - 1887919 } := by
  have hn : (skilletStn rescaleForm).1.sklNoise 0 ((skilletStn rescaleForm).1.sklOf (skilletStn rescaleForm).2) (skilletIn rescaleForm).ha
    (skilletIn rescaleForm).hb (skilletIn rescaleForm).hx
      ((((skilletState rescaleForm).stnKeySet (skilletStn rescaleForm).1).map KeySet.eKs).getD 0) = 175 := by decide +kernel
  have hp : ((skilletStn rescaleForm).1.sklOf (skilletStn rescaleForm).2).op = 0x48 := by decide +kernel
  unfold skilletOut Station.sklHdr
  rw [hn, rescale_scale, if_pos (.inl hp), if_neg (by rw [hp]; decide), rescale_in]
  rfl

theorem skillet_issued : ∀ x ∈ skilletForms, (skilletState x).Issued 0 (qSkillet 0) x.1 0 (skilletEntry x) := by
  have h1 : ∀ x ∈ skilletForms, (skilletState x).power.unspecified = false := by decide +kernel
  have h2 : ∀ x ∈ skilletForms, (skilletState x).jobRuns (skilletState x).stations[(0 : Fin 16)] = true := by decide +kernel
  have h3 : ∀ x ∈ skilletForms, (skilletState x).stations[(0 : Fin 16)].issuedOp (qSkillet 0) x.1 = some (0, skilletEntry x) := by
    decide +kernel
  exact fun x hx => ⟨h1 x hx, h2 x hx, h3 x hx⟩

theorem skillet_rows : ∀ x ∈ skilletForms, ((skilletStn x).1.sklWrites 0 ((skilletStn x).1.sklOf (skilletStn x).2) (skilletEntry x)
    (skilletIn x).ha (skilletIn x).hb).isSome = true := by
  have h : ∀ x ∈ skilletForms, ((blank (skilletStn x).1).sklWrites 0 ((skilletStn x).1.sklOf (skilletStn x).2) (skilletEntry x)
    (skilletIn x).ha (skilletIn x).hb).isSome = true := by decide +kernel
  have hm : ∀ x ∈ skilletForms, ∀ c ∈ (skilletStn x).1.pantry.mem, c.1 < (skilletStn x).1.phys 512 := by decide +kernel
  intro x hx
  rw [sklWrites_blank (hm x hx)]
  exact h x hx

/-- Its SCALE stays at or above 0. -/
theorem rescale_below : (skilletStn rescaleForm).1.belowScale ((skilletStn rescaleForm).1.sklOf (skilletStn rescaleForm).2)
    (skilletIn rescaleForm).ha = false := by
  unfold Station.belowScale
  rw [rescale_mod, log2Fix_theMod, rescale_in]
  decide +kernel

theorem skillet_checks : ∀ x ∈ skilletForms, skilletFault x (skilletOut x (Config.freeNat 0)) = none := by
  have h : ∀ x ∈ skilletForms.eraseIdx 8, skilletFault x (skilletOut x (Config.freeNat 0)) = none := by decide +kernel
  have h8 : skilletFault rescaleForm (skilletOut rescaleForm (Config.freeNat 0)) = none := by
    rw [rescale_out]
    unfold skilletFault sklFault
    rw [rescale_below]
    decide +kernel
  intro x hx
  simp only [skilletForms, List.mem_cons, List.not_mem_nil, or_false] at hx
  rcases hx with rfl | rfl | rfl | rfl | rfl | rfl | rfl | rfl | rfl | rfl | rfl
  case inr.inr.inr.inr.inr.inr.inr.inr.inl => exact h8
  all_goals exact h _ (by simp [skilletForms, List.eraseIdx])

theorem witness_SkilletOperationsWrite : ∀ x ∈ skilletForms,
    let t := (skilletStn x).1
    let e := skilletEntry x
    let p := t.sklOf e.iw
    let d := t.sklIn ((skilletState x).stnKeySet t) p e
    ∃ ws, (skilletState x).Issued 0 (qSkillet 0) x.1 0 e ∧ t.sklWrites 0 p e d.ha d.hb = some ws ∧
      sklFault t 0 p e d ((skilletState x).stnTag t) (t.sklHdr 0 p d.ha d.hb d.hx
        ((((skilletState x).stnKeySet t).map KeySet.eKs).getD 0) (Config.freeNat (skilletState x).fresh)) = none := by
  intro x hx
  obtain ⟨ws, hw⟩ := Option.isSome_iff_exists.1 (skillet_rows x hx)
  exact ⟨ws, skillet_issued x hx, hw, skillet_checks x hx⟩

theorem witness_CardOperationsWrite_cxpose :
    let iw := word 0x60 0 1 2 4
    let t := opStn iw 0 [(0, digitHdr 2)]
    let s := issuedState qCard t iw
    let e := inPhase .issued t iw
    s.Issued 0 qCard 0x60 0 e ∧ cxposeFault (s.stnKeySet t) (s.stnTag t) t e = none := by
  unfold State.Issued State.Specified; decide +kernel

/-- CAUTO with the largest exponent, 2N - 1. -/
theorem witness_CardOperationsWrite_cauto :
    let iw := word 0x61 0 1 2 4
    let t := opStn iw 65535 [(0, packedHdr 1 1)]
    let s := issuedState qCard t iw
    let e := inPhase .issued t iw
    let h := Hdr.ofBytes (t.rd e.ea0.toNat 64)
    s.Issued 0 qCard 0x61 0 e ∧ cautoFault (s.stnKeySet t) (s.stnTag t) t e = none ∧
      ∀ m < h.polys * h.limbs, ∀ w ∈ t.limbAt (e.ea0.toNat + 512 + m * h.n * 4) h.n, w < (t.modAt (t.mod0 e.iw + m % h.limbs)).q := by
  refine ⟨by unfold State.Issued State.Specified; decide +kernel, by decide +kernel, ?_⟩
  intro m hm w hw
  rw [limbAt_zero (by
    intro c hc
    refine Nat.lt_of_lt_of_le (m := 512) ?_ (by simp only [Station.phys]; omega)
    revert c; decide +kernel) w hw]
  clear hw
  revert m; decide +kernel

/-- The identity table of a CPERM. -/
def permTable : List Byte := (List.range 128).flatMap fun i => natLe 2 i

/-- The station of a CPERM: source at 0, table at 4 MiB, destination at 8 MiB. -/
def permStn : Station :=
  let t := opStn (word 0x62 0 1 3 2) 0 []
  { t with pantry := { t.pantry with mem := (Mem.writeN [] 0 (digitHdr 3).bytes).writeN 0x400000 permTable } }

theorem perm_mem : permStn.pantry.mem = (Mem.writeN [] 0 (digitHdr 3).bytes).writeN 0x400000 permTable := by simp only [permStn]

theorem perm_read : permStn.rd 0x400000 256 = permTable := by
  have hl : permTable.length = 256 := by decide +kernel
  have hp : permStn.phys 0x400000 = 0x400000 := by decide +kernel
  unfold Station.rd
  rw [hp, perm_mem, ← hl]
  exact Mem.readN_writeN_same 0x400000 permTable (Mem.wf_writeN _ _ Mem.wf_nil)

theorem perm_fields : (List.range 128).map (permEntry permTable) = List.range 128 := by decide +kernel

theorem perm_entry : ∀ i < 128, permEntry permTable i = i := by
  intro i hi
  have h := congrArg (fun l => l[i]?) perm_fields
  simpa [hi] using h

theorem perm_ok : permOk permTable = true := by
  have h : ((List.range 128).map fun i => fld (permEntry permTable i) 0 7) = List.range 128 :=
    (List.map_congr_left fun i hi => by rw [perm_entry i (List.mem_range.1 hi)]).trans
      (by decide +kernel : (List.range 128).map (fun i => fld i 0 7) = List.range 128)
  unfold permOk
  rw [h]
  simp

theorem perm_plain : ((List.range 128).any fun i => fld (permEntry permTable i) 7 7 != 0) = false := by
  rw [List.any_eq_false]
  intro i hi
  rw [perm_entry i (List.mem_range.1 hi)]
  revert i
  decide +kernel

theorem witness_CardOperationsWrite_cperm :
    let t := permStn
    let iw := word 0x62 0 1 3 2
    let s := issuedState qCard t iw
    let e := inPhase .issued t iw
    let h := Hdr.ofBytes (t.rd e.ea0.toNat 64)
    s.Issued 0 qCard 0x62 0 e ∧ cpermFault (s.stnKeySet t) (s.stnTag t) t e = none ∧
      ∀ r < h.rows, ∀ w ∈ t.row (e.ea0.toNat + 512 + 512 * r), w < (t.modAt (t.mod0 e.iw + h.limbOfRow r)).q := by
  refine ⟨by unfold State.Issued State.Specified; decide +kernel, ?_, ?_⟩
  · have h : (inPhase .issued permStn (word 0x62 0 1 3 2)).ea2.toNat = 0x400000 := by decide +kernel
    simp only [cpermFault, h, perm_read, perm_ok, perm_plain]
    decide +kernel
  · intro r hr w hw
    have hb : Hdr.rows (Hdr.ofBytes (permStn.rd (inPhase .issued permStn (word 0x62 0 1 3 2)).ea0.toNat 64)) = 631 := by decide +kernel
    rw [hb] at hr
    rw [show (inPhase .issued permStn (word 0x62 0 1 3 2)).ea0.toNat = 0 by decide +kernel] at hw
    have h : ∀ b ∈ permStn.rd (0 + 512 + 512 * r) 512, b = 0 := by
      have hp : permStn.phys (0 + 512 + 512 * r) = 512 + 512 * r := by
        simp only [Station.phys, show permStn.window.baseAddr = 0 by decide +kernel]; omega
      unfold Station.rd
      rw [hp, perm_mem, Mem.readN_writeN_apart _ (.inl (by omega))]
      refine readN_above fun c hc => Nat.lt_of_lt_of_le (m := 512) ?_ (by omega)
      revert c; decide +kernel
    simp only [Station.row, List.mem_map] at hw
    obtain ⟨x, hx, rfl⟩ := hw
    rw [wordsOf_zero _ h x hx]
    clear hx h hb
    revert r; decide +kernel

theorem witness_RefreshAndConversionStart_krefresh :
    let iw := word 0x50 0 1 2 4
    let t := opStn iw (fields [(0, 3), (70, 1)]) [(0, digitHdr 2)]
    let s := issuedState (qKettle 7) t iw
    let e := inPhase .issued t iw
    let h := Hdr.ofBytes (t.rd e.ea0.toNat 64)
    let p := t.krefOf iw
    let ms := t.modsFrom p.mod (digitLimbs h.psid)
    s.Issued 0 (qKettle 7) 0x50 0 e ∧ krefFault (s.stnKeySet t) (s.stnTag t) t e = none ∧
      (∀ x < p.b, ∀ l < h.limbs, ∀ w ∈ t.lweWords h e.ea0.toNat (p.elem0 + x) l, w < (t.modAt (p.mod + l)).q) ∧
      tableOk h.psid p.f ms ((List.range p.f).map fun j => t.row (e.eaX.toNat + 512 * j)) = true := by
  refine ⟨by unfold State.Issued State.Specified; decide +kernel, by decide +kernel, ?_, by decide +kernel⟩
  intro x _ l hl w hw
  rw [limbAt_zero (by
    intro c hc
    refine Nat.lt_of_lt_of_le (m := 512) ?_ (by simp only [Station.phys]; omega)
    revert c; decide +kernel) w hw]
  clear hw
  revert l; decide +kernel

/-- A Blocker's operand is at 0 and its output at 8 MiB; the key set's objects are there. -/
def convStn (iw : BitVec 128) (body : Nat) (h : Hdr) : Station :=
  let t := opStn iw body [(0, h)]
  { t with funnel := { t.funnel with dir := [⟨3, 0, 0, 0, 0, 0, 1⟩, ⟨6, 0, 0, 0, 0, 1, 1⟩, ⟨6, 0, 0, 0, 1, 2, 1⟩] } }

theorem convScale_theMod : convScale 469762049 1 = 1691311 := by
  unfold convScale
  rw [log2Fix_theMod]
  decide +kernel

theorem witness_RefreshAndConversionStart_bextract :
    let iw := word 0x70 0 1 3 4
    let t := convStn iw (fields [(0, 1)]) (packedHdr 1 4 1691311)
    let s := issuedState qBlocker t iw
    let e := inPhase .issued t iw
    s.Issued 0 qBlocker 0x70 0 e ∧ bextFault (s.stnKeySet t) (s.stnTag t) t e = none := by
  intro iw t s e
  refine ⟨by unfold State.Issued State.Specified; decide +kernel, ?_⟩
  have h : convScale (t.modAt (t.bextOf e.iw).modp).q (t.bextOf e.iw).dps = 1691311 := by
    rw [show (t.modAt (t.bextOf e.iw).modp).q = 469762049 by decide +kernel, show (t.bextOf e.iw).dps = 1 by decide +kernel]
    exact convScale_theMod
  simp only [bextFault, h]
  decide +kernel

theorem witness_RefreshAndConversionStart_bpack :
    let iw := word 0x71 0 1 3 4
    let t := convStn iw (fields [(0, 0x11)]) (digitHdr 3)
    let s := issuedState qBlocker t iw
    let e := inPhase .issued t iw
    s.Issued 0 qBlocker 0x71 0 e ∧ bpkFault (s.stnKeySet t) (s.stnTag t) t e = none := by
  intro iw t s e
  refine ⟨by unfold State.Issued State.Specified; decide +kernel, ?_⟩
  have h : convScale (t.modAt (t.bpkOf e.iw).modp).q (Hdr.ofBytes (t.rd e.ea0.toNat 64)).psid = 1691311 := by
    rw [show (t.modAt (t.bpkOf e.iw).modp).q = 469762049 by decide +kernel, show (Hdr.ofBytes (t.rd e.ea0.toNat 64)).psid = 1 by decide +kernel]
    exact convScale_theMod
  simp only [bpkFault, Station.bpkHdr0, h]
  decide +kernel

theorem witness_SideQueueOperations_mload :
    let iw := word 0x08 0 0 0 1
    let t0 := stn [iw] [0, paramDesc (fields [(0, 63)])]
    let t := { t0 with modlist := [theMod] }
    let e := inPhase .issued t iw
    (issuedState 0 t iw).Issued 0 0 0x08 0 e ∧ t.param iw 0 6 + (t.param iw 13 6 + 1) = 64 ∧
      t.param iw 6 7 + (t.param iw 13 6 + 1) ≤ t.modlist.length := by
  unfold State.Issued State.Specified; decide +kernel

/-- AHDR with every fact asserted. -/
theorem witness_SideQueueOperations_ahdr :
    let iw := word 0x09 0 1 0 4
    let t := opStn iw (fields [(0, 31), (16, 2), (48, 1)]) [(0, digitHdr 2)]
    let s := issuedState 0 t iw
    let e := inPhase .issued t iw
    s.Issued 0 0 0x09 0 e ∧ ahdrFault (s.stnKeySet t) (s.stnTag t) t e = none := by
  unfold State.Issued State.Specified; decide +kernel

theorem witness_SideQueueOperations_esync :
    (issuedState 21 (stn [] []) (word 0x0A 0 0 0 0)).Issued 0 21 0x0A 0 (inPhase .issued (stn [] []) (word 0x0A 0 0 0 0)) := by
  unfold State.Issued State.Specified; decide +kernel

/-! ## Running operations -/

/-- The Pantry's count is one short of its bound. -/
theorem witness_PantryCodeFindings :
    let iw := word 0x4B 0 1 0 4
    let t0 := opStn iw 0 []
    let t := { t0 with pantry := { t0.pantry with corr := 0xFFFD } }
    (issuedState (qSkillet 0) t iw).Issued 0 (qSkillet 0) 0x4B 0 (inPhase .issued t iw) ∧ t.pantry.corr.toNat + 1 < 2 ^ 16 - 1 ∧
      t.job = some 0 ∧ (issuedState (qSkillet 0) t iw).crown.jobs.get? 0 = some theJob ∧ theJob.state = .running := by
  unfold State.Issued State.Specified; decide +kernel

/-- A running entry with a header to come and one check unit left. -/
def running (t : Station) (iw : BitVec 128) (h : Hdr) : QEntry := { inPhase .running t iw 1 with hdrs := [⟨0, h.bytes, false⟩] }

/-- The one pass of a one-row GMAC on a Pantry of zeros; the first Barrett quotient that R55's widths admit. -/
theorem witness_PassesEnd_gmac :
    let iw := word 0x21 0 1 2 4
    let t := opStn iw 0 []
    let e := running t iw (digitHdr 3)
    let s := withEntry (qGriddle 0) t e
    s.isBorrowed 0 (qGriddle 0) = false ∧ s.Running 0 (qGriddle 0) 0x21 0 e ∧ t.passOk (t.gmacOf e.iw) e.ea0.toNat e.done = true ∧
      t.pantry.mem.wf = true ∧ 2 ^ 20 < 469762049 ∧ 469762049 < 2 ^ 31 ∧ 2 ^ 72 - 1 < 2 ^ 72 := by
  unfold State.Running State.Specified; decide +kernel

/-- The last stage of a WNTT's second limb. -/
theorem witness_PassesEnd_whisk :
    let iw := word 0x30 0 1 2 4
    let t := opStn iw 0 []
    let e := { running t iw (packedHdr 1 1) with done := 29 }
    let h := Hdr.ofBytes ((e.hdrs.headD ⟨0, [], false⟩).bytes)
    (withEntry (qWhisk 1) t e).isBorrowed 0 (qWhisk 1) = false ∧ (withEntry (qWhisk 1) t e).Running 0 (qWhisk 1) 0x30 0 e ∧
      (t.wnttOf e.iw).both = false ∧ e.done < stagesOf h (h.polys * (t.wnttOf e.iw).limbs) := by
  unfold State.Running State.Specified; decide +kernel

/-- A block of GKEYDOT with D = 1: a row pair of key words has come. -/
theorem witness_PassesEnd_gkeydotBlock :
    let iw := word 0x22 0 1 2 4
    let t0 := opStn iw 3 []
    let t := { t0 with griddles := Vector.replicate 2 { Griddle.reset with keyFifo := List.replicate 256 0 } }
    let e := running t iw (packedHdr 1 1)
    let s := withEntry (qGriddle 0) t e
    let h := Hdr.ofBytes ((e.hdrs.headD ⟨0, [], false⟩).bytes)
    s.isBorrowed 0 (qGriddle 0) = false ∧ s.Running 0 (qGriddle 0) 0x22 0 e ∧ 256 * t.kdD e.iw ≤ t.griddles[0].keyFifo.length ∧
      ∀ r ∈ (List.range (t.kdD e.iw)).map (fun k => t.row (e.ea0.toNat + 512 + (k * t.kdStride e.iw + e.done) * 512)),
        ∀ x ∈ r, x < (t.modAt (t.mod0 e.iw + e.done / (h.n / 128))).q := by
  refine ⟨by decide +kernel, by unfold State.Running State.Specified; decide +kernel, by decide +kernel, ?_⟩
  intro r hr x hx
  simp only [List.mem_map] at hr
  obtain ⟨k, _, rfl⟩ := hr
  simp only [Station.row, List.mem_map] at hx
  obtain ⟨w, hw, rfl⟩ := hx
  rw [wordsOf_zero _ (readN_above (by intro c hc; cases hc)) w hw]
  decide +kernel

/-- Kettle 2 in a phase of a PS-T1 refresh of two inputs, with the key words of step 0 and of one round. -/
def kettleStn (ph : KPhase) : Station :=
  let t := opStn (word 0x50 0 1 2 4) 0 []
  { t with kettles := Vector.replicate 8 { Kettle.reset with
      phase := ph, psid := 1, batch := 2, funcs := 1, accs := [⟨[], []⟩, ⟨[], []⟩], entry := [[0], [0]]
      kbuf0 := List.replicate 12288 0, ksq := List.replicate 3155 0 } }

/-- The refresh that runs on it. -/
def kettleRun (ph : KPhase) : QEntry := inPhase .running (kettleStn ph) (word 0x50 0 1 2 4) 3

theorem kettle_held (ph : KPhase) : (kettleStn ph).kettles[(2 : Fin 8)].stepHeld 0 = true := by
  have h : (kettleStn ph).kettles[(2 : Fin 8)].kbuf 0 = List.replicate 12288 0 := rfl
  have h2 : (kettleStn ph).kettles[(2 : Fin 8)].psid = 1 := rfl
  rw [Kettle.stepHeld, h, h2, List.length_replicate]
  decide

theorem kettle_round (ph : KPhase) : roundWords (kettleStn ph).kettles[(2 : Fin 8)].psid ≤ (kettleStn ph).kettles[(2 : Fin 8)].ksq.length := by
  have h : (kettleStn ph).kettles[(2 : Fin 8)].ksq = List.replicate 3155 0 := rfl
  have h2 : (kettleStn ph).kettles[(2 : Fin 8)].psid = 1 := rfl
  rw [h, h2, List.length_replicate]
  decide

theorem witness_RefreshSteps : ∀ ph ∈ [KPhase.initialise, .rotation, .keySwitch],
    (withEntry (qKettle 2) (kettleStn ph) (kettleRun ph)).Running 0 (qKettle 2) 0x50 0 (kettleRun ph) ∧
      (kettleStn ph).kettles[(2 : Fin 8)].phase = ph ∧ (kettleStn ph).kettles[(2 : Fin 8)].step = 0 ∧
      (kettleStn ph).kettles[(2 : Fin 8)].stepHeld 0 = true ∧
      (withEntry (qKettle 2) (kettleStn ph) (kettleRun ph)).isBorrowed 0 (qKettle 2) = false ∧
      roundWords (kettleStn ph).kettles[(2 : Fin 8)].psid ≤ (kettleStn ph).kettles[(2 : Fin 8)].ksq.length := by
  intro ph hp
  have h : ∀ ph ∈ [KPhase.initialise, .rotation, .keySwitch],
      (withEntry (qKettle 2) (kettleStn ph) (kettleRun ph)).Running 0 (qKettle 2) 0x50 0 (kettleRun ph) ∧
      (kettleStn ph).kettles[(2 : Fin 8)].phase = ph ∧ (kettleStn ph).kettles[(2 : Fin 8)].step = 0 ∧
      (withEntry (qKettle 2) (kettleStn ph) (kettleRun ph)).isBorrowed 0 (qKettle 2) = false := by
    unfold State.Running State.Specified; decide +kernel
  obtain ⟨h1, h2, h3, h4⟩ := h ph hp
  exact ⟨h1, h2, h3, kettle_held ph, h4, kettle_round ph⟩

theorem witness_RefreshSteps_bextractPass :
    let iw := word 0x70 0 1 3 4
    let t0 := convStn iw 1 (packedHdr 1 4)
    let t := { t0 with blocker := { t0.blocker with phase := 2, keys := List.replicate 3230720 0 } }
    let e := running t iw (digitHdr 2)
    (withEntry qBlocker t e).Running 0 qBlocker 0x70 0 e ∧ t.blocker.phase = 2 ∧ t.blocker.keys.length = convWords (t.bextOf e.iw).dps := by
  refine ⟨by unfold State.Running State.Specified; decide +kernel, rfl, ?_⟩
  rw [List.length_replicate]
  decide +kernel

/-- A replay count one short of its bound. -/
theorem witness_CheckReplays :
    let t := { kettleStn .rotation with chk := Vector.replicate 12 { ChkCnt.reset with replays := 0xFFFD } }
    let s := withEntry (qKettle 2) t (kettleRun .rotation)
    s.Running 0 (qKettle 2) 0x50 0 (kettleRun .rotation) ∧ s.stations[(0 : Fin 16)].kettles[(2 : Fin 8)].phase = .rotation ∧
      s.stations[(0 : Fin 16)].kettles[(2 : Fin 8)].stepHeld 0 = true ∧ s.stations[(0 : Fin 16)].chk[(6 : Fin 12)].replays.toNat < 2 ^ 16 - 2 ∧
      s.stations[(0 : Fin 16)].job = some 0 ∧ s.stations[(0 : Fin 16)].held = true ∧ s.crown.jobs.get? 0 = some theJob ∧
      s.mon.queue.length < 255 := by
  refine ⟨by unfold State.Running State.Specified; decide +kernel, by decide +kernel, ?_, by decide +kernel⟩
  have h := kettle_held .rotation
  rw [← show (withEntry (qKettle 2) { kettleStn .rotation with chk := Vector.replicate 12 { ChkCnt.reset with replays := 0xFFFD } }
    (kettleRun .rotation)).stations[(0 : Fin 16)].kettles[(2 : Fin 8)] = (kettleStn .rotation).kettles[(2 : Fin 8)] from rfl] at h
  exact h

/-! ## Stream engines -/

/-- A descriptor of Table 11.2: kind, flags, source and destination space, length. -/
def dsc (kind flags src dst len : Nat) (soff : Nat := 0) (doff : Nat := 0x400000) : List Byte :=
  natLe 1 kind ++ natLe 1 flags ++ natLe 1 (src + 16 * dst) ++ [0] ++ natLe 4 len ++ natLe 8 soff ++ natLe 8 doff ++ zeros 8

/-- XFER with its list at the window's end and in a buffer; XGATHER; FSTREAM of one part; FCLOSE. -/
theorem witness_StreamOperationsStart :
    let xfer := word 0x10 0 1 0 4
    let t := stn [] [0, addrDesc (512 * 65536 - 32), 4, addrDesc 0x800000, paramDesc 0]
    let inBuf := word 0x10 0 2 0 4
    let gather := word 0x11 0 3 0 4
    (withEntry (qStream 0) t (inPhase .issued t xfer)).Issued 0 (qStream 0) 0x10 0 (inPhase .issued t xfer) ∧
      ((inPhase .issued t xfer).ea0 % 32 = 0 ∧ t.inWin (inPhase .issued t xfer).ea0 (32 * t.ndesc xfer) = true) ∧
      (withEntry (qStream 0) t (inPhase .issued t inBuf)).Issued 0 (qStream 0) 0x10 0 (inPhase .issued t inBuf) ∧ t.listInMem inBuf = true ∧
      (withEntry (qStream 3) t (inPhase .issued t gather)).Issued 0 (qStream 3) 0x11 0 (inPhase .issued t gather) ∧
      (inPhase .issued t gather).ea0 % 512 = 0 ∧ (inPhase .issued t gather).eaX % 512 = 0 ∧
      t.inWin (inPhase .issued t gather).ea0 (ceilDiv (t.nidx gather) 128 * 512) = true ∧
      t.inWin (inPhase .issued t gather).eaX (ceilDiv (t.nidx gather) 16 * 512) = true ∧
      ((withEntry (qStream 3) t (inPhase .issued t gather)).handleOf t (t.gatherHandle gather)).isSome = true := by
  unfold State.Issued State.Specified; decide +kernel

/-- A station that leads streams of relinearisation key 0, one page at map entry 0, for group 5. -/
def funnelStn : Station :=
  let t := stn [] [0, addrDesc 0, addrDesc 4, 0, paramDesc (fields [(2, 1)])]
  { t with gmap := [5], funnel := { t.funnel with dir := [⟨4, 0, 0, 1, 0, 0, 1⟩] } }

theorem witness_StreamOperationsStart_streams :
    let t := funnelStn
    let open_ := inPhase .issued t (word 0x18 0 1 2 4)
    let close := inPhase .issued t (word 0x19 0 1 0 0)
    let s := withEntry qFunnel t open_
    let s' := withEntry qFunnel t close
    s.Issued 0 qFunnel 0x18 0 open_ ∧ fstreamFault (s.stnKeySet t) t open_.iw = none ∧
      s'.Issued 0 qFunnel 0x19 0 close ∧ s'.streamOf (t.groupOf close.iw) = none := by
  unfold State.Issued State.Specified; decide +kernel

/-- A list in the window whose second descriptor is a fence; a copy and the longest ZERO; an XFER that has ended. -/
theorem witness_DescriptorsStart :
    let iw := word 0x10 0 1 0 4
    let t := stn [] [0, addrDesc 0, 0, 0, paramDesc 2]
    let q := inPhase .running t iw 3
    let ended := { inPhase .running t iw with landed := 3 }
    let at_ := fun b => { t with ses4 := Vector.replicate 4 { StreamEng.reset with ahead := [⟨0, 0, b⟩] } }
    (withEntry (qStream 0) t q).Running 0 (qStream 0) 0x10 0 q ∧ t.ses4[(0 : Fin 4)].fencing = false ∧ t.listInMem q.iw = false ∧
      q.ea0 + 32 * (q.fetched : Int) = ((0 : Nat) : Int) ∧
      (∀ b ∈ [dsc 0 0 0 0 512, dsc 1 1 6 0 (2 ^ 24)], (at_ b).ses4[(1 : Fin 4)].startable = some ⟨0, 0, b⟩ ∧ dscKind b < 2 ∧
        (base (at_ b)).dscFault 0 b = none ∧ (base (at_ b)).jobRuns (at_ b) = true) ∧
      ({ t with queues := t.queues.set (qStream 1) [ended] }).xferEnded 1 = some ended := by
  unfold State.Running State.Specified; decide +kernel

/-- A copy of 8 KiB, within the window, from the host and from a buffer's end, and a ZERO: the second chunk issues. -/
theorem witness_ChunksMove_issue :
    ∀ b ∈ [dsc 0 0 0 0 8192, dsc 0 0 4 0 8192, dsc 1 0 6 0 8192, dsc 0 0 2 0 4096],
      let r : RDesc := ⟨0, 0, b, 0, 0, 0⟩
      let x := { StreamEng.reset with run := [r] }
      let t := { stn [] [] with ses4 := Vector.replicate 4 x }
      (base t).Specified ∧ (base t).jobRuns t = true ∧ x.issuing = some r ∧ x.run? r.xid r.idx = some r ∧
        (dscDst r.bytes).space ≠ spRpantry ∧ x.chunks = [] ∧
        ((dscSrc b).space = spMem → (base t).handleOf t (dscSrc b).handle = some ⟨0, true, 4096, 4096⟩ ∧
          (base t).poisonIn (4096 + (dscSrc b).off + r.issued) r.chunkLen = []) := by
  unfold State.Specified; decide +kernel

/-- The first chunk of a copy lands, in the window and at a buffer's end; one of 448 bytes leaves its last row to the next chunk. -/
theorem witness_ChunksMove_land :
    let one : List Byte → Nat → RDesc := fun b n => ⟨0, 0, b, n, 0, 0⟩
    let k : Nat → Chunk := fun n => ⟨0, 0, 0, n, some (zeros n), 0, false⟩
    let x := fun b n => { StreamEng.reset with run := [one b n], chunks := [k n, ⟨0, 0, n, 64, some (zeros 64), 0, false⟩] }
    let t := fun b n => { stn [] [] with ses4 := Vector.replicate 4 (x b n) }
    ∀ p ∈ [(dsc 0 0 0 0 512, 512), (dsc 0 0 0 2 4096 3584 3584, 512), (dsc 0 0 2 0 4096 3648, 448)],
      (base (t p.1 p.2)).jobRuns (t p.1 p.2) = true ∧ ((x p.1 p.2).landable 0).isSome = true ∧ dscKind p.1 ≠ 3 ∧
        ((dscDst p.1).space = spMem → (base (t p.1 p.2)).handleOf (t p.1 p.2) (dscDst p.1).handle = some ⟨0, true, 4096, 4096⟩) := by
  decide +kernel

/-- The row that two chunks share is written once, whole, with the first one's bytes (R167, R177). -/
theorem test_shared_row :
    let k : Chunk := ⟨0, 0, 0, 448, some (zeros 448), 0, false⟩
    let next : Chunk := ⟨0, 0, 448, 64, some (List.replicate 64 1), 0, false⟩
    { StreamEng.reset with chunks := [k, next] }.wholeRows k (zeros 448) = (0, zeros 448 ++ List.replicate 64 1) := by
  decide +kernel

/-- An index at the end of its buffer; the last read fills a row. -/
theorem witness_ChunksMove_sieveRead :
    let iw := word 0x11 0 1 2 4
    let t0 := stn [] [0, addrDesc 0, 0, addrDesc 0x800000, paramDesc (fields [(0, 3), (24, 1)])]
    let t := { t0 with pantry := { t0.pantry with mem := [(0, 127)] } }
    let h : Handle := ⟨0, true, 4096, 4096⟩
    ∀ left ∈ [1, 2],
      let q := inPhase .running t iw left
      let s := withEntry (qStream 0) t q
      s.Running 0 (qStream 0) 0x11 0 q ∧ gatherFree 0 s t q = true ∧ s.handleOf t (t.gatherHandle q.iw) = some h ∧ q.done = 0 ∧
        32 * leNat (slice (t.rd (q.ea0.toNat + 4 * q.done) 512) 0 4) + 32 = h.len ∧ s.poisonIn (h.addr + 32 * 127) 32 = [] ∧
        q.acc = [] := by
  unfold State.Running State.Specified; decide +kernel

/-- A HOST read of four bytes: its alive value agrees, its CRC fails once and again, its alive value repeats, or leaves a gap. -/
theorem witness_HostChunks :
    let b := dsc 0 0 4 0 512
    let r : RDesc := ⟨0, 0, b, 4, 0, 0⟩
    let k : Bool → Chunk := fun again => ⟨0, 0, 0, 4, none, 0, again⟩
    let bytes : List Byte := [1, 2, 3, 4]
    let crc := fun alive : Word => BitVec.ofNat 32 (crc32c (bytes ++ natLe 4 alive.toNat))
    let x := fun n again => { StreamEng.reset with run := [r], chunks := [k again], bandNext := n }
    let t := fun n again => { stn [] [] with ses4 := Vector.replicate 4 (x n again) }
    (∀ m ∈ [0xFFFFFFFF, 0, 0x80000000], ∀ again ∈ [false, true], let n : Word := BitVec.ofNat 32 m; (base (t n again)).jobRuns (t n again) = true ∧
      (t n again).ses4[(3 : Fin 4)].hostChunk 0 = some (k again, r) ∧ waitsHost (k again) r = true ∧
      (x n again).chunk? 0 0 0 = some (k again)) ∧
      bytes.length = (k false).len ∧ crc32c (bytes ++ natLe 4 (0xFFFFFFFF : Word).toNat) = (crc 0xFFFFFFFF).toNat ∧
      ¬ crc32c (bytes ++ natLe 4 (0xFFFFFFFF : Word).toNat) = (0 : Word).toNat ∧ (x 0 false).bandNext = (0xFFFFFFFF : Word) + 1 ∧
      aliveClass 32 (0x80000000 : Word).toNat (0xFFFFFFFF : Word).toNat = .gap := by
  decide +kernel

/-- A chunk for the host with its bytes. -/
theorem witness_HostChunks_write :
    let r : RDesc := ⟨0, 0, dsc 0 0 0 4 512, 4, 0, 0⟩
    let k : Chunk := ⟨0, 0, 0, 4, some [1, 2, 3, 4], 0, false⟩
    let t := { stn [] [] with ses4 := Vector.replicate 4 { StreamEng.reset with run := [r], chunks := [k], bandNextW := 5 } }
    (base t).jobRuns t = true ∧ t.ses4[(3 : Fin 4)].hostChunk 0 = some (k, r) ∧ waitsHost k r = false ∧ t.job = some 0 ∧
      (base t).crown.jobs.get? 0 = some theJob := by
  decide +kernel

/-- Two stations of the job; station 1 has asked station 0 for its window's last row, and to write it. -/
def pair (k : NetKind) (epoch : BitVec 16) : State :=
  let s := base (stn [] [])
  { s with
    stations := s.stations.set 1 { stn [] [] with epoch := 9 }
    net := [netMsg epoch k] }

theorem witness_RemotePantry : ∀ k ∈ [NetKind.paRead 2 0 0 0 (512 * 65536 - 512) 512, .paWrite 2 0 0 0 (512 * 65536 - 512) (zeros 512)],
    ∀ old ∈ [false, true],
      let ep : BitVec 16 := if old then 4 else 5
    firstWith (fun n => n.isAccess && n.src == 1 && n.dst == 0) (pair k ep).net = some (0, netMsg ep k) ∧
      (pair k 5).stations[(0 : Fin 16)].accepts 3 5 = true ∧ (pair k 5).senderRuns (netMsg 5 k) = true ∧
      (pair k ep).stations[(0 : Fin 16)].inWin (512 * 65536 - 512 : Nat) 512 = true ∧
      (pair k 4).stations[(0 : Fin 16)].accepts 3 4 = false := by
  decide +kernel

/-! ## The Funnel -/

/-- A page header of relinearisation key 0 of tag 7, PS-P1: its first page (Table 9.3). -/
def pageHdr : List Byte :=
  let b := natLe 4 7 ++ [4, 0, 0, 0] ++ zeros 16 ++ natLe 4 512 ++ zeros 32
  b ++ natLe 4 (crc32c b)

/-- A stream of that key for group 5, in a phase. -/
def stream (ph : StreamPhase) : KeyStream := ⟨5, ph, [⟨4, 0, 0, 1⟩], 1, 0, 0, 0, 0, 0, 0, [], [], [], 0, 0⟩

/-- The station leads the stream; the key's page is map entry 0, in a peer's memory. -/
def leadStn (ph : StreamPhase) (cached : Bool) : Station :=
  { funnelStn with funnel := { funnelStn.funnel with
      streams := [stream ph]
      cache := if cached then [(0, ⟨true, 1, 0, 0, 7, 0⟩)] else [] } }

theorem witness_KeyStreamsOpen_open :
    let e := inPhase .running funnelStn (word 0x18 0 1 2 4) 1
    let s := withEntry qFunnel funnelStn e
    s.Specified ∧ s.jobRuns s.stations[(0 : Fin 16)] = true ∧ s.openable 0 = some (0, e) := by
  unfold State.Specified; decide +kernel

/-- The pre-check of a page that passes, of one whose read failed twice, and of one whose data is poisoned. -/
theorem witness_KeyStreamsOpen_precheck :
    let t := leadStn .precheck true
    let s := base t
    s.jobRuns s.stations[(0 : Fin 16)] = true ∧ t.funnel.streams[0]? = some (stream .precheck) ∧
      (State.precheckGo 0 (s.stnTag t) (t.funnel.pagesOf (stream .precheck)) [.bytes pageHdr] s).2 = none ∧
      ((State.precheckGo 0 (s.stnTag t) (t.funnel.pagesOf (stream .precheck)) [.failed] s).2.map Prod.fst) = some Code.keyPageFault ∧
      ((State.precheckGo 0 (s.stnTag t) (t.funnel.pagesOf (stream .precheck)) [.poisoned] s).2.map Prod.fst) = some Code.memPoison ∧
      t.fstreamOf 5 = none := by
  decide +kernel

theorem witness_KeyStreamsOpen_fill :
    let t := leadStn .precheck false
    (t.funnel.walks 0).isSome = true ∧ t.funnel.cached 0 = none ∧ (base t).poisonIn (t.funnel.mapAddr 0) 32 = [] := by
  decide +kernel

theorem witness_KeyStreamsDeliver_page :
    let t := leadStn .running true
    let s := base t
    (s.fetching 0 0).map Prod.fst = some (stream .running) ∧ (s.stnKeySet t).isSome = true ∧
      (s.checkPage 0 (s.stnTag t) ⟨4, 0, 0, 1, 0, 0, 1⟩ 0 (.bytes (pageHdr ++ zeros 960)) false).2.toOption =
        some (⟨true, 1, 0, 0, 7, 0⟩, pageHdr) ∧ field pageHdr 24 4 = 512 ∧
      (s.pageBytes ⟨true, 1, 0, 0, 7, 0⟩ 512 512 (.bytes (pageHdr ++ zeros 960))).2.toOption = some (zeros 512) := by
  decide +kernel

/-- Griddle 0 of the lead is the group's one consumer, and 128 words wait. -/
theorem witness_KeyStreamsDeliver_launch :
    let x := { stream .running with launch := List.replicate 128 0 }
    let t0 := leadStn .running true
    let t1 := { t0 with funnel := { t0.funnel with streams := [x] }, descs := t0.descs ++ [paramDesc 0] }
    let e := { inPhase .running t1 (word 0x22 0 1 2 5) 1 with hdrs := [⟨0, (packedHdr 1 1).bytes, false⟩] }
    let t := { t1 with queues := t1.queues.set (qGriddle 0) [e] }
    let s := { base t with crown := { (base t).crown with groups := [(5, ⟨0, [0]⟩)] } }
    (s.launchable 5).map (fun l => (l.1, l.2.1)) = some (0, 0) ∧ s.groupConsumers 5 = [(0, .griddle 0)] ∧
      s.jobRuns s.stations[(0 : Fin 16)] = true ∧ x.cur.kind = 4 := by
  decide +kernel

/-! ## Module memory and windows -/

/-- A module in READY with the default layout and a few commands' worth of state. -/
def ready : State :=
  let s := base (stn [] [])
  { s with mem := { s.mem with regions := s.grade.defaultTable } }

/-- The first and the last unit of region 0, and an address past every region. -/
theorem witness_UnitAccesses :
    (∀ ma ∈ [0, gib * 384 - 1], (ready.place ma).isSome = true ∧ ready.poisonIn (ma / 64 * 64) 64 = [] ∧
      ma / 64 ∉ ready.mem.poison) ∧ (ready.place (gib * 1023)).isNone = true ∧
      ready.Specified ∧ ready.mem.ready = true ∧ ready.mem.data.wf = true ∧ ready.mon.queue.length < 256 ∧
      ready.place 0 = some (0, 0) ∧
      (ready.mem.stackRegs[0].detect.toNat < 2 ^ 16 - 5 ∧ ready.mem.stackRegs[0].recov.toNat < 2 ^ 8 - 2 ∧
        ready.mem.stackRegs[0].poisonCnt.toNat < 2 ^ 7 - 2) := by
  unfold State.Specified; decide +kernel

/-- A buffer of 4 KiB, mapped at the start of function 0's window. -/
def theBuffer : Buffer := ⟨3, 0, 4096, 4096, 8192, false, 0, 0, some (0, 0)⟩
/-- The module that holds it. -/
def mapped (isReady : Bool) : State :=
  { ready with crown := { ready.crown with buffers := [(0, theBuffer)] }, mem := { ready.mem with ready := isReady } }

/-- An access to the last bytes of version 0, one past version 1, and one before memory is ready. -/
theorem witness_HostWindow :
    (mapped true).linkUp = true ∧ (mapped true).barMap 0 4092 4 = some (theBuffer, 4092) ∧ 4092 + 4 ≤ theBuffer.len ∧
      (mapped true).poisonIn (theBuffer.v0 + 4092) 4 = [] ∧ (mapped true).barMap 0 8190 4 = none ∧
      (mapped false).mem.ready = false ∧ (mapped true).mem.data.wf = true := by
  decide +kernel

/-- A boundary write arrives in version 0 and only there (R291). -/
theorem test_bar2_write :
    let s := after (exec (.bar2Access 0 4092 4 (some [1, 2, 3, 4])) (mapped true))
    s.mem.data = [(8188, 1), (8189, 2), (8190, 3), (8191, 4)] := by
  decide +kernel

theorem witness_RefreshByTemperature :
    ready.Specified ∧ ready.boot.state ≠ .off ∧ bitAt ready.grade.sites.toNat 7 = true ∧ ready.mem.stackRegs[(7 : Fin 8)].refmul ≤ 1 := by
  unfold State.Specified; decide +kernel

/-- At 84 degrees a stack that refreshes twice as often goes on so; at 83 no more (R208). -/
theorem test_temperature :
    let at_ := fun temp => { ready with mem := { ready.mem with stackRegs := ready.mem.stackRegs.set 2 { Stack.reset with refmul := 1 } } } |>
      exec (.stackTemperatureReading 2 temp) |> after
    (at_ 84).mem.stackRegs[(2 : Fin 8)].refmul = 1 ∧ (at_ 83).mem.stackRegs[(2 : Fin 8)].refmul = 0 := by
  decide +kernel

/-- Window 3 of station 15 is being zeroed; memory is; a margin test runs at site 7. -/
theorem witness_ZeroingAndMargin :
    let t := stn [] []
    let s := { ready with stations := ready.stations.set 15 { t with pantry := { t.pantry with zwin := 8 } } }
    let m := { ready with mem := { ready.mem with
      margin := true, stackRegs := ready.mem.stackRegs.set 7 { Stack.reset with running := true } } }
    (s.Specified ∧ bitAt s.stations[(15 : Fin 16)].pantry.zwin.toNat 3 = true) ∧
      ({ ready with mem := { ready.mem with zeroing := true, ready := false } }).boot.state ≠ .off ∧
      (m.Specified ∧ m.mem.margin = true ∧ m.mem.stackRegs[(7 : Fin 8)].running = true ∧ m.crown.marginReq = none) := by
  unfold State.Specified; decide +kernel

/-! ## Mailbox commands -/

/-- A request entry: opcode, LEN, session, payload (Table 16.4). -/
def req (op len ses : Nat) (payload : List Byte) : List Byte :=
  natLe 2 op ++ natLe 2 len ++ natLe 4 9 ++ natLe 2 ses ++ zeros 6 ++ padTo 240 payload

/-- A module whose one entry waits for Crown at function f. -/
def sent (f : Fin 64) (b : List Byte) (s : State) : State :=
  { s with mbx := s.mbx.set f { Mbx.reset with en := true, taken := [⟨0, b⟩] } }

/-- A session of function f with a place for one job more. -/
def theSession (f : Fin 64) (jobs : Nat) : Session :=
  { Session.reset with jobs := jobs, body0 := { SesBody.reset with seq := 1, state := .opened, func := f, stmask := 0xFFFF, maxjobs := 2, ktag := 7 } }

/-- A ready module with session 3 of function 0, its key set 7 and its buffer 0. -/
def office : State :=
  { ready with crown := { Crown.reset with
      sessions := [(3, theSession 0 0)], keysets := [(7, theKeys)], buffers := [(0, theBuffer)] } }

/-- Where one function alone has an entry, it is its turn (R284). -/
theorem turn_alone {s : State} {f : Fin 64} {m : Mbx} (h : s.mbx = (Vector.replicate 64 Mbx.reset).set f m) : s.turnOf f = true := by
  simp only [State.turnOf, List.all_eq_true, Bool.or_eq_true, decide_eq_true_eq]
  intro g _
  by_cases hg : g = f
  · exact .inr (Nat.le_of_eq (by rw [hg]))
  · left
    have : s.mbx[g] = Mbx.reset := by
      simp only [h, Fin.getElem_fin]
      rw [Vector.getElem_set_ne _ _ (by intro x; exact hg (Fin.ext x.symm)), Vector.getElem_replicate]
    simp [State.servable, this, Mbx.reset]

/-- The one entry that waits is at the head. -/
theorem sent_heads {f : Fin 64} {b : List Byte} {s : State} (h : s.mbx = Vector.replicate 64 Mbx.reset) (hr : s.ready = true)
    (hw : s.crown.mustWrite = []) (ha : s.crown.activation = none) : (sent f b s).heads f (reqOp b) = some ⟨0, b⟩ := by
  have ht : (sent f b s).turnOf f = true := turn_alone (m := { Mbx.reset with en := true, taken := [⟨0, b⟩] }) (by simp only [sent, h])
  have hm : (sent f b s).mbx[f].taken = [⟨0, b⟩] := by simp [sent]
  have hr' : (sent f b s).ready = true := hr
  have hb : (sent f b s).blocked f = false := by simp [State.blocked, sent, ha]
  have hw' : (sent f b s).crown.mustWrite = [] := hw
  unfold State.heads
  rw [hr', hb, hw', ht, hm]
  simp

/-- A command's entry is at the head, and its bytes pass. -/
def takes (f : Fin 64) (op : Nat) (fields : List (Nat × Nat)) (ses : Nat) (payload : List Byte) (s : State) : Prop :=
  (sent f (req op (payLen fields) ses payload) s).Takes f op fields ⟨0, req op (payLen fields) ses payload⟩

/-- So is the entry's session its function's. -/
def owned (f : Fin 64) (op : Nat) (fields : List (Nat × Nat)) (ses : Nat) (payload : List Byte) (s : State) : Prop :=
  takes f op fields ses payload s ∧ (sent f (req op (payLen fields) ses payload) s).Owns f ⟨0, req op (payLen fields) ses payload⟩

theorem byteAt_pad {p : List Byte} {i : Nat} (hp : p.length ≤ 240) (hi : p.length ≤ i) : byteAt (padTo 240 p) i = 0 := by
  simp only [byteAt, padTo, List.take_of_length_le hp, List.drop_append, List.drop_eq_nil_of_le hi, List.nil_append, zeros,
    List.drop_replicate]
  generalize 240 - p.length - (i - p.length) = n
  cases n <;> rfl

theorem byteAt_req {op len ses : Nat} {p : List Byte} (i : Nat) : byteAt (req op len ses p) (0x10 + i) = byteAt (padTo 240 p) i := by
  simp only [byteAt, req]
  rw [List.drop_append]
  have h : (natLe 2 op ++ natLe 2 len ++ natLe 4 9 ++ natLe 2 ses ++ zeros 6).length = 0x10 := by simp [natLe, zeros]
  rw [h, List.drop_eq_nil_of_le (by omega), List.nil_append, Nat.add_sub_cancel_left]

/-- An entry is in form when its LEN is the fields' and its payload's bytes are fields or 0. -/
theorem entryOk_req {op ses : Nat} {fields : List (Nat × Nat)} {p : List Byte} (hp : p.length ≤ 240)
    (h1 : field (req op (payLen fields) ses p) 2 2 == payLen fields && zeroAt (req op (payLen fields) ses p) 0x0A 6)
    (h2 : (List.range p.length).all (fun i => fields.any (fun x => decide (x.1 ≤ i ∧ i < x.1 + x.2)) || byteAt (padTo 240 p) i == 0)) :
    entryOk fields (req op (payLen fields) ses p) = true := by
  unfold entryOk
  rw [h1, Bool.true_and, List.all_eq_true]
  intro i _
  rw [byteAt_req]
  by_cases hi : i < p.length
  · exact List.all_eq_true.1 h2 i (List.mem_range.2 hi)
  · rw [byteAt_pad hp (by omega)]
    simp

/-- What an entry's bytes and the module outside the mailboxes have to be for it to be taken. -/
def fits (op : Nat) (fields : List (Nat × Nat)) (ses : Nat) (payload : List Byte) (s : State) : Bool :=
  let b := req op (payLen fields) ses payload
  !s.power.unspecified && s.ready && s.crown.mustWrite.isEmpty && s.crown.activation.isNone && !s.boot.recovery && reqOp b == op &&
    decide (payload.length ≤ 240) && (field b 2 2 == payLen fields && zeroAt b 0x0A 6) &&
      (List.range payload.length).all fun i =>
        fields.any (fun x => decide (x.1 ≤ i ∧ i < x.1 + x.2)) || byteAt (padTo 240 payload) i == 0

theorem takes_of {f : Fin 64} {op ses : Nat} {fields : List (Nat × Nat)} {payload : List Byte} {s : State}
    (h : s.mbx = Vector.replicate 64 Mbx.reset) (hf : fits op fields ses payload s = true) : takes f op fields ses payload s := by
  unfold fits at hf
  rw [Bool.and_eq_true, Bool.and_eq_true] at hf
  obtain ⟨⟨hf, h8⟩, h9⟩ := hf
  simp only [Bool.and_eq_true, Bool.not_eq_true', beq_iff_eq, List.isEmpty_iff, Option.isNone_iff_eq_none, decide_eq_true_eq] at hf
  obtain ⟨⟨⟨⟨⟨⟨h1, h2⟩, h3⟩, h4⟩, h5⟩, h6⟩, h7⟩ := hf
  refine ⟨h1, ?_, entryOk_req h7 h8 h9, .inl h5⟩
  have := sent_heads (f := f) (b := req op (payLen fields) ses payload) h h2 h3 h4
  rwa [h6] at this

/-- The session is in use, and the function's. -/
def mine (f : Fin 64) (ses : Nat) (s : State) : Bool :=
  decide (ses < 16384) && (s.session ses).body.state != .free && ((s.session ses).body.func == f || f == 0)

theorem owned_of {f : Fin 64} {op ses : Nat} {fields : List (Nat × Nat)} {payload : List Byte} {s : State}
    (h : s.mbx = Vector.replicate 64 Mbx.reset) (hf : fits op fields ses payload s = true)
    (hs : reqSession (req op (payLen fields) ses payload) = ses) (hm : mine f ses s = true) : owned f op fields ses payload s := by
  simp only [mine, Bool.and_eq_true, Bool.or_eq_true, decide_eq_true_eq, bne_iff_ne, beq_iff_eq] at hm
  refine ⟨takes_of h hf, ?_⟩
  unfold State.Owns
  simp only [hs]
  exact ⟨hm.1.1, hm.1.2, hm.2⟩

theorem office_mbx : office.mbx = Vector.replicate 64 Mbx.reset := rfl

/-- Every command, refused in recovery, for a wrong LEN, for a VF where it is the PF's, and for a session that is not there. -/
theorem witness_RequestsRefused : ∀ x ∈ mailboxRows none .clean [],
    (∀ f : Fin 64, (sent f (req x.1 0xFF 3 []) { office with boot := { office.boot with recovery := true } }).heads f x.1 =
      some ⟨0, req x.1 0xFF 3 []⟩) ∧ office.Specified ∧ entryOk x.2.1 (req x.1 0xFF 3 []) = false ∧
    (∀ f : Fin 64, (sent f (req x.1 (payLen x.2.1) 5 []) office).heads f x.1 = some ⟨0, req x.1 (payLen x.2.1) 5 []⟩) ∧
      office.boot.recovery = false ∧ (office.session (reqSession (req x.1 (payLen x.2.1) 5 []))).body.state = .free := by
  have h : ∀ x ∈ mailboxRows none .clean [], reqOp (req x.1 0xFF 3 []) = x.1 ∧ entryOk x.2.1 (req x.1 0xFF 3 []) = false ∧
      reqOp (req x.1 (payLen x.2.1) 5 []) = x.1 ∧
      (office.session (reqSession (req x.1 (payLen x.2.1) 5 []))).body.state = .free := by
    decide +kernel
  intro x hx
  obtain ⟨h1, h2, h3, h4⟩ := h x hx
  refine ⟨fun f => ?_, by unfold State.Specified; decide +kernel, h2, fun f => ?_, by decide +kernel, h4⟩
  · have := sent_heads (f := f) (b := req x.1 0xFF 3 []) (s := { office with boot := { office.boot with recovery := true } })
      office_mbx (by decide +kernel) rfl rfl
    rwa [h1] at this
  · have := sent_heads (f := f) (b := req x.1 (payLen x.2.1) 5 []) (s := office) office_mbx (by decide +kernel) rfl rfl
    rwa [h3] at this

theorem witness_QueriesAnswered :
    let old := { Job.reset with gen := 0xFFFFF, state := .free, ses := 3 }
    let j := { office with crown := { office.crown with jobs := [(4095, old)] } }
    let un := { office with crown := { office.crown with buffers := [(0, { theBuffer with map := none })] } }
    takes 63 0x01 [] 0 [] office ∧ owned 0 0x13 [] 3 [] office ∧ owned 0 0x33 [(0, 4)] 3 [] office ∧ owned 0 0x33 [(0, 4)] 3 [] un ∧
      office.bufNamed (req 0x33 4 3 []) = some theBuffer ∧ un.bufNamed (req 0x33 4 3 []) = some { theBuffer with map := none } ∧
      owned 0 0x42 [(0, 4)] 3 (natLe 4 0xFFFFFFFF) j ∧ j.jobNamed (pay (req 0x42 4 3 (natLe 4 0xFFFFFFFF)) 0 4) 3 = some (4095, old) ∧
      takes 0 0x61 [(0, 1)] 0 [13] office ∧ office.portPresent 13 = true := by
  refine ⟨takes_of rfl ?_, owned_of rfl ?_ ?_ ?_, owned_of rfl ?_ ?_ ?_, owned_of rfl ?_ ?_ ?_, ?_, ?_, owned_of rfl ?_ ?_ ?_, ?_,
    takes_of rfl ?_, ?_⟩ <;> decide +kernel

theorem witness_ConfigurationCommands :
    let idle := { office with crown := Crown.reset }
    takes 0 0x02 [(0, 1), (2, 2), (4, 2), (8, 8)] 0 (natLe 2 63 ++ natLe 2 0xFFFF ++ natLe 4 8 ++ natLe 8 0x1000) office ∧
      (∀ w ∈ [0, 1, 900, 2 ^ 32 - 1], takes 0 0x03 [(0, 4)] 0 (natLe 4 w) office) ∧
      takes 0 0x60 [(0, 2), (2, 1), (3, 1), (4, 2)] 0 (natLe 2 1023 ++ [0xFF]) idle ∧ idle.crown.sessions = [] ∧
      takes 0 0x60 [(0, 2), (2, 1), (3, 1), (4, 2)] 0 (natLe 2 0 ++ [13, 1] ++ natLe 2 0x88B5) office ∧ office.portPresent 13 = true := by
  refine ⟨takes_of rfl ?_, fun w hw => takes_of rfl ?_, takes_of rfl ?_, rfl, takes_of rfl ?_, ?_⟩
  case refine_2 => revert w; decide +kernel
  all_goals decide +kernel

/-- A choice among some candidates is one of them. -/
theorem pick_some {α : Type} {s : State} {l : List α} (h : l ≠ []) : (s.pick l).isSome = true := by
  unfold State.pick
  match l, h with
  | [_], _ => rfl
  | _ :: _ :: _, _ =>
    simp only [choose]
    rw [List.getElem?_eq_getElem (Nat.mod_lt _ (by simp))]
    rfl

theorem witness_SessionCommands_open :
    let s := { office with crown := Crown.reset }
    let b := natLe 2 3 ++ natLe 2 0xFFFF ++ natLe 2 4096 ++ zeros 2 ++ natLe 4 0 ++ zeros 32
    takes 0 0x10 [(0, 2), (2, 2), (4, 2), (8, 4), (0xC, 32)] 0 b s ∧ s.openOk 0 (req 0x10 44 0 b) = true ∧
      (s.openRecord 0).isSome = true := by
  refine ⟨takes_of rfl (by decide +kernel), by decide +kernel, ?_⟩
  unfold State.openRecord
  rw [if_neg (by decide +kernel)]
  refine pick_some (List.ne_nil_of_mem (a := 0) (List.mem_filter.2 ⟨by simp, by decide +kernel⟩))

/-- A list of one modulus that passes, and one whose second entry fails. -/
theorem witness_SessionCommands :
    owned 0 0x11 [] 3 [] office ∧ (office.session 3).body.state = .opened ∧
      (∀ n ∈ [1, 128], owned 0 0x12 [(0, 1), (8, 8)] 3 [BitVec.ofNat 8 n] office) ∧ (office.session 3).jobs = 0 ∧
      (deriveFor (office.digitOnly 3) 469762049 422997289).isSome = true ∧ deriveFor (office.digitOnly 3) 469762049 1 = none := by
  refine ⟨owned_of rfl ?_ ?_ ?_, ?_, fun n hn => owned_of rfl ?_ ?_ ?_, ?_, ?_, ?_⟩
  case refine_5 => revert n; decide +kernel
  case refine_6 => revert n; decide +kernel
  case refine_7 => revert n; decide +kernel
  all_goals decide +kernel

/-- An object of the host's, and its manifest entry: kind 3 in full form, at host address 0, with the object's SHA-256. -/
def theObject : List Byte := [1, 2, 3, 4]
/-- The entry. -/
def theEntry : List Byte :=
  [3, 0, 1, 1] ++ natLe 4 0 ++ natLe 8 4 ++ natBe 32 0x9f64a747e1b97f131fabb6b447296c9b6f0201e79fb3c5356e6c77e89b6a806a ++ zeros 32 ++
    [1] ++ zeros 47
/-- The identity record: PS-T1, no packed set, and the manifest's SHA-256. -/
def theRecord : List Byte :=
  natLe 2 2 ++ [1, 0, 0, 0, 0] ++ zeros 57 ++ natBe 32 0x328065088a7bd3de88462f9b1010938d79bd048ee02385d362deb994e8d98d37 ++ zeros 32
/-- The registration block. -/
def theBlock : List Byte := theRecord ++ natLe 4 1 ++ zeros 12 ++ theEntry

theorem witness_KeySetCommands_register :
    owned 0 0x20 [(0, 8), (8, 4)] 3 (natLe 8 0 ++ natLe 4 272) office ∧ theBlock.length = 272 ∧ office.blockErr theBlock = none ∧
      ((office.placeMap.bind fun s => s.placeObjs (blockEntries theBlock) []).isSome = true) ∧
      (blockEntries theBlock).length = 1 ∧ objsMatch (blockEntries theBlock) [theObject] = true ∧
      sha256 (manifestBytes (blockEntries theBlock)) = slice theBlock 0x40 32 := by
  refine ⟨owned_of rfl ?_ ?_ ?_, ?_, ?_, ?_, ?_, ?_, ?_⟩ <;> decide +kernel

/-- A bundle with an Ed25519 key and signature of zeros, and a key set whose owner it is. -/
def theBundle : List Byte := [3, 0] ++ natLe 2 32 ++ natLe 2 64 ++ zeros 96
/-- The key set: its record names the SHA-256 of 32 zero bytes. -/
def ownedKeys (st : KsState) : KeySet :=
  KsBody.fresh ⟨3, zeros 16 ++ natBe 32 0x66687aadf862bd776c8fc18b8e9f8e20089714856ee233b3902a591d0d5f2925 ++ zeros 80, st, [], []⟩
/-- The office with that key set, of tag 9, in a state. -/
def keyOffice (st : KsState) : State := { office with crown := { office.crown with keysets := [(7, theKeys), (9, ownedKeys st)] } }

theorem witness_KeySetCommands_verify :
    let b := natLe 4 9 ++ zeros 12 ++ natLe 2 102
    owned 0 0x21 [(0, 4), (8, 8), (0x10, 2)] 3 b (keyOffice .registered) ∧
      (keyOffice .registered).keySetNamed (req 0x21 18 3 b) = some (ownedKeys .registered) ∧ theBundle.length = 102 ∧
      sha256 (bundleKey theBundle) = slice (ownedKeys .registered).record 0x10 32 ∧
      (bundleSlots theBundle (ownedKeys .registered).record).isSome = true := by
  refine ⟨owned_of rfl ?_ ?_ ?_, ?_, ?_, ?_, ?_⟩ <;> decide +kernel

/-- A verified key set is activated beside the session's own; it is retired; and a registration of its tag is refused. -/
theorem witness_KeySetCommands :
    let s := keyOffice .verified
    owned 0 0x22 [(0, 4)] 3 (natLe 4 9) s ∧ s.keySetNamed (req 0x22 4 3 (natLe 4 9)) = some (ownedKeys .verified) ∧
      canActivate (ownedKeys .verified) (s.session 3).body.policy = true ∧ (s.session 3).body.ktag = 7 ∧
      owned 0 0x23 [(0, 4)] 3 (natLe 4 9) s ∧
      (let t := { office with crown := { office.crown with keysets := [(0xf0a023d2, theKeys)] } }
       tagOf (theBlock.take 128) = 0xf0a023d2 ∧ blockOk theBlock = true ∧
        (blockEntries theBlock).all (entryLegal (theBlock.take 128)) = true ∧ entriesDistinct (blockEntries theBlock) = true ∧
        (blockEntries theBlock).all t.entryPlaced = true ∧ (t.crown.keysets.get? 0xf0a023d2).isSome = true) := by
  refine ⟨owned_of rfl ?_ ?_ ?_, ?_, ?_, ?_, owned_of rfl ?_ ?_ ?_, ?_, ?_, ?_, ?_, ?_, ?_⟩ <;> decide +kernel

/-- Retiring a key set makes two commits of its record's body, each under the other CV (R37, R253). -/
theorem test_keyset_versions :
    let t := (keyOffice .verified).setKs 9 .retired
    (t.crown.keysets.get? 9).map (fun k => (k.cv, k.body0.state, k.state)) = some (true, .verified, .retired) := by
  decide +kernel

/-- Free areas for both versions of a page exist, whatever is chosen. -/
theorem witness_BufferCommands_alloc :
    let b := zeros 8 ++ natLe 8 4096
    let s := { office with crown := { office.crown with buffers := [] } }
    let rg := s.mem.regions[0]
    owned 0 0x30 [(0, 1), (8, 8)] 3 b s ∧ s.mem.regions.toList[pay (req 0x30 16 3 b) 0 1]? = some rg ∧ rg.valid = true ∧
      pay (req 0x30 16 3 b) 8 8 = 4096 ∧ s.pastQuota (s.session 3).body.func 4096 = false ∧ s.areaIn rg [] 4096 4096 = some 0 ∧
      s.tick.areaIn rg [(0, 4096)] 4096 4096 = some 4096 := by
  refine ⟨owned_of rfl ?_ ?_ ?_, ?_, ?_, ?_, ?_, ?_, ?_⟩ <;> decide +kernel

theorem witness_BufferCommands :
    (∀ op ∈ [0x31, 0x32, 0x35], owned 0 op [(0, 4)] 3 [] office) ∧ owned 0 0x34 [(0, 4), (8, 8)] 3 (zeros 8 ++ natLe 8 (2 ^ 30 - 8192)) office ∧
      (∀ b ∈ [req 0x31 4 3 [], req 0x32 4 3 [], req 0x35 4 3 []], office.bufNamed b = some theBuffer) ∧
      office.bufInJob 0 = false ∧ office.exported 0 = false ∧ office.bufBusy 0 = false ∧
      office.mapOk 0 0 (2 ^ 30 - 8192) theBuffer.len = true := by
  refine ⟨fun op ho => owned_of rfl ?_ ?_ ?_, owned_of rfl ?_ ?_ ?_, ?_, ?_, ?_, ?_, ?_⟩
  case refine_1 => revert op; decide +kernel
  case refine_2 => revert op; decide +kernel
  all_goals decide +kernel

/-- The longest transfers: into version 1, and out of version 0. -/
theorem witness_BufferCommands_dma : ∀ dir ∈ [0, 1],
    let b : List Byte := zeros 4 ++ [BitVec.ofNat 8 dir, BitVec.ofNat 8 (1 - dir)] ++ zeros 10 ++ natLe 8 4096 ++ natLe 8 64
    owned 0 0x36 [(0, 4), (4, 1), (5, 1), (8, 8), (0x10, 8), (0x18, 8)] 3 b office ∧
      office.bufNamed (req 0x36 32 3 b) = some theBuffer ∧ dmaOk theBuffer (req 0x36 32 3 b) = true ∧
      pay (req 0x36 32 3 b) 4 1 = dir ∧ pay (req 0x36 32 3 b) 0x10 8 = 4096 ∧ office.bufBusy 0 = false ∧
      office.poisonIn (theBuffer.version 0) 4096 = [] ∧ office.mem.data.wf = true := by
  intro dir hd
  refine ⟨owned_of rfl ?_ ?_ ?_, ?_, ?_, ?_, ?_, ?_, ?_, ?_⟩ <;> (revert dir; decide +kernel)

theorem witness_BufferCommands_exports :
    let s := { office with crown := { office.crown with exports := [(65535, ⟨0, 1023⟩)] } }
    owned 0 0x62 [(0, 4), (4, 2)] 3 (natLe 4 0 ++ natLe 2 1023) office ∧ office.bufNamed (req 0x62 6 3 (natLe 4 0 ++ natLe 2 1023)) = some theBuffer ∧
      owned 0 0x63 [(0, 2)] 3 (natLe 2 65535) s ∧ s.crown.exports.get? 65535 = some ⟨0, 1023⟩ ∧ s.crown.buffers.get? 0 = some theBuffer ∧
      theBuffer.ses = 3 := by
  refine ⟨owned_of rfl ?_ ?_ ?_, ?_, owned_of rfl ?_ ?_ ?_, ?_, ?_, ?_⟩ <;> decide +kernel

theorem witness_JobAndResetCommands_submit :
    let b := zeros 0x1A ++ [31] ++ zeros 15
    owned 0 0x40 [(0, 8), (8, 4), (0xC, 4), (0x10, 8), (0x18, 2), (0x1A, 1), (0x20, 8), (0x28, 2)] 3 b office ∧
      submitOk (bitAt (office.session 3).body.policy.toNat 1) (req 0x40 42 3 b) = true ∧ office.noJobs = false ∧
      office.freeEntry.isSome = true := by
  refine ⟨owned_of rfl ?_ ?_ ?_, ?_, ?_, ?_⟩
  case refine_6 =>
    unfold State.freeEntry
    have h := pick_some (s := office) (l := (List.range 4096).filter fun j => (office.jobAt j).state == .free)
      (List.ne_nil_of_mem (a := 0) (List.mem_filter.2 ⟨by simp, by decide +kernel⟩))
    cases hp : office.pick ((List.range 4096).filter fun j => (office.jobAt j).state == .free) with
    | none => rw [hp] at h; cases h
    | some j => rfl
  all_goals decide +kernel

/-- The office with a job of its session in a state, at entry 0 with generation 1, and with station 0 held for it. -/
def working (st : JobState) : State :=
  { office with crown := { office.crown with jobs := [(0, { theJob with state := st })] }, stations := (base (stn [] [])).stations }

theorem witness_JobAndResetCommands :
    (∀ st ∈ [JobState.running, .admitting, .committed, .completed, .free], owned 0 0x41 [(0, 4)] 3 (natLe 4 0x1000) (working st) ∧
      (working st).jobNamed (pay (req 0x41 4 3 (natLe 4 0x1000)) 0 4) 3 = some (0, { theJob with state := st })) ∧
      takes 0 0x05 [] 0 [] office ∧ takes 0 0x04 [] 0 [] office ∧ takes 0 0x06 [(0, 1)] 0 [15] office ∧
      (takes 0 0x06 [(0, 1)] 0 [0] (working .running) ∧ (working .running).stations[(0 : Fin 16)].held = true ∧
        (working .running).stations[(0 : Fin 16)].job = some 0) := by
  refine ⟨fun st hs => ⟨owned_of rfl ?_ ?_ ?_, ?_⟩, takes_of rfl ?_, takes_of rfl ?_, takes_of rfl ?_, takes_of rfl ?_, ?_, ?_⟩
  case refine_1 => revert st; decide +kernel
  case refine_3 => revert st; decide +kernel
  case refine_4 => revert st; decide +kernel
  all_goals decide +kernel

/-- Margin offsets at both ends of their ranges. -/
theorem witness_ServiceCommands_margin :
    let s := { office with crown := Crown.reset }
    let b : List Byte := [7, 15, 0, 0, 32, 224, 10, 246]
    takes 0 0x07 [(0, 1), (1, 1), (2, 1), (4, 1), (5, 1), (6, 1), (7, 1)] 0 b s ∧ bitAt s.grade.sites.toNat 7 = true ∧
      (∀ k ∈ [4, 5], stepOk (pay (req 7 8 0 b) k 1) 32 = true) ∧ (∀ k ∈ [6, 7], stepOk (pay (req 7 8 0 b) k 1) 10 = true) ∧
      s.mem.ready = true ∧ s.noSession = true ∧ s.crown.everAdmitted = false ∧ s.crown.marginReq = none := by
  refine ⟨takes_of rfl ?_, ?_, ?_, ?_, ?_, ?_, ?_, ?_⟩ <;> decide +kernel

/-- A firmware image of the least length, with one empty component; its signature is whatever Config's verification takes. -/
def theImage : List Byte :=
  [0x46, 0x47, 0x49, 0x4D, 1, 0, 1, 0] ++ zeros 12 ++ natLe 4 0x3000 ++ zeros 40 ++
    (natLe 2 1 ++ zeros 14 ++ natBe 32 0xe3b0c44298fc1c149afbf4c8996fb92427ae41e4649b934ca495991b7852b855) ++ zeros (0x3000 - 112)

/-- The fuses that hold its key's SHA-256: the key is 32 zero bytes. -/
def theFuses : Fuses := { State.reset.fuses with
  vkhash := natBe 32 0x66687aadf862bd776c8fc18b8e9f8e20089714856ee233b3902a591d0d5f2925, svnA := 0, svnB := 0 }

/-- Where the signature verifies, the image passes. -/
theorem image_ok (h : Config.slhVerify (imgKey theImage) (theImage.take 0x1000) (slice theImage 0x1000 7856) = true) :
    imgError theFuses theImage = none := by
  have h1 : imgForm theImage = true := by decide +kernel
  have h2 : (sha256 (imgKey theImage) == theFuses.vkhash) = true := by decide +kernel
  have h3 : ¬ imgSvn theImage < theFuses.svnf := by decide +kernel
  have h4 : imgComps theImage = true := by decide +kernel
  unfold imgError
  rw [h1, bne, h2, h, h4, if_neg h3]
  rfl

theorem witness_ServiceCommands :
    takes 0 0x08 [(0, 8), (8, 8)] 0 (zeros 16) office ∧ theImage.length = 0x3000 ∧
      (let s := { office with boot := { office.boot with staged := true } }
       takes 0 0x51 [(0, 4)] 0 [] s ∧ s.boot.staged = true ∧ s.crown.activation = none) ∧
      takes 63 0x52 [(0, 32), (0x20, 8), (0x28, 4)] 0 (zeros 40 ++ natLe 4 25456) office := by
  refine ⟨takes_of rfl ?_, ?_, ⟨takes_of rfl ?_, ?_, ?_⟩, takes_of rfl ?_⟩ <;> decide +kernel

/-- The module with those fuses. -/
def fused : State := { office with fuses := theFuses }

theorem stage_ok (h : Config.slhVerify (imgKey theImage) (theImage.take 0x1000) (slice theImage 0x1000 7856) = true) :
    fused.stageError theImage = none := by
  unfold State.stageError
  rw [show fused.fuses = theFuses from rfl, image_ok h]
  dsimp only
  rw [if_neg (by decide +kernel), if_neg (by decide +kernel), if_neg (by decide +kernel), if_neg (by decide +kernel)]

theorem witness_ServiceCommands_stage (h : Config.slhVerify (imgKey theImage) (theImage.take 0x1000) (slice theImage 0x1000 7856) = true) :
    takes 0 0x50 [(0, 8), (8, 4)] 0 (zeros 8 ++ natLe 4 0x3000) fused ∧ fused.stageBusy = false ∧ fused.stageError theImage = none :=
  ⟨takes_of rfl (by decide +kernel), by decide +kernel, stage_ok h⟩

/-! ## Jobs -/

/-- The image of a program of one virtual station that only ends: header, three sections, an END, descriptor 0 and a window of 32 MiB
(Tables 13.1 to 13.3). -/
def endImage : List Byte :=
  let h := natLe 4 0x494F4850 ++ [0, 2, 0, 0, 1, 0, 1, 0x11] ++ natLe 4 1 ++ natLe 4 3 ++ zeros 4 ++ natLe 8 192 ++ zeros 28
  let sect := fun (ty vst off len : Nat) => natLe 2 ty ++ natLe 1 vst ++ [0] ++ natLe 4 1 ++ natLe 4 off ++ natLe 4 len
  h ++ natLe 4 (crc32c h) ++ sect 1 0 112 16 ++ sect 2 0xFF 128 32 ++ sect 3 0xFF 160 32 ++ natLe 16 2 ++ zeros 32 ++ natLe 2 512 ++ zeros 30

/-- A job of session 3 that asks for admission with that image and one OUT buffer. -/
def asking : Job := { Job.reset with gen := 1, state := .admitting, ses := 3, imgLen := 192, nbuf := 1 }

/-- The module at its admission: the session may have station 0, and has `jobs` jobs. -/
def admission (jobs : Nat) : State :=
  { office with
    crown := { office.crown with
      sessions := [(3, { theSession 0 jobs with body0 := { (theSession 0 0).body0 with stmask := 1 } })]
      jobs := [(0, asking)]
      keysets := [(7, KsBody.fresh ⟨3, theKeys.record, .active, [], []⟩)] }
    stations := State.reset.stations }

/-- Two jobs are the session's most; the admission of a third is BUSY. -/
theorem witness_JobsRunAndEnd_refused :
    (admission 2).Specified ∧ (admission 2).crown.jobs.get? 0 = some asking ∧ (admission 2).ready = true ∧
      ((admission 2).session asking.ses).body.maxjobs.toNat ≤ ((admission 2).session asking.ses).jobs := by
  unfold State.Specified; decide +kernel

theorem endImage_windows : (admission 1).windowsFree (Img.of endImage) [0] = true := by
  have h1 : ((admission 1).stations[(0 : Fin 16)]).pantry.freeWin = some 0 := by decide +kernel
  have h2 : vWin ((Img.of endImage).vsts.getD 0 0) = 512 := by decide +kernel
  have h3 : ((admission 1).stations[(0 : Fin 16)]).pantry.baseFree 512 0 = true := by decide +kernel
  show ([(0, 0)].all fun x => ((admission 1).windowFor (Img.of endImage) [0] x.2 x.1).isSome) = true
  simp only [List.all_cons, List.all_nil, Bool.and_true, State.windowFor]
  rw [h1, h2, Nat.mod_one, h3]
  rfl

theorem witness_JobsRunAndEnd_granted :
    let s := admission 1
    let bt : List Byte := natLe 4 0 ++ natLe 4 1
    let m := Img.of endImage
    (asking.ticket = none ∧ asking.mtag = none ∧ (s.session 3).body.state = .opened ∧ (s.session 3).jobs < (s.session 3).body.maxjobs.toNat ∧
      bitAt (s.session 3).body.policy.toNat 1 = false ∧ (∃ ks, s.crown.keysets.get? (s.session 3).body.ktag.toNat = some ks ∧ ks.state = .active ∧
        m.check (field s.boot.header 0x11 1) ks.digitPs ks.packedPs = none) ∧ endImage.length = asking.imgLen ∧ bt.length = 8 * asking.nbuf) ∧
      (∃ v, s.resourceErr m (s.grantable (s.session 3).body) = .inr v) ∧ s.btOk 3 (btEntries 1 bt) = true ∧
      s.placeNow m ((s.grantable (s.session 3).body).filter fun st => !s.stations[st].held) = some [0] ∧
      m.ngrp ≤ s.freeGroups.length ∧ s.windowsFree m [0] = true ∧ (∀ en ∈ btEntries 1 bt, en.out = true → s.bufBusy en.buf = false) := by
  refine ⟨⟨rfl, rfl, by decide +kernel, by decide +kernel, by decide +kernel, ⟨_, rfl, by decide +kernel, by decide +kernel⟩,
    by decide +kernel, by decide +kernel⟩, ⟨[0], by decide +kernel⟩, by decide +kernel, ?_, by decide +kernel, endImage_windows, by decide +kernel⟩
  have hl : ((admission 1).grantable ((admission 1).session 3).body).filter (fun st => !(admission 1).stations[st].held) = [0] := by
    decide +kernel
  have hn : (Img.of endImage).nvst = 1 := by decide +kernel
  have hr : (admission 1).resourceErr (Img.of endImage) [0] = .inr [0] := by decide +kernel
  rw [hl]
  unfold State.placeNow
  simp only [hn, List.length_singleton, if_true, hr]

/-- A running job whose one part is done; one with a limit; one that is ABORTING. -/
theorem witness_JobsRunAndEnd :
    let s := fun done => { working .running with stations := (base { stn [] [] with partDone := done }).stations }
    ((s true).Specified ∧ (s true).partsDone 0 = true ∧ (s true).crown.journal.length < 64 ∧ (s true).holds 0 0 = true) ∧
      ((s false).crown.jobs.get? 0 = some theJob ∧ theJob.state = .running ∧ theJob.limit ≠ 0) ∧
      ((working .aborting).crown.jobs.get? 0 = some { theJob with state := .aborting } ∧ theJob.cleaned = false) := by
  unfold State.Specified; decide +kernel

/-! ## Mailbox pages -/

/-- A page with its rings on, one answer waiting, and one unsignalled. -/
def page (tail head : Byte) : Mbx := { Mbx.reset with
  en := true, coalt := 1, unsignalled := 1, cqTail := tail, cqHead := head, replies := [⟨1, 9, 0, false, 0, [], 0, none⟩] }

theorem witness_MailboxPages :
    let s := fun m => { office with mbx := office.mbx.set (63 : Fin 64) m }
    (∀ m ∈ [page 255 255, page 255 1], (s m).linkUp = true ∧ (s m).mbx[(63 : Fin 64)].en = true ∧ m.cqTail + 1 ≠ m.cqHead ∧
      0 < m.unsignalled ∧ m.coalt ≠ 0) ∧ office.Specified ∧ office.mbx[(63 : Fin 64)].en = false ∧ office.mon.queue.length < 256 := by
  unfold State.Specified; decide +kernel

/-- An entry as it comes from the host: 250 bytes, ALIVE, CRC (Table 16.4). -/
def arriving (op alive : Nat) : List Byte :=
  let b := (req op 0 0 []).take 250 ++ natLe 2 alive
  b ++ natLe 4 (crc32c b)

/-- A page that fetches: RXNEXT is 0, and the tail is one ahead, or at the head. -/
def fetching (tail : Byte) : State :=
  { office with mbx := office.mbx.set (0 : Fin 64) { Mbx.reset with en := true, fetching := true, bells := 1, rqHead := 255, rqTail := tail } }

theorem witness_EntriesExamined :
    (fetching 0).Specified ∧ (fetching 0).ready = true ∧ (fetching 0).mbx[(0 : Fin 64)].fetching = true ∧
      (fetching 0).mbx[(0 : Fin 64)].rqHead ≠ (fetching 0).mbx[(0 : Fin 64)].rqTail ∧ (fetching 0).mbx[(0 : Fin 64)].taken = [] ∧
      (fetching 255).mbx[(0 : Fin 64)].rqHead = (fetching 255).mbx[(0 : Fin 64)].rqTail ∧ (fetching 0).blocked 0 = false ∧
      (∀ op ∈ [1, 0x70], ∀ alive ∈ [0, 0x8000, 0x7FFF], (arriving op alive).length = 256 ∧
        field (arriving op alive) 0xFC 4 = crc32c ((arriving op alive).take 0xFC) ∧ field (arriving op alive) 0xFA 2 = alive) ∧
      (knownOps.contains (reqOp (arriving 1 0)) = true ∧ knownOps.contains (reqOp (arriving 0x70 0)) = false) ∧
      aliveClass 16 0 0x8000 = .rep ∧ aliveClass 16 0 0x7FFF = .gap ∧ field (zeros 256) 0xFC 4 ≠ crc32c ((zeros 256).take 0xFC) := by
  unfold State.Specified; decide +kernel

/-! ## Boot and firmware -/

/-- Off the ROM with a good bank A, or with none. -/
def booting (st : BootState) (bankA : List Byte) : State :=
  { fused with
    boot := { fused.boot with state := st, bank := true, trial := true }
    power := { fused.power with pwrgd := true, refclk := true, tripped := false }
    flash := { fused.flash with bankA := bankA, bankB := [] } }

theorem bank_ok (h : Config.slhVerify (imgKey theImage) (theImage.take 0x1000) (slice theImage 0x1000 7856) = true) (st : BootState) :
    (booting st theImage).bankOk false = true := by
  unfold State.bankOk
  rw [show (booting st theImage).fuses = theFuses from rfl, show (booting st theImage).flash.bank false = theImage from rfl, image_ok h]
  decide +kernel

theorem witness_BootStarts (h : Config.slhVerify (imgKey theImage) (theImage.take 0x1000) (slice theImage 0x1000 7856) = true) :
    (∀ st, (booting st theImage).bankOk false = true) ∧ (∀ st ∈ [BootState.rom, .starting, .activating, .ready],
      (booting st []).bankOk false = false ∧ (booting st []).bankOk true = false ∧ (booting st []).Specified ∧ (booting st []).boot.state = st) ∧
      (booting .rom []).flash.bcr.active = false ∧ (booting .rom []).power.pwrgd = true ∧ (booting .rom []).power.refclk = true ∧
      (booting .rom []).power.tripped = false ∧ (booting .starting []).boot.triedOther = false ∧ (booting .ready []).boot.trial = true ∧
      (booting .ready []).boot.recovery = false := by
  refine ⟨bank_ok h, ?_⟩
  unfold State.Specified; decide +kernel

/-- A Mortar with a load to make, and nothing to wait for. -/
theorem witness_BootStarts_programs :
    let s := { office with mortar := { office.mortar with load := some (0x1FF, []) } }
    s.mortar.load = some (0x1FF, []) ∧ s.mortar.queue = [] ∧ s.mortar.running = none ∧ s.mortar.saved = [] := by
  decide +kernel

/-- A staging of firmware or of configuration; a staged image; a drain that waits for a job, and one that is over. -/
theorem witness_FirmwareStagedAndActivated (h : Config.slhVerify (imgKey theImage) (theImage.take 0x1000) (slice theImage 0x1000 7856) = true) :
    let stage := fun cfg => { office with crown := { office.crown with stage := some ⟨none, cfg, theImage⟩ } }
    let staged := { office with boot := { office.boot with staged := true, cfgDirty := true } }
    let drain := fun img jobs => { booting .ready img with crown := { office.crown with activation := some ⟨none, true, 0⟩, jobs := jobs } }
    (∀ cfg ∈ [false, true], (stage cfg).Specified ∧ (stage cfg).ready = true ∧ (stage cfg).crown.stage.isSome = true) ∧
      (staged.ready = true ∧ staged.crown.stage = none ∧ staged.crown.activation = none ∧ staged.boot.staged = true ∧
        staged.boot.recovery = false ∧ staged.boot.cfgDirty = true) ∧ fused.stageError theImage = none ∧ fused.stageError [] = some 1 ∧
      ((drain theImage []).ready = true ∧ (drain theImage []).draining = true ∧ (drain theImage []).crown.jobs = [] ∧
        (drain theImage []).boot.bank = true ∧ (booting .ready theImage).bankOk false = true ∧ (booting .ready []).bankOk false = false) ∧
      (drain [] [(0, theJob)]).drained = false ∧ ((drain [] []).ready = true ∧ (drain [] []).draining = true ∧
        field (drain [] []).flash.boot0 4 4 < 2 ^ 32 - 1 ∧ field (drain [] []).flash.boot1 4 4 < 2 ^ 32 - 1) := by
  refine ⟨by unfold State.Specified; decide +kernel, by decide +kernel, stage_ok h, by decide +kernel, ⟨by decide +kernel, by decide +kernel, rfl, rfl,
    bank_ok h _, by decide +kernel⟩, by decide +kernel, by decide +kernel⟩

/-! ## Fabric -/

/-- The module whose MODID is 9. -/
def neighbour : CapRecord := ⟨9, 0x20, 0, 0⟩

/-- Module 1, with the job of station 0 and session 3, and a change of port 3. -/
def wired (f : Port → Port) : State :=
  { office with
    boot := { office.boot with header := zeros 16 ++ [0x20] }
    crown := { office.crown with jobs := ready.crown.jobs, exports := [(2, ⟨0, 9⟩)] }
    fab := { office.fab with assigned := true, modid := 1, ports := vupd office.fab.ports 3 f } }

/-- Port 3 leads to module 9. -/
def joined (eth : Bool) (f : Port → Port) : State :=
  wired fun x => f { x with state := .up, eth := eth, ver := 0x20, peers := [neighbour] }

theorem witness_PortsChangeState :
    let s := fun (st : PState) eth => wired fun x => { x with state := st, eth := eth }
    (∀ st ∈ [PState.down, .train, .align], ∀ eth ∈ [false, true], (s st eth).Specified ∧ (s st eth).fabAlive = true ∧
      (s st eth).fab.assigned = true ∧ (s st eth).portPresent 3 = true) ∧
      ((⟨9, 0x30, 0, 0⟩ : CapRecord).ver.toNat / 16 ≠ (s .cap false).fabVer / 16 ∧ neighbour.ver.toNat / 16 = (s .cap false).fabVer / 16 ∧
        neighbour.modid ≠ (s .cap false).fab.modid ∧ (s .cap false).reachedByOther neighbour.modid = false ∧
        (s .cap false).mon.queue.length < 256) ∧
      (∀ tries ∈ [1, 2], (wired fun x => { x with state := .up, unacked := [capFlit neighbour], tries := tries }).fab.ports[(3 : Fin 14)].isUp =
        true) ∧ ({ office with boot := { office.boot with state := .activating } } : State).boot.state = .activating := by
  unfold State.Specified; decide +kernel

/-- The bytes of a number spell it. -/
theorem leNat_natLe : ∀ n x : Nat, leNat (natLe n x) = x % 256 ^ n
  | 0, x => by simp [natLe, leNat, Nat.mod_one]
  | n + 1, x => by
    simp only [natLe, leNat, leNat_natLe n, BitVec.toNat_ofNat]
    rw [show (256 : Nat) ^ (n + 1) = 256 * 256 ^ n from Nat.pow_succ' .., Nat.mod_mul]

theorem natLe_length : ∀ n x : Nat, (natLe n x).length = n
  | 0, _ => rfl
  | n + 1, x => by simp [natLe, natLe_length n]

theorem crcShift_lt {poly : Nat} (hp : poly < 2 ^ 64) : ∀ n x, x < 2 ^ 64 → crcShift poly n x < 2 ^ 64
  | 0, _, h => h
  | n + 1, x, h => by
    unfold crcShift
    apply crcShift_lt hp n
    split
    · exact Nat.xor_lt_two_pow (by omega) hp
    · omega

theorem crc64_lt (bs : List Byte) : crc64 bs < 2 ^ 64 := by
  have h : ∀ (bs : List Byte) (x : Nat), x < 2 ^ 64 → crcBytes crc64Poly x bs < 2 ^ 64 := by
    intro bs
    induction bs with
    | nil => exact fun _ h => h
    | cons b t ih => exact fun x h => ih _ (crcShift_lt (by decide) 8 _ (Nat.xor_lt_two_pow h (by have := b.isLt; omega)))
  exact Nat.xor_lt_two_pow (h bs _ (by decide)) (by decide)

/-- A flit that a module sends is 512 bytes long, and its CRC holds (R300). -/
theorem wire_good (f : Flit) : f.wire.length = 512 ∧ field f.wire 504 8 = crc64 (f.wire.take 504) := by
  have hb : (natLe 16 f.header ++ padTo 488 f.payload).length = 504 := by
    simp [natLe_length, padTo, zeros]; omega
  refine ⟨by simp only [Flit.wire, List.length_append, hb, natLe_length], ?_⟩
  simp only [Flit.wire, field, slice]
  rw [List.drop_left' hb, List.take_left' hb, List.take_of_length_le (Nat.le_of_eq (natLe_length _ _)), leNat_natLe]
  exact Nat.mod_eq_of_lt (Nat.lt_of_lt_of_le (crc64_lt _) (by decide))

/-- A DATA flit in order, with and without EOF, and out of order; one of the reserved KIND; no flit at all. -/
theorem witness_TrafficOfPorts_flits :
    let flit := fun kind fseq eof => (⟨kind, fseq, 3, true, eof, [1, 2], none, 0, 0⟩ : Flit).wire
    let x := (joined false id).fab.ports[(3 : Fin 14)]
    (∀ kind fseq eof, (flit kind fseq eof).length = 512 ∧ field (flit kind fseq eof) 504 8 = crc64 ((flit kind fseq eof).take 504)) ∧
      (x.isUp = true ∧ x.eth = false ∧ x.rxNext = 0) ∧
      (∀ p ∈ [(flit 1 0 true, 1, 0, true), (flit 1 0 false, 1, 0, false), (flit 1 4095 true, 1, 4095, true), (flit 3 0 true, 3, 0, true)],
        let h := leNat (p.1.take 16); fld h 30 2 = p.2.1 ∧ fld h 0 12 = p.2.2.1 ∧ bitAt h 26 = p.2.2.2) ∧
      ([] : List Byte).length ≠ 512 :=
  ⟨fun _ _ _ => wire_good _, by decide +kernel⟩

/-- Station 0 sends by slot 0 of session 3: its four bytes are read, its credit is four, and its frames leave by port 3. -/
def sending (tries : Nat) : State :=
  let s := joined false id
  let r : RDesc := ⟨0, 0, dsc 2 0 0 3 4, 4, 0, 0⟩
  let x := { StreamEng.reset with run := [r], chunks := [⟨0, 0, 0, 4, some [1, 2, 3, 4], 0, false⟩] }
  ({ s with stations := s.stations.set 0 { stn [] [] with ses4 := Vector.replicate 4 x } } : State).updSlot 3 0 fun y =>
    { y with txStn := some 0, txPort := some 3, txPeer := some 9, credit := [4], unacked := [⟨0, [1], 3, 0, 0, 4, tries⟩] }

theorem witness_TrafficOfPorts_send :
    (sending 3).Specified ∧ (sending 3).jobRuns (sending 3).stations[(0 : Fin 16)] = true ∧
      ((sending 3).sendable 0 3).map (fun x => x.2) = some (3, [1, 2, 3, 4]) ∧
      (∀ n ∈ [3, 4], ((sending n).slotAt 3 0).txStn = some 0 ∧ ((sending n).slotAt 3 0).unacked = [⟨0, [1], 3, 0, 0, 4, n⟩] ∧
        ((sending n).slotAt 3 0).txPort = some 3 ∧ (sending n).fab.ports[(3 : Fin 14)].isUp = true) := by
  unfold State.Specified; decide +kernel

/-- A frame from module 9 to module 1 for station 0's role. -/
def inbound (h : FrameHdr) (payload : List Byte) : List Byte :=
  mkFrame 0x20 9 { h with ktag := 7, dses := 3, depoch := 5 } payload

/-- It has come whole by port 3. -/
def meeting (frame : List Byte) : State := joined false fun x => { x with inbox := [⟨0, 1, frame⟩] }

/-- The frame waits at port 3, which is an ETHERNET port, as it came. -/
def framed (dev : List Byte) : List Byte := ethFrame (macOf 3 1) (macOf 4 9) 0 (joined true id).fab.ports[(3 : Fin 14)].vid.toNat
  (joined true id).fab.ports[(3 : Fin 14)].etype.toNat dev

theorem witness_TrafficOfPorts_timers :
    let act := fun frame => { meeting frame with boot := { (meeting frame).boot with state := .activating } }
    (∀ t ∈ [1, 5], let frame := inbound { ftype := t, dmod := 1 } []
      let s := act frame
      s.boot.state = .activating ∧ (∀ p', p' ≠ (3 : Fin 14) → s.fab.ports[p'].inbox = []) ∧
        s.fab.ports[(3 : Fin 14)].inbox = [⟨0, 1, frame⟩] ∧ s.frameGood 3 frame = true ∧
        s.foreign 3 (s.fab.ports[(3 : Fin 14)].dev frame) = false ∧ (frameHdr (s.fab.ports[(3 : Fin 14)].dev frame)).ftype = t) ∧
      ((joined true id).fabAlive = true ∧ (joined true id).fab.ports[(3 : Fin 14)].isUp = true ∧
        (joined true id).fab.ports[(3 : Fin 14)].held 0 = false) ∧
      (joined true fun x => { x with paused := 8 }).fab.ports[(3 : Fin 14)].paused &&& ~~~(8 : BitVec 8) = 0 := by
  decide +kernel

/-- Its role is station 0's, and slot 0 waits for four bytes. -/
def receiving (frame : List Byte) : State :=
  let s := meeting frame
  let x := { StreamEng.reset with run := [⟨0, 0, dsc 3 0 3 0 4, 0, 0, 0⟩] }
  ({ s with stations := s.stations.set 0 { stn [] [] with ses4 := Vector.replicate 4 x } } : State).updSlot 3 0 fun y =>
    { y with rxq := [(3, 0, 0)] }

/-- SEQ in order, at the ends of both classes, and an old epoch. -/
theorem witness_DataFrames :
    (∀ p ∈ [(0, true), (0x80000000, true), (0x7FFFFFFF, true), (0, false)],
      let h : FrameHdr := { ftype := 1, dmod := 1, ktag := 7, dses := 3, depoch := if p.2 then 5 else 4, seq := p.1, len := 4 }
      let frame := mkFrame 0x20 9 h [1, 2, 3, 4]
      let s := receiving frame
      s.Meets 3 frame 1 ∧ s.boot.state ≠ .activating ∧ frameHdr (s.fab.ports[(3 : Fin 14)].dev frame) = h ∧ s.frameAccepted h = p.2 ∧
        s.rxNextOf 3 0 = 0 ∧ (s.recvFor h).isSome = true ∧ (s.crown.sessions.get? 3).isSome = true) ∧
      aliveClass 32 0 0 = .pass ∧ aliveClass 32 0 0x80000000 = .rep ∧ aliveClass 32 0 0x7FFFFFFF = .gap := by
  unfold State.Meets State.Specified; decide +kernel

/-- An Ethernet frame in a warm reset. -/
theorem witness_DataFrames_held :
    let frame := framed (inbound { ftype := 1, dmod := 1 } [])
    let s := { joined true id with boot := { (joined true id).boot with state := .activating } }
    s.Meets 3 frame 1 ∧ s.boot.state = .activating ∧ s.fab.ports[(3 : Fin 14)].eth = true := by
  unfold State.Meets State.Specified; decide +kernel

/-- Four bytes of a RECV at the window's last row. -/
theorem witness_DataFrames_land :
    let r : RDesc := ⟨0, 0, dsc 3 0 3 0 512 0 (512 * 65536 - 512), 512, 0, 0⟩
    let t := { stn [] [] with ses4 := Vector.replicate 4 { StreamEng.reset with
      run := [r], chunks := [⟨0, 0, 0, 512, some (zeros 512), 0, false⟩] } }
    (base t).Specified ∧ (base t).jobRuns t = true ∧ (t.ses4[(3 : Fin 4)].landable 0).isSome = true ∧ dscKind r.bytes = 3 ∧
      (dscDst r.bytes).space = spPantry := by
  unfold State.Specified; decide +kernel

/-- One route is every hash's. -/
theorem hashPort_one {s : State} {smod dmod : BitVec 10} {ses slot : Nat} {q : Fin 14} (h : s.routes dmod = [q]) :
    s.hashPort smod dmod ses slot = some q := by
  simp only [State.hashPort, h, List.length_singleton, Nat.mod_one]
  rfl

/-- A frame of each type: a CREDIT for the session and for none, an ACK, a STALE, a HOLD. -/
theorem witness_FramesTaken :
    (∀ p ∈ [(7, some 3), (8, none)],
      let frame := mkFrame 0x20 9 { ftype := 2, dmod := 1, ktag := p.1, offset := 4 } []
      (meeting frame).Meets 3 frame 2 ∧ (meeting frame).sessionByTag (frameHdr frame).ktag = p.2) ∧
      (∀ t ∈ [3, 4, 7], let frame := inbound { ftype := t, dmod := 1 } []
        let s := { sending 0 with fab := (meeting frame).fab }
        s.Meets 3 frame t ∧ s.frameAccepted (frameHdr frame) = true ∧ s.jobRuns s.stations[(frameHdr frame).stn] = true ∧
          (s.crown.sessions.get? (frameHdr frame).dses).isSome = true ∧ (s.slotAt (frameHdr frame).dses (frameHdr frame).slot).unacked ≠ []) := by
  unfold State.Meets State.Specified; decide +kernel

/-- READs of an export's last 64 bytes, and of no export; the RDATA of an open READ. -/
theorem witness_FramesTaken_reads :
    (∀ p ∈ [(2, true), (3, false)], let frame := inbound { ftype := 5, dmod := 1, len := 64, offset := 4096 - 64, expo := p.1 } []
      let s := meeting frame
      let h := frameHdr frame
      s.Meets 3 frame 5 ∧ s.boot.state ≠ .activating ∧ (s.crown.exports.get? h.expo).isSome = p.2 ∧
        s.crown.buffers.get? 0 = some theBuffer ∧ h.offset + h.len = theBuffer.len ∧ s.poisonIn (theBuffer.v0 + h.offset) h.len = []) ∧
      let frame := inbound { ftype := 6, dmod := 1, seq := 5, len := 4 } [1, 2, 3, 4]
      let r : PeerRead := ⟨5, 0, 3, 0, 0, 0, 4, 3⟩
      let x := { StreamEng.reset with run := [⟨0, 0, dsc 0 0 5 0 4, 4, 0, 0⟩], chunks := [⟨0, 0, 0, 4, none, 0, false⟩] }
      let s0 := meeting frame
      let s := { s0 with
        stations := s0.stations.set 0 { stn [] [] with ses4 := Vector.replicate 4 x }
        fab := { s0.fab with reads := [r] } }
      s.Meets 3 frame 6 ∧ (s.fab.reads.find? fun r => r.tag.toNat == (frameHdr frame).seq) = some r ∧ s.readOpen r = true ∧
        (frameHdr frame).status = 0 ∧ (frameHdr frame).len = r.len := by
  unfold State.Meets State.Specified; decide +kernel

/-- A CAP frame of the neighbour's own, by an Ethernet frame and by flits, and one that it relays. -/
theorem witness_FramesTaken_cap :
    let cap := fun (rc : CapRecord) => inbound { ftype := 8, dmod := 1, len := 16 } (capBytes rc)
    (∀ p ∈ [(joined true id, framed (cap neighbour), true), (meeting (cap neighbour), cap neighbour, true),
        (meeting (cap { neighbour with modid := 12 }), cap { neighbour with modid := 12 }, false)],
      let dev := p.1.fab.ports[(3 : Fin 14)].dev p.2.1
      let rc := capOfBytes (framePayload dev)
      p.1.Meets 3 p.2.1 8 ∧ rc.modid ≠ p.1.fab.modid ∧ (rc.modid.toNat == frameSmod dev) = p.2.2 ∧
        p.1.fab.ports[(3 : Fin 14)].peers.any (fun r => r.modid.toNat == frameSmod dev) = true) := by
  unfold State.Meets State.Specified; decide +kernel

/-- A frame for module 9 with HOPS 1; one of FTYPE 9. -/
theorem witness_FramesTaken_relay :
    let frame := inbound { ftype := 1, dmod := 9 } []
    let s := meeting frame
    (s.Specified ∧ s.fab.ports[(3 : Fin 14)].frameAt frame = true ∧ s.frameGood 3 frame = true ∧
      s.foreign 3 (s.fab.ports[(3 : Fin 14)].dev frame) = true ∧ frameHops frame = 1 ∧
      s.hashPort (BitVec.ofNat 10 (frameSmod frame)) (BitVec.ofNat 10 (frameHdr frame).dmod) (frameHdr frame).sses (frameHdr frame).slot =
        some 3) ∧
      frameHops (relayed frame) = 0 ∧ frameOk 2 (relayed frame) = true ∧
      let odd := inbound { ftype := 9, dmod := 1 } []
      (meeting odd).fab.ports[(3 : Fin 14)].frameAt odd = true ∧ field ((meeting odd).fab.ports[(3 : Fin 14)].dev odd) 1 1 = 9 := by
  unfold State.Specified
  refine ⟨⟨by decide +kernel, by decide +kernel, by decide +kernel, by decide +kernel, by decide +kernel, hashPort_one ?_⟩, ?_⟩ <;>
    decide +kernel

/-! ## Check units -/

/-- The check values that Table 18.1 gives for "123456789". -/
theorem test_check_values :
    let b : List Byte := [0x31, 0x32, 0x33, 0x34, 0x35, 0x36, 0x37, 0x38, 0x39]
    crc32c b = 0xE3069283 ∧ crc64 b = 0x995DC9BBDF1939FA ∧ crc16 b = 0x29B1 := by
  decide +kernel

/-- Every unit, with a full queue but one, and with a full one. -/
theorem witness_BandUnits :
    let s := fun n => { office with band := Vector.replicate 4 { BndUnit.reset with queue := List.replicate n (.feed 1 1) } }
    (s 7).Specified ∧ (s 7).linkUp = true ∧ ((s 7).band[(3 : Fin 4)]).queue.length < 8 ∧
      (s 8).linkUp = true ∧ ((s 8).band[(3 : Fin 4)]).queue.length ≤ 8 ∧ readHeld .resLo = true := by
  unfold State.Specified; decide +kernel

/-- Both algorithms; alive values at the ends of the classes of R319. -/
theorem witness_BandComputesCheckValues :
    (∀ alg ∈ [0, 1], ({ BndUnit.reset with alg := BitVec.ofNat 2 alg, aw := true } : BndUnit).alg = BitVec.ofNat 2 alg) ∧
      let x : BndUnit := { BndUnit.reset with aw := true, anext := 5 }
      x.aw = true ∧ (1 ≤ (x.anext - 4).toNat ∧ (x.anext - (5 + 0x80000000)).toNat = 2 ^ 31) ∧
        2 ^ 31 < (x.anext - (5 + 0x7FFFFFFF)).toNat := by
  decide

/-! ## Mortar -/

/-- Slots 0 to 3 of four words at the memory's start, 4 and 5 at its end. -/
def mortarSlots : Vector MSlot 64 :=
  Vector.ofFn fun i => if i.val < 4 then ⟨true, 4, BitVec.ofNat 13 (4 * i.val)⟩
    else if i.val < 6 then ⟨true, 4, BitVec.ofNat 13 (8184 + 4 * (i.val - 4))⟩ else ⟨false, 0, 0⟩

/-- A job on slots 0 and 1 modulo slot 2 into slot 3. -/
def mortarJob (op : Byte) (tag : BitVec 16) : MJob :=
  ⟨op, tag, 0, 1, 0, 0, 0, 2, 3, if op = 0x14 then 4 else 0, 0, zeros 19⟩

/-- Mortar with 3, 5 and the modulus 7 in its slots, every program loaded, and the descriptor of a sum but for its last word. -/
def theMortar : Mortar := { Mortar.reset with
  prog := 0x1FF, mem := [(0, 3), (4, 5), (8, 7)], slots := mortarSlots, submit := Vector.ofFn fun i => [0x10, 0x100, 0x30200].getD i.val 0 }

/-- A module with that Mortar, changed. -/
def crunching (f : Mortar → Mortar) : State := { office with mortar := f theMortar }

theorem witness_MortarRegisters :
    let j := mortarJob 0x10 5
    let queued := fun n => crunching fun m => { m with queue := List.replicate n j }
    (office.Specified ∧ office.boot.state ≠ .off) ∧ 16 ≤ (queued 16).mortar.queue.length ∧ (queued 15).mortar.queue.length < 16 ∧
      (∀ v ∈ [0, 1], theMortar.badJob (MJob.ofBytes (bytesOf (theMortar.submit.set 7 (BitVec.ofNat 32 v)).toList)) = (v == 1)) ∧
      (queued 15).mortar.results.length < 32 ∧ (queued 1).mortar.active 5 = true ∧ (queued 1).mortar.active 6 = false ∧
      (∀ i ∈ [(2 : Fin 64), 63], (queued 1).mortar.slotActive i.val = (queued 1).mortar.slots[i].valid) ∧
      ((queued 1).mortar.slotActive 2 = true ∧ (queued 1).mortar.slots[(2 : Fin 64)].base.toNat + 3 = 11) ∧
      (∀ i : Fin 64, ¬ ((queued 0).mortar.slotActive i.val = true)) := by
  unfold State.Specified; decide +kernel

/-- The oldest result is that of a registered key set's check. -/
theorem witness_MortarRegisters_result :
    let s := { crunching fun m => { m with results := [(5, 0)] } with crown := { office.crown with
      sessions := [(3, { theSession 0 0 with body0 := { (theSession 0 0).body0 with policy := 1 } })]
      keysets := [(7, ownedKeys .registered)]
      verifies := [⟨some (⟨0, 0x23, 9, 0⟩, 7), 0, 5, []⟩] } }
    s.mortar.results = [(5, 0)] ∧ s.mortar.held = [] ∧ s.crown.waits = [] ∧
      (s.crown.verifies.find? fun v => v.mtag == 5) = some ⟨some (⟨0, 0x23, 9, 0⟩, 7), 0, 5, []⟩ ∧
      s.crown.keysets.get? 7 = some (ownedKeys .registered) ∧ (ownedKeys .registered).state = .registered ∧ s.ksigOf 7 = true := by
  decide +kernel

theorem witness_MortarRuns :
    let sum := mortarJob 0x10 5
    let pow := mortarJob 0x14 6
    let sig := mortarJob 1 7
    let run : MJob → Bool → Option Byte → MRun := fun j c r => ⟨j, c, r, none⟩
    (office.Specified ∧ sum.cls < pow.cls ∧ pow.cls < sig.cls ∧ theMortar.running = none ∧ theMortar.saved = []) ∧
      (theMortar.canYield (run sig false none) = true ∧ theMortar.results.length < 32) ∧
      (theMortar.value sum.sm.toNat = 7 ∧ theMortar.value sum.sa.toNat = 3 ∧ theMortar.value sum.sb.toNat = 5 ∧
        7 ≤ 2 ^ (64 * (theMortar.slot sum.so.toNat).len.toNat) ∧ pow.works = [4, 5]) := by
  unfold State.Specified; decide +kernel

/-- 3^5 modulo 7 is 5, at the end of the power's job (R335). -/
theorem test_mortar_power :
    (after (exec .mortarJobEnd (crunching fun m => { m with running := some ⟨mortarJob 0x14 6, false, none, none⟩ }))).mortar.value 3 = 5 := by
  decide +kernel

/-! ## Resets, power and pins -/

theorem witness_ResetsAndPower :
    let s := fun (p1 ref pg : Bool) => { office with power := { office.power with p1 := p1, refclk := ref, pwrgd := pg } }
    (s true true true).boot.state ≠ .off ∧ ((s false true false).power.p1 = false ∧ (s false true false).power.refclk = true) ∧
      ((s true false false).power.refclk = false ∧ (s true false false).power.p1 = true ∧ (s true false false).power.pwrgd = false) ∧
      office.Specified ∧ office.warmable = true ∧ (63 : Fin 64) ≠ 0 := by
  unfold State.Specified; decide +kernel

/-- A power cap and none, a hot die, a lost reference of a present die. -/
theorem witness_PinsAndRegisters :
    let s := { office with power := { office.power with cap := 900 } }
    (s.Specified ∧ s.boot.state ≠ .off ∧ s.power.cap ≠ 0 ∧ office.power.cap = 0) ∧ (∃ x ∈ [20, 105], 105 ≤ x) ∧
      bitAt s.grade.iodies.toNat 3 = true ∧ (portDie 13 = 3 ∧ s.fab.ports[(13 : Fin 14)].state ≠ .disabled) ∧
      s.portPresent 13 = true ∧ s.mbx[(63 : Fin 64)].en = false ∧
      ({ s with mbx := s.mbx.set (63 : Fin 64) { Mbx.reset with en := true } } : State).mbx[(63 : Fin 64)].en = true ∧
      bitAt s.grade.sites.toNat 7 = true ∧ s.band[(3 : Fin 4)].queue = [] ∧ barSizeOk 1 = true ∧ barSizeOk 3 = false := by
  unfold State.Specified; decide +kernel

/-- Window 1 may be set so (R170). -/
def windowFits (x : Win) (b : Station) : Bool :=
  !x.valid || decide (1 ≤ x.size.toNat ∧ x.base.toNat + x.size.toNat ≤ 512 ∧
    ∀ k : Fin 4, k ≠ 1 → b.pantry.wins[k].valid = true → x.base.toNat + x.size.toNat ≤ b.pantry.wins[k].base.toNat ∨
      b.pantry.wins[k].base.toNat + b.pantry.wins[k].size.toNat ≤ x.base.toNat)

/-- PAN_REGION of a station with a running operation; PAN_WIN of the last 64 KiB, of no size, and of a window that is another's. -/
theorem witness_PinsAndRegisters_pantry :
    let t := stn [] []
    let s := withEntry (qStream 0) t (inPhase .running t 0 1)
    let a := s.stations[(0 : Fin 16)]
    (a.held = true ∧ a.queues[qStream 0].any (fun e => e.phase == .running) = true ∧ a.window.valid = true ∧
      bitAt (regionBits a.window.base.toNat a.window.size.toNat).toNat 7 = true) ∧
      windowFits ⟨true, 1, 511⟩ Station.reset ∧ ¬ windowFits ⟨true, 0, 0⟩ Station.reset ∧ ¬ windowFits ⟨true, 1, 511⟩ a ∧ a.win = 0 ∧
      State.reset.boot.state = .rom := by
  decide +kernel

/-! ## Monitors, the error log and quarantine -/

theorem witness_MonitorUnits :
    let x := { MonUnit.reset with cfga := 0x8007000D }
    (office.Specified ∧ office.linkUp = true ∧ office.grade.srcOk 7 13 = true) ∧
      (x.watches office.grade 7 13 = true ∧ x.sat = false ∧ x.full (2 ^ 32 - 1) = false ∧ MonUnit.reset.watches office.grade 7 13 = false) := by
  unfold State.Specified; decide +kernel

theorem witness_LogAndQuarantine :
    let q : SnapReq := ⟨⟨0, 0x60, 9, 0⟩, 0x8000000000000001, 0, 1⟩
    let s := { office with
      crown := { office.crown with snaps := [q] }
      mbx := office.mbx.set (0 : Fin 64) { Mbx.reset with msix := [(11, 0)] }
      mon := { office.mon with queue := [plainEvt clsUnit 0 3 0 0xFF []] }
      stations := office.stations.set 15 { Station.reset with
        pantry := { Pantry.reset with uncorr := 4 }
        chk := (Station.reset.chk.set 4 { Station.reset.chk[4] with fails := 2 }).set 11 { Station.reset.chk[11] with replays := 4096 } } }
    (s.Specified ∧ s.boot.state ≠ .off ∧ s.mon.queue.length = 1 ∧ s.mbx[(0 : Fin 64)].masked 2 = false) ∧
      (s.ready = true ∧ s.crown.snaps = [q] ∧ bitAt q.mask.toNat 63 = true) ∧ s.boot.recovery = false ∧
      (4 ≤ s.stations[(15 : Fin 16)].pantry.uncorr.toNat ∧ s.stations[(0 : Fin 16)].pantry.uncorr.toNat < 4) ∧
      2 ≤ s.stations[(15 : Fin 16)].chk[(4 : Fin 12)].fails.toNat ∧
      (let c := s.stations[(15 : Fin 16)].chk[(11 : Fin 12)]; c.last.toNat + 4096 ≤ c.replays.toNat ∧ c.fails.toNat < 2) := by
  unfold State.Specified; decide +kernel

theorem witness_CountsCleared :
    let s := withEntry (qKettle 2) (kettleStn .rotation) (kettleRun .rotation)
    s.Running 0 (qKettle 2) 0x50 0 (kettleRun .rotation) ∧ s.stations[(0 : Fin 16)].kettles[(2 : Fin 8)].phase = .rotation ∧
      s.linkUp = true ∧ bitAt s.grade.sites.toNat 7 = true ∧ s.portPresent 13 = true ∧
      s.stations[(0 : Fin 16)].kettles[(2 : Fin 8)].step = 0 := by
  unfold State.Running State.Specified; decide +kernel

/-! ## The machine as a whole, and arithmetic -/

/-- A step that writes a unit of memory. -/
theorem witness_MemoriesStayCanonical :
    let s := { ready with pending := [.memUnitAccess 0 (.write (List.replicate 64 1))] }
    s.Canonical ∧ (match step s with | .next _ => true | _ => false) = true ∧ (after (step s)).mem.data.length = 64 := by
  unfold State.Canonical; decide +kernel

/-- The largest operands under the largest odd number of 31 bits, for each operation. -/
theorem witness_SkilletLanes :
    (∀ op ∈ [0x40, 0x41, 0x42, 0x45, 0x46, 0x47], ((stn [] []).sklOf (word op 0 0 0 0)).op = op) ∧ 1 < 2 ^ 31 - 1 ∧ 2 ^ 31 - 2 < 2 ^ 31 - 1 := by
  decide +kernel

theorem witness_BarrettReduces : 2 ^ 20 < 2 ^ 31 - 1 ∧ 2 ^ 31 - 1 < 2 ^ 31 ∧ 2 ^ 72 - 1 < 2 ^ 72 := by decide

theorem witness_InverseUndoesForward :
    2 * 9 % 17 = 1 ∧ 13 * 2 ^ 2 % 17 = 1 ∧ [16, 0, 3, 4].length = 2 ^ 2 ∧ (∀ x ∈ [16, 0, 3, 4], x < 17) ∧
      nttFwd 17 2 2 [16, 0, 3, 4] ≠ [16, 0, 3, 4] := by
  decide

/-- A command past each bound of WellFormed. -/
def illFormed : List Instr :=
  let long := List.replicate
  [.kettleRotationStart 0 0 (2 ^ 48), .kettleElementStep 0 0 (.pass, 2 ^ 48), .keySwitchRound 0 0 (.pass, 2 ^ 48), .chunkLand 0 0 192 .clean,
   .hostDmaChunk 0 0 192 [] 0 0, .hostDmaChunk 0 0 0 (long 4097 0) 0 0, .precheckDone 0 8 [], .precheckDone 0 0 [.bytes (long 65 0)],
   .mapCacheFill 0 (2 ^ 19), .pageArrival 0 8 .failed, .memUnitAccess (2 ^ 40) .read, .memUnitAccess 0 (.write (long 65 0)),
   .memUnitAccess 0 (.modify 64 [0]), .memCrcReread (2 ^ 40) 0, .bar2Access 0 (2 ^ 36) 1 none, .bar2Access 0 (2 ^ 36) 0 (some [0]),
   .stackTemperatureReading 0 256, .jobAdmission 4096 none none none, .jobAdmission 0 none (some (long 8193 0)) none, .commitPoint 4096,
   .jobTimeLimit 4096, .jobAbortCleanup 4096, .requestEntryFetch 0 (some (long 257 0)), .sessionModlist 0 (some (long 1025 0)),
   .flitReceive 0 (long 513 0), .endToEndRetransmit 16384 0, .powerCapSample 65536 0 0, .powerCapSample 0 65536 0, .powerCapSample 0 0 65,
   .monitorSample 256 0 0, .monitorSample 0 65536 0]

theorem test_wellFormed_refuses : (illFormed.all fun i => !wellFormed i) = true := by decide +kernel

end Sys2Proof.Tests
end

section
/-! Band units: a queued write takes its effect without looking at the queue, so the drained unit is the one that every write was
applied to in arrival order (R324, log entry 33). -/

namespace Sys2Proof.Machine

theorem BndUnit.feedByte_withQueue (x : BndUnit) (l : List BndWrite) (b : Byte) :
    { x with queue := l }.feedByte b = { x.feedByte b with queue := l } := by
  unfold BndUnit.feedByte; split <;> rfl

theorem BndUnit.feedBytes_withQueue (bs : List Byte) (x : BndUnit) (l : List BndWrite) :
    bs.foldl BndUnit.feedByte { x with queue := l } = { bs.foldl BndUnit.feedByte x with queue := l } := by
  induction bs generalizing x with
  | nil => rfl
  | cons b bs ih => simp only [List.foldl_cons, BndUnit.feedByte_withQueue, ih]

theorem BndUnit.achk_withQueue (x : BndUnit) (l : List BndWrite) (v : Nat) :
    { x with queue := l }.achk v = { x.achk v with queue := l } := by
  simp only [BndUnit.achk, BndUnit.width]; generalize aliveClass _ _ _ = c; cases c <;> rfl

/-- What a write does when it takes effect does not depend on the queue, and leaves the queue. -/
theorem BndUnit.apply_withQueue (x : BndUnit) (l : List BndWrite) (w : BndWrite) :
    { x with queue := l }.apply w = { x.apply w with queue := l } := by
  cases w with
  | ctrl v => simp only [BndUnit.apply, BndUnit.ctrl]; split <;> rfl
  | feed n v => exact BndUnit.feedBytes_withQueue ..
  | run hi v =>
    cases hi with
    | false => rfl
    | true => simp only [BndUnit.apply]; split <;> rfl
  | achk v => exact BndUnit.achk_withQueue ..
  | astat v => simp only [BndUnit.apply]; split <;> rfl
  | status v => simp only [BndUnit.apply]; split <;> rfl
  | init | anext | res => rfl

theorem BndUnit.foldl_apply_withQueue (ws : List BndWrite) (x : BndUnit) (l : List BndWrite) :
    ws.foldl BndUnit.apply { x with queue := l } = { ws.foldl BndUnit.apply x with queue := l } := by
  induction ws generalizing x with
  | nil => rfl
  | cons w ws ih => simp only [List.foldl_cons, BndUnit.apply_withQueue, ih]

/-- Eight writes are all that a queue holds. -/
theorem BndUnit.drain_eight {x : BndUnit} (h : x.queue.length ≤ 8) :
    x.drain 8 = { x.queue.foldl BndUnit.apply x with queue := [] } := by
  simp only [BndUnit.drain, List.take_of_length_le h, List.drop_of_length_le h]

/-- However many writes had taken effect when one arrives in a queue with room, all of them and then this one give the drained unit. -/
theorem BndUnit.drain_arrive_drain {x : BndUnit} (n : Nat) (w : BndWrite) (h : x.queue.length < 8) :
    ((x.drain n).arrive w).drain 8 = { (x.queue ++ [w]).foldl BndUnit.apply x with queue := [] } := by
  have hd : (x.drain n).queue.length < 8 := by simp only [BndUnit.drain, List.length_drop]; omega
  have ha : (x.drain n).arrive w = { (x.queue.take n).foldl BndUnit.apply x with queue := x.queue.drop n ++ [w] } := by
    rw [BndUnit.arrive, if_pos hd]; rfl
  rw [ha, BndUnit.drain_eight (by simp only [List.length_append, List.length_drop, List.length_singleton]; omega)]
  simp only [BndUnit.foldl_apply_withQueue, ← List.foldl_append, ← List.append_assoc, List.take_append_drop]

/-! ## Rows -/

/-- The drained unit after a write to it, and what else the write touches. -/
theorem State.bndWrite_effect (s : State) (u : Fin 4) (w : BndWrite) (h : s.band[u].queue.length < 8) :
    (s.bndWrite u w).band[u].drain 8 = { (s.band[u].queue ++ [w]).foldl BndUnit.apply s.band[u] with queue := [] } ∧
      (∀ u', u' ≠ u → (s.bndWrite u w).band[u'] = s.band[u']) :=
  ⟨(congrArg (BndUnit.drain · 8) (vupd_same ..)).trans (BndUnit.drain_arrive_drain _ _ h), fun _ hu => vupd_ne _ hu⟩

/-- Only a reserved ALG is noted (R6). -/
theorem State.algNote_legal {s : State} (u : Fin 4) {v : Nat} (h : fld v 0 2 < 2) : s.algNote u v = s := if_neg (by omega)

/-- A note touches the log alone. -/
theorem State.algNote_eq (s : State) (u : Fin 4) (v : Nat) : s.algNote u v = { s with mon := (s.algNote u v).mon } := by
  unfold State.algNote
  split
  · unfold State.logEvt; split <;> rfl
  · rfl

/-- Every write of the table is a write to its unit, on the state as its note leaves it. -/
theorem exec_bandWrites {u : Fin 4} {v : Word} {hi : Bool} {s : State} (h : s.Specified) (hl : s.linkUp = true) :
    ∀ w ∈ bandWrites u v hi, ∃ m : Monitor, exec w.1 s = .next ({ s with mon := m }.bndWrite u w.2) ∧
      ((∀ x, w.2 = .ctrl x → fld x.toNat 0 2 < 2) → m = s.mon) := by
  have row : ∀ w : BndWrite, bndRow u w s = .next (s.bndWrite u w) := fun w => occurs_of h hl
  have plain : ∀ (c : Instr) (w : BndWrite), exec c s = bndRow u w s →
      ∃ m : Monitor, exec c s = .next ({ s with mon := m }.bndWrite u w) ∧ ((∀ x, w = .ctrl x → fld x.toNat 0 2 < 2) → m = s.mon) :=
    fun c w hc => ⟨s.mon, hc.trans (row w), fun _ => rfl⟩
  simp only [bandWrites, List.forall_mem_cons]
  refine ⟨⟨(s.algNote u v.toNat).mon, ?_, fun ha => ?_⟩, plain _ _ rfl, plain _ _ rfl, plain _ _ rfl, plain _ _ rfl, plain _ _ rfl,
    plain _ _ rfl, plain _ _ rfl, plain _ _ rfl, List.forall_mem_nil _⟩
  · rw [← State.algNote_eq]; exact occurs_of (f := fun s => (s.algNote u v.toNat).bndWrite u (.ctrl v)) h hl
  · rw [State.algNote_legal u (ha v rfl)]

/-- A read of a held register drains the unit first; a unit in BAR0 answers the PF. -/
theorem execBndResultRead_held {u : Fin 4} {reg : BndReg} {s : State} (h : s.Specified) (hl : s.linkUp = true)
    (hr : readHeld reg = true) :
    let s1 := { s with band := vupd s.band u fun x => x.drain 8 }.tick
    execBndResultRead u reg s =
      .next (if u.val < 2 then s1.toHost (.cplData 0 (natLe 4 ((s.band[u].drain 8).value reg))) else s1) := by
  intro s1
  rw [execBndResultRead, occurs_of h hl]
  simp only [hr, if_true]
  rw [show s1.band[u] = s.band[u].drain 8 from vupd_same ..]

/-- Settles O47. A unit's writes commute with its queue, so draining applies them in the order of their arrival. -/
theorem bandUnits : Obligations.BandUnits := by
  intro u s hs hl x
  refine ⟨fun v hi w hw hq => ?_, fun reg hr hq => ?_⟩
  · obtain ⟨m, he, hm⟩ := exec_bandWrites (v := v) (hi := hi) hs hl w hw
    obtain ⟨hd, ho⟩ := State.bndWrite_effect { s with mon := m } u w.2 hq
    exact ⟨_, he, hd, rfl, ho, hm⟩
  · intro y
    have hd : x.drain 8 = y := BndUnit.drain_eight hq
    refine ⟨_, execBndResultRead_held hs hl hr, ?_, fun hu => ?_, fun hu => ?_⟩
    · split <;> exact (vupd_same ..).trans hd
    · rw [if_pos hu, hd]; rfl
    · rw [if_neg (by omega)]; rfl

end Sys2Proof.Machine
end

section
/-! What every command keeps. `State.Keeps` (Laws/Keeps.lean) says that a change of state stays within the parts it names; here it is
proved once for every operation of the model on the state, in order of the model's files, and composed along each command:
`State.Answers ps s o` says that `o` is a next state that `s` keeps all but `ps` in. The canonical form of the memories goes along
with it, so a change of a station also says that its Pantry keeps that form (`Station.Wf`). -/

namespace Sys2Proof.Machine

section

-- These short proofs wait on each other: elaborated at the same time they hold a thread each, more than a data limit of 22 GiB allows.
set_option Elab.async false

variable {s t u : State} {ps qs : List Part} {x : Station}

/-! ## Composing changes -/

/-- A change after a change: it stays within `ps` when both do. -/
theorem State.Keeps.after (g : State.Keeps qs t u) (h : State.Keeps ps s t) (hq : qs ⊆ ps := by decide) : State.Keeps ps s u :=
  h.trans (g.mono fun _ => @hq _)

/-- A change after a change within the same parts. -/
theorem State.Keeps.next (g : State.Keeps ps t u) (h : State.Keeps ps s t) : State.Keeps ps s u := h.trans g

/-- A change within fewer parts. -/
theorem State.Keeps.within (g : State.Keeps qs s t) (hq : qs ⊆ ps := by decide) : State.Keeps ps s t := g.mono fun _ => @hq _

/-- A run of changes over a list. -/
theorem State.foldl_keeps {α : Type} {f : State → α → State} {l : List α} (h : ∀ s x, State.Keeps ps s (f s x)) :
    State.Keeps ps s (l.foldl f s) := by
  induction l generalizing s with
  | nil => exact .refl ..
  | cons x l ih => exact ih.after (h s x) (List.Subset.refl _)

/-- A choice between two changes. -/
theorem State.ite_keeps {c : Prop} [Decidable c] (h : State.Keeps ps s t) (g : State.Keeps ps s u) :
    State.Keeps ps s (if c then t else u) := by
  split
  · exact h
  · exact g

/-- The command answers a next state, to which only the parts of `ps` change. -/
def State.Answers (ps : List Part) (s : State) (o : Host.Outcome State Fault Refusal) : Prop := ∃ t, o = .next t ∧ State.Keeps ps s t

/-- An event keeps what its effect keeps. -/
theorem occurs_answers {c : Bool} {f : State → State} (h : State.Keeps ps s (f s)) : State.Answers ps s (occurs s c f) := by
  unfold occurs
  split
  · exact ⟨_, rfl, h⟩
  · exact ⟨_, rfl, .refl ..⟩

theorem next_answers (h : State.Keeps ps s t) : State.Answers ps s (.next t) := ⟨t, rfl, h⟩

theorem State.Answers.ite {c : Prop} [Decidable c] {a b : Host.Outcome State Fault Refusal} (h : State.Answers ps s a)
    (g : State.Answers ps s b) : State.Answers ps s (if c then a else b) := by
  split
  · exact h
  · exact g

/-! ## One part -/

theorem State.setPower_keeps {x : Power} : State.Keeps [.power] s { s with power := x } :=
  ⟨fun p hp => by cases p <;> simp_all [Part.same], rfl, rfl, .refl _, id⟩
theorem State.setBoot_keeps {x : Boot} : State.Keeps [.boot] s { s with boot := x } :=
  ⟨fun p hp => by cases p <;> simp_all [Part.same], rfl, rfl, .refl _, id⟩
theorem State.setFlash_keeps {x : Flash} : State.Keeps [.flash] s { s with flash := x } :=
  ⟨fun p hp => by cases p <;> simp_all [Part.same], rfl, rfl, .refl _, id⟩
theorem State.setNet_keeps {x : List NetMsg} : State.Keeps [.net] s { s with net := x } :=
  ⟨fun p hp => by cases p <;> simp_all [Part.same], rfl, rfl, .refl _, id⟩
theorem State.setMem_keeps {x : ModMem} (h : s.mem.data.wf = true → x.data.wf = true) : State.Keeps [.mem] s { s with mem :=
  x } :=
  ⟨fun p hp => by cases p <;> simp_all [Part.same], rfl, rfl, .refl _, fun c => ⟨h c.1, c.2⟩⟩
theorem State.setCrown_keeps {x : Crown} : State.Keeps [.crown] s { s with crown := x } :=
  ⟨fun p hp => by cases p <;> simp_all [Part.same], rfl, rfl, .refl _, id⟩
theorem State.setMbx_keeps {x : Vector Mbx 64} : State.Keeps [.mbx] s { s with mbx := x } :=
  ⟨fun p hp => by cases p <;> simp_all [Part.same], rfl, rfl, .refl _, id⟩
theorem State.setBars_keeps {x : Bars} : State.Keeps [.bars] s { s with bars := x } :=
  ⟨fun p hp => by cases p <;> simp_all [Part.same], rfl, rfl, .refl _, id⟩
theorem State.setCfg_keeps {x : CfgSpace} : State.Keeps [.cfg] s { s with cfg := x } :=
  ⟨fun p hp => by cases p <;> simp_all [Part.same], rfl, rfl, .refl _, id⟩
theorem State.setHostOut_keeps {x : List HostTlp} : State.Keeps [.hostOut] s { s with hostOut := x } :=
  ⟨fun p hp => by cases p <;> simp_all [Part.same], rfl, rfl, .refl _, id⟩
theorem State.setBand_keeps {x : Vector BndUnit 4} : State.Keeps [.band] s { s with band := x } :=
  ⟨fun p hp => by cases p <;> simp_all [Part.same], rfl, rfl, .refl _, id⟩
theorem State.setMortar_keeps {x : Mortar} : State.Keeps [.mortar] s { s with mortar := x } :=
  ⟨fun p hp => by cases p <;> simp_all [Part.same], rfl, rfl, .refl _, id⟩
theorem State.setMon_keeps {x : Monitor} : State.Keeps [.mon] s { s with mon := x } :=
  ⟨fun p hp => by cases p <;> simp_all [Part.same], rfl, rfl, .refl _, id⟩
theorem State.setFab_keeps {x : Fabric} : State.Keeps [.fab] s { s with fab := x } :=
  ⟨fun p hp => by cases p <;> simp_all [Part.same], rfl, rfl, .refl _, id⟩
theorem State.setIoSes_keeps {x : Vector (Vector StreamEng 8) 4} : State.Keeps [.ioSes] s { s with ioSes := x } :=
  ⟨fun p hp => by cases p <;> simp_all [Part.same], rfl, rfl, .refl _, id⟩
theorem State.setFresh_keeps {n : Nat} : State.Keeps [] s { s with fresh := n } :=
  ⟨fun p _ => by cases p <;> rfl, rfl, rfl, .refl _, id⟩
theorem State.tick_keeps : State.Keeps [] s s.tick := State.setFresh_keeps

theorem State.setMortarCrown_keeps {x : Mortar} {y : Crown} : State.Keeps [.mortar, .crown] s { s with mortar := x, crown :=
  y } :=
  ⟨fun p hp => by cases p <;> simp_all [Part.same], rfl, rfl, .refl _, id⟩

/-! ## Stations -/

/-- The station's Pantry is in its canonical form. -/
def Station.Wf (x : Station) : Prop := x.pantry.mem.wf = true

theorem Station.Wf.of_pantry {x y : Station} (h : x.Wf) (hp : y.pantry = x.pantry := by rfl) : y.Wf := by
  unfold Station.Wf; rw [hp]; exact h

theorem Station.Wf.ite {c : Prop} [Decidable c] {x y : Station} (h : x.Wf) (g : y.Wf) : (if c then x else y).Wf := by
  split
  · exact h
  · exact g

theorem Station.updGriddle_wf {x : Station} {g : Fin 2} {f : Griddle → Griddle} (h : x.Wf) : (x.updGriddle g f).Wf := h

theorem Station.setModtab_wf {x : Station} {v : Vector ModEntry 64} (h : x.Wf) : Station.Wf { x with modtab := v } := h

theorem State.Canonical.station (h : s.Canonical) (st : Fin 16) : s.stations[st].Wf := h.2 st

theorem State.setStations_keeps {x : Vector Station 16} (h : s.Canonical → ∀ st : Fin 16, x[st].Wf) :
    State.Keeps [.stations] s { s with stations := x } :=
  ⟨fun p hp => by cases p <;> simp_all [Part.same], rfl, rfl, .refl _, fun c => ⟨c.1, h c⟩⟩

theorem State.updStn_keeps {st : Fin 16} {f : Station → Station} (h : ∀ x, x.Wf → (f x).Wf) :
    State.Keeps [.stations] s (s.updStn st f) :=
  State.setStations_keeps fun c i => by
    rw [vupd_get]; split
    · exact h _ (c.station i)
    · exact c.station i

/-- A station is put in place of the old one, canonical where the state that the change began with is. -/
theorem State.Keeps.putStn {st : Fin 16} {x : Station} (h : State.Keeps ps s t) (hx : s.Canonical → x.Wf)
    (hp : [.stations] ⊆ ps := by decide) : State.Keeps ps s (t.putStn st x) where
  same p hq := Part.same_trans (h.same p hq) (by cases p <;> simp_all [Part.same])
  pending := h.pending
  grade := h.grade
  fuses := h.fuses
  canonical c := ⟨(h.canonical c).1, fun i => by
    rw [State.putStn_get]; split
    · exact hx c
    · exact (h.canonical c).station i⟩

theorem State.mapStns_keeps {p : Fin 16 → Bool} {f : Station → Station} (h : ∀ x, x.Wf → (f x).Wf) :
    State.Keeps [.stations] s (s.mapStns p f) :=
  State.setStations_keeps fun c i => by
    simp only [Fin.getElem_fin, Vector.getElem_ofFn]; split
    · exact h _ (c.station i)
    · exact c.station i

theorem Station.wr_wf {x : Station} {off : Nat} {bs : List Byte} (h : x.Wf) : (x.wr off bs).Wf := Mem.wf_writeN _ _ h

theorem Station.wrAll_wf {x : Station} {ws : List (Nat × List Byte)} (h : x.Wf) : (x.wrAll ws).Wf := by
  unfold Station.wrAll
  induction ws generalizing x with
  | nil => exact h
  | cons w ws ih => exact ih (Station.wr_wf h)

theorem Station.blur_wf {x : Station} {n : Nat} {ws : List (Nat × List Byte)} (h : x.Wf) : (x.blur n ws).Wf := Station.wrAll_wf h

/-! ## The log, jobs and faults -/

theorem State.updIo_keeps {f : StreamEng → StreamEng} : State.Keeps [.ioSes] s (s.updIo f) := by
  unfold State.updIo
  split
  · exact State.setIoSes_keeps
  · exact .refl ..

theorem State.logEvt_keeps {e : LogEvt} : State.Keeps [.mon] s (s.logEvt e) :=
  State.ite_keeps State.setMon_keeps State.setMon_keeps

theorem State.noteSat_keeps {key : Nat} {kind unit station : Byte} {off : Nat} :
    State.Keeps [.mon] s (s.noteSat key kind unit station off) :=
  State.ite_keeps (.refl ..) (State.tick_keeps.after (State.logEvt_keeps.after State.setMon_keeps))

theorem State.noteIf_keeps {b : Bool} {key : Nat} {kind unit station : Byte} {off : Nat} :
    State.Keeps [.mon] s (s.noteIf b key kind unit station off) :=
  State.ite_keeps State.noteSat_keeps (.refl ..)

theorem State.unmark_keeps {keys : List Nat} : State.Keeps [.mon] s (s.unmark keys) := State.setMon_keeps

theorem State.updSession_keeps {i : Nat} {f : Session → Session} : State.Keeps [.crown] s (s.updSession i f) :=
  State.setCrown_keeps

theorem State.updJob_keeps {j : Nat} {f : Job → Job} : State.Keeps [.crown] s (s.updJob j f) := State.setCrown_keeps

theorem State.abortJob_keeps {j : Nat} {c : Byte} {b : Bool} : State.Keeps startParts s (s.abortJob j c b) := by
  have stopped (f : Job → Job) : State.Keeps startParts s ((s.updJob j f).mapStns (s.holds j) Station.stop) :=
    .after (State.mapStns_keeps fun _ h => h) State.updJob_keeps.within
  unfold State.abortJob
  split
  · exact .refl ..
  · split
    · dsimp only
      split
      · exact State.setMortarCrown_keeps.after (stopped _)
      · exact stopped _
    · exact .refl ..

theorem State.instrFault_keeps {st : Fin 16} {c : Byte} : State.Keeps startParts s (s.instrFault st c) := by
  unfold State.instrFault
  split
  · exact State.abortJob_keeps
  · exact .refl ..

theorem State.seFault_keeps {st : Fin 16} {e : Fin 4} {c : Byte} {i : Nat} : State.Keeps startParts s (s.seFault st e c i) :=
  State.instrFault_keeps.after (.within (State.updStn_keeps fun _ h => h))

theorem State.countInternal_keeps {st : Fin 16} {n : Nat} : State.Keeps [.stations] s (s.countInternal st n) :=
  State.updStn_keeps fun _ h => h

theorem State.loggedFault_keeps {st : Fin 16} {n : Nat} {c : Byte} {d : List Byte} :
    State.Keeps engineParts s (s.loggedFault st n c d) :=
  State.instrFault_keeps.after State.logEvt_keeps.within

/-! ## Checks of the engines -/

theorem State.countReplay_keeps {st : Fin 16} {e : Fin 12} : State.Keeps [.stations, .mon] s (s.countReplay st e) :=
  State.noteIf_keeps.after (.within (State.updStn_keeps fun _ h => h))

theorem State.countFail_keeps {st : Fin 16} {e : Fin 12} {g : BitVec 16} : State.Keeps [.stations, .mon] s (s.countFail st e g) :=
  State.noteIf_keeps.after (.within (State.updStn_keeps fun _ h => h))

/-- A checked operation: its check counts and the job that a failure ends, beside what it does when it passes. -/
theorem State.checked_keeps {st : Fin 16} {e : Fin 12} {v : Verdict} {n : Nat} {ok : State → State}
    (h : ∀ u, State.Keeps engineParts u (ok u)) : State.Keeps engineParts s (s.checked st e v n ok) := by
  unfold State.checked
  split
  · exact h s
  · exact (h _).after State.countReplay_keeps.within
  · exact State.loggedFault_keeps.after State.countFail_keeps.within

theorem State.eccCount_keeps {st : Fin 16} {ecc : EccEvent} : State.Keeps [.stations, .mon] s (s.eccCount st ecc) := by
  unfold State.eccCount
  split
  · exact .refl ..
  · exact State.noteIf_keeps.after (.within (State.updStn_keeps fun _ h => h))
  · exact State.noteIf_keeps.after (.within (State.updStn_keeps fun _ h => h))

/-- Reads of a Pantry: their counts and the job that a lost word ends, beside what their operation does. -/
theorem State.eccSeen_keeps {st : Fin 16} {n : Nat} {ecc : EccEvent} {ok : State → State} (h : ∀ u, State.Keeps ps u (ok u))
    (hp : engineParts ⊆ ps := by decide) : State.Keeps ps s (s.eccSeen st n ecc ok) := by
  unfold State.eccSeen
  split
  · exact (State.loggedFault_keeps.after (State.countInternal_keeps.after State.eccCount_keeps.within)).within hp
  · exact (State.eccCount_keeps.within (List.Subset.trans (by decide) hp)).trans (h _)

/-! ## Module memory -/

theorem State.memStore_keeps {ma : Nat} {bs : List Byte} : State.Keeps [.mem] s (s.memStore ma bs) :=
  State.setMem_keeps fun h => Mem.wf_writeN _ _ h

theorem State.memPut_keeps {ma : Nat} {bs : List Byte} : State.Keeps [.mem] s (s.memPut ma bs) :=
  .after (State.setMem_keeps id) State.memStore_keeps

theorem State.updStack_keeps {site : Nat} {f : Stack → Stack} : State.Keeps [.mem] s (s.updStack site f) := State.setMem_keeps id

theorem State.noteStack_keeps {site : Nat} {old : Stack} : State.Keeps [.mon] s (s.noteStack site old) :=
  .after State.noteIf_keeps (.after State.noteIf_keeps State.noteIf_keeps)

theorem State.crcEvent_keeps {ma site fails : Nat} : State.Keeps memoryParts s (s.crcEvent ma site fails) :=
  State.ite_keeps (.after State.noteStack_keeps (.within State.updStack_keeps))
    (.after State.logEvt_keeps (.after State.noteStack_keeps (.within State.updStack_keeps)))

theorem State.poisonSeen_keeps {n : Nat} : State.Keeps memoryParts s (s.poisonSeen n) := by
  unfold State.poisonSeen
  split
  · exact .within (State.setMem_keeps id)
  · split
    · exact State.crcEvent_keeps
    · exact .refl ..

theorem State.memGet_keeps {ma n : Nat} : State.Keeps memoryParts s (s.memGet ma n).1 := by
  unfold State.memGet
  dsimp only
  split
  · exact .refl ..
  · exact State.foldl_keeps fun _ _ => State.poisonSeen_keeps

theorem State.countSieve_keeps {ma : Nat} : State.Keeps [.mem] s (s.countSieve ma) := by
  unfold State.countSieve
  split
  · exact State.updStack_keeps
  · exact .refl ..

theorem State.sieve_keeps {ma : Nat} : State.Keeps memoryParts s (s.sieve ma).1 :=
  .after State.memGet_keeps (.within State.countSieve_keeps)

theorem State.barWrite_keeps {ma : Nat} {bs : List Byte} : State.Keeps memoryParts s (s.barWrite ma bs) :=
  State.foldl_keeps fun _ _ => State.ite_keeps State.poisonSeen_keeps (.within State.memPut_keeps)

theorem State.crownPut_keeps {ma : Nat} {bs : List Byte} : State.Keeps [.mem] s (s.crownPut ma bs) := State.memPut_keeps

theorem State.memZero_keeps {ma n : Nat} : State.Keeps [.mem] s (s.memZero ma n) :=
  State.setMem_keeps fun h => Mem.wf_zeroRange _ _ h

theorem State.invalidate_keeps {first n : Nat} : State.Keeps [.stations] s (s.invalidate first n) :=
  State.mapStns_keeps fun _ h => h

/-! ## Mailboxes, replies and the ends of jobs and sessions -/

theorem State.updMbx_keeps {f : Fin 64} {g : Mbx → Mbx} : State.Keeps [.mbx] s (s.updMbx f g) := State.setMbx_keeps

theorem State.toHost_keeps {x : HostTlp} : State.Keeps [.hostOut] s (s.toHost x) := State.setHostOut_keeps

theorem State.msi_keeps {f : Fin 64} {vec : Nat} : State.Keeps [.mbx, .hostOut] s (s.msi f vec) :=
  State.ite_keeps (.within State.updMbx_keeps) (.within State.toHost_keeps)

theorem State.signal0_keeps {f : Fin 64} : State.Keeps [.mbx, .hostOut] s (s.signal0 f) :=
  .after State.msi_keeps (.within State.updMbx_keeps)

theorem State.signalCheck_keeps {f : Fin 64} : State.Keeps [.mbx, .hostOut] s (s.signalCheck f) :=
  State.ite_keeps State.signal0_keeps (.refl ..)

theorem State.setKpmBase_keeps {f : Dword → Dword} : State.Keeps [.stations, .crown] s (s.setKpmBase f) :=
  .after State.setCrown_keeps (.within (State.mapStns_keeps fun _ h => h))

theorem State.clearEntries_keeps {first n : Nat} : State.Keeps [.mem] s (s.clearEntries first n) :=
  State.foldl_keeps fun _ _ => State.crownPut_keeps

theorem State.releaseKeySet_keeps {tag : Nat} : State.Keeps [.stations, .mem, .crown] s (s.releaseKeySet tag) := by
  unfold State.releaseKeySet
  split
  · exact .refl ..
  · exact .after State.setCrown_keeps
      (State.foldl_keeps fun _ _ => .after State.clearEntries_keeps (.within State.invalidate_keeps))

theorem State.releaseRetired_keeps : State.Keeps [.stations, .mem, .crown] s s.releaseRetired :=
  State.foldl_keeps fun _ _ => State.releaseKeySet_keeps

theorem State.pushPlain_keeps {f : Fin 64} {r : Reply} : State.Keeps [.mbx] s (s.pushPlain f r) :=
  State.ite_keeps State.updMbx_keeps (.refl ..)

theorem State.retireAll_keeps {ses : Nat} : State.Keeps [.crown] s (s.retireAll ses) := State.setCrown_keeps

theorem State.freeBuffers_keeps {ses : Nat} : State.Keeps [.crown] s (s.freeBuffers ses) := State.setCrown_keeps

theorem State.refuseJob_keeps {j : Nat} {c : Byte} {m n : Nat} : State.Keeps [.crown, .mbx] s (s.refuseJob j c m n) :=
  .after State.pushPlain_keeps (.within State.updJob_keeps)

theorem State.refuseWaiting_keeps {ses : Nat} : State.Keeps [.crown, .mbx] s (s.refuseWaiting ses) :=
  State.foldl_keeps fun _ _ => State.refuseJob_keeps

theorem State.closeFinish_keeps {ses : Nat} : State.Keeps endParts s (s.closeFinish ses) := by
  have freed : State.Keeps endParts s ((((s.refuseWaiting ses).retireAll ses).releaseRetired).freeBuffers ses) :=
    .after State.freeBuffers_keeps (.after State.releaseRetired_keeps (.after State.retireAll_keeps
      (.within State.refuseWaiting_keeps)))
  have answered (rs : List ReqRef) (f : Session → Session) (g : ReqRef → Reply) : State.Keeps endParts s
      (rs.foldl (fun s r => s.pushPlain r.f (g r))
        (((((s.refuseWaiting ses).retireAll ses).releaseRetired).freeBuffers ses).updSession ses f)) :=
    .after (State.foldl_keeps fun _ _ => State.pushPlain_keeps) (.after State.updSession_keeps freed)
  exact State.ite_keeps (.after State.msi_keeps (answered ..)) (answered ..)

theorem State.closeCheck_keeps {ses : Nat} : State.Keeps endParts s (s.closeCheck ses) :=
  State.ite_keeps State.closeFinish_keeps (.refl ..)

theorem State.pinAll_keeps {hs : List Handle} {f : Nat → Nat} : State.Keeps [.crown] s (s.pinAll hs f) := State.setCrown_keeps

theorem State.jobWritten_keeps {j : Nat} : State.Keeps endParts s (s.jobWritten j) := by
  unfold State.jobWritten
  split
  · exact .refl ..
  · dsimp only
    split
    · exact .refl ..
    · have ended (f : Job → Job) (c : Crown) (hs : List Handle) (g : Nat → Nat) :
          State.Keeps endParts s { (s.pinAll hs g).updJob j f with crown := c } :=
        .after State.setCrown_keeps (.after State.updJob_keeps (.within State.pinAll_keeps))
      exact .after State.closeCheck_keeps (.after State.releaseRetired_keeps
        (State.ite_keeps (.after State.updSession_keeps (ended ..)) (ended ..)))

theorem State.push_keeps {f : Fin 64} {r : Reply} : State.Keeps endParts s (s.push f r) := by
  unfold State.push
  split
  · exact State.ite_keeps (.within State.pushPlain_keeps) State.jobWritten_keeps
  · exact .within State.pushPlain_keeps

theorem State.reply_keeps {r : ReqRef} {c : Byte} {b : List Byte} : State.Keeps [.mbx] s (s.reply r c b) := State.pushPlain_keeps

theorem State.complete_keeps {r : ReqRef} {c : Byte} {b : List Byte} : State.Keeps [.mbx] s (s.complete r c b) :=
  State.pushPlain_keeps

theorem State.writeEntry_keeps {f : Fin 64} : State.Keeps endParts s (s.writeEntry f) := by
  unfold State.writeEntry
  dsimp only
  split
  · exact .refl ..
  · split
    · exact .refl ..
    · have written (g : Mbx → Mbx) (x : HostTlp) (vec : Nat) : State.Keeps endParts s
          (if vec = 0 then ((s.updMbx f g).toHost x).signalCheck f else ((s.updMbx f g).toHost x).msi f vec) :=
        State.ite_keeps (.after State.signalCheck_keeps (.after State.toHost_keeps (.within State.updMbx_keeps)))
          (.after State.msi_keeps (.after State.toHost_keeps (.within State.updMbx_keeps)))
      split
      · exact .after State.jobWritten_keeps (written ..)
      · exact written ..

theorem State.writeAll_keeps {f : Fin 64} : State.Keeps endParts s (s.writeAll f) :=
  State.foldl_keeps fun _ _ => State.writeEntry_keeps

theorem State.dropReplies_keeps {f : Fin 64} : State.Keeps endParts s (s.dropReplies f) :=
  .after (State.foldl_keeps fun _ _ => State.jobWritten_keeps) (.within State.updMbx_keeps)

/-! ## Commands of the mailboxes -/

theorem State.recoveryRefuse_keeps {r : ReqRef} : State.Keeps [.mbx, .mon] s (s.recoveryRefuse r) :=
  .after State.reply_keeps (.within State.logEvt_keeps)

theorem State.popReq_keeps {f : Fin 64} : State.Keeps [.mbx, .crown] s (s.popReq f) :=
  .after State.setCrown_keeps (.within State.updMbx_keeps)

theorem State.settleGo_keeps {f : Fin 64} (n : Nat) : State.Keeps recordParts s (State.settleGo f n s) := by
  induction n generalizing s with
  | zero => exact .refl ..
  | succ n ih =>
    unfold State.settleGo
    split
    · exact .refl ..
    · exact State.ite_keeps (.refl ..) (.after ih (State.ite_keeps (.after State.recoveryRefuse_keeps (.within State.popReq_keeps))
        (.after State.reply_keeps (.within State.popReq_keeps))))

theorem State.settle_keeps {f : Fin 64} : State.Keeps recordParts s (s.settle f) := State.settleGo_keeps _

/-- A command of a mailbox: its entry, its reply and the entries refused behind it, beside what it does when it is taken. -/
theorem cmdRow_answers {f : Fin 64} {op : Nat} {fields : List (Nat × Nat)} {pf owner : Bool}
    {run : State → ReqRef → List Byte → State} (h : ∀ s r b, State.Keeps ps s (run s r b)) (hp : recordParts ⊆ ps := by decide) :
    State.Answers ps s (cmdRow f op fields pf owner run s) := by
  refine occurs_answers ?_
  dsimp only
  split
  · exact .refl ..
  · have popped : State.Keeps ps s (s.popReq f) := .within State.popReq_keeps (List.Subset.trans (by decide) hp)
    refine .after State.settle_keeps (State.ite_keeps ?_ (State.ite_keeps ?_ ?_)) hp
    · exact .after State.recoveryRefuse_keeps popped (List.Subset.trans (by decide) hp)
    · exact .after State.reply_keeps popped (List.Subset.trans (by decide) hp)
    · exact popped.trans (h ..)

theorem State.tryReady_keeps : State.Keeps [.boot] s s.tryReady := State.ite_keeps State.setBoot_keeps (.refl ..)

/-! ## Band -/

theorem State.bndWrite_keeps {u : Fin 4} {w : BndWrite} : State.Keeps [.band] s (s.bndWrite u w) :=
  .after State.tick_keeps State.setBand_keeps

theorem State.algNote_keeps {u : Fin 4} {v : Nat} : State.Keeps [.mon] s (s.algNote u v) :=
  State.ite_keeps State.logEvt_keeps (.refl ..)

theorem bndRow_answers {u : Fin 4} {w : BndWrite} : State.Answers [.band] s (bndRow u w s) := occurs_answers State.bndWrite_keeps

theorem execBndCtrlWrite_answers {u : Fin 4} {v : Word} : State.Answers [.band, .mon] s (execBndCtrlWrite u v s) :=
  occurs_answers (.after State.bndWrite_keeps (.within State.algNote_keeps))

theorem execBndResultRead_answers {u : Fin 4} {reg : BndReg} : State.Answers [.hostOut, .band] s (execBndResultRead u reg s) :=
  have drained (x : Vector BndUnit 4) : State.Keeps [.hostOut, .band] s ({ s with band := x } : State).tick :=
    .after State.tick_keeps (.within State.setBand_keeps)
  occurs_answers (State.ite_keeps (.after State.toHost_keeps (drained _)) (drained _))

theorem Station.updAt_wf {q : Fin 22} {i : Nat} {f : QEntry → QEntry} (h : x.Wf) : (x.updAt q i f).Wf := h

/-! ## Plans of operations, and their rows -/

/-- A plan leaves the station with a Pantry in its canonical form. -/
def Plan.Wf : Plan → Prop
  | .fault _ => True
  | .go x _ => x.Wf
  | .stop x _ => x.Wf

theorem Plan.Wf.ite {c : Prop} [Decidable c] {p q : Plan} (h : p.Wf) (g : q.Wf) : (if c then p else q).Wf := by
  split
  · exact h
  · exact g

theorem State.startOp_keeps {st : Fin 16} {q : Fin 22} {i : Nat} {p : Plan} (h : s.Canonical → p.Wf) :
    State.Keeps startParts s (s.startOp st q i p) := by
  cases p with
  | fault c => exact State.instrFault_keeps
  | go x e => exact .after State.tick_keeps (.putStn (.refl ..) h)
  | stop x c => exact .after State.tick_keeps (.after State.instrFault_keeps (.putStn (.refl ..) h))

theorem opRow_answers {st : Fin 16} {q : Fin 22} {op : Nat} {plan : State → Station → QEntry → Plan}
    (h : ∀ s x e, x.Wf → (plan s x e).Wf) : State.Answers startParts s (opRow st q op plan s) := by
  refine occurs_answers ?_
  split
  · exact State.startOp_keeps fun c => h _ _ _ (c.station st)
  · exact .refl ..

theorem opRead_answers {st : Fin 16} {q : Fin 22} {op : Nat} {ecc : EccEvent} {plan : State → Station → QEntry → Plan}
    (h : ∀ s x e, x.Wf → (plan s x e).Wf) : State.Answers engineParts s (opRead st q op ecc plan s) := by
  refine occurs_answers ?_
  split
  · exact State.eccSeen_keeps fun u => .within (State.startOp_keeps fun c => h _ _ _ (c.station st))
  · exact .refl ..

theorem runRow_answers {st : Fin 16} {q : Fin 22} {ops : List Nat} {ready : State → Station → QEntry → Bool}
    {effect : State → Station → Nat → QEntry → State} (h : ∀ s i e, State.Keeps ps s (effect s s.stations[st] i e)) :
    State.Answers ps s (runRow st q ops ready effect s) := by
  refine occurs_answers ?_
  split
  · exact h ..
  · exact .refl ..

theorem controlRow_answers {st : Fin 16} {op : Nat} {effect : State → Station → BitVec 128 → State}
    (h : ∀ s iw, State.Keeps ps s (effect s s.stations[st] iw)) : State.Answers ps s (controlRow st op effect s) := by
  refine occurs_answers ?_
  split
  · exact h ..
  · exact .refl ..

theorem borrowedRow_answers {st : Fin 16} {q : Fin 22} {chk : Fin 12} {v : Verdict} :
    State.Answers engineParts s (borrowedRow st q chk v s) := by
  refine occurs_answers ?_
  split
  · exact State.checked_keeps fun u => .refl ..
  · exact .refl ..

/-! ## The sequencer -/

theorem Station.applySignal_wf {kind idx : Nat} (h : x.Wf) : (x.applySignal kind idx).Wf :=
  .ite h (.ite h (.ite h h))

theorem State.raise_keeps {st : Fin 16} {iw : BitVec 128} : State.Keeps signalParts s (s.raise st iw) :=
  State.ite_keeps (.refl ..) (State.ite_keeps (.putStn (.refl ..) fun c => Station.applySignal_wf (c.station st))
    (.within State.setNet_keeps))

theorem State.controlDone_keeps {st : Fin 16} {iw : BitVec 128} (h : s.Canonical → x.Wf) :
    State.Keeps signalParts s (s.controlDone st iw x) :=
  .after State.raise_keeps (.putStn (.refl ..) h)

theorem execNop_answers {st : Fin 16} : State.Answers signalParts s (execNop st s) :=
  controlRow_answers fun _ _ => State.controlDone_keeps fun c => c.station st

theorem execEndCode_answers {st : Fin 16} : State.Answers signalParts s (execEndCode st s) :=
  controlRow_answers fun _ _ => State.controlDone_keeps fun c => c.station st

theorem execCset_answers {st : Fin 16} : State.Answers signalParts s (execCset st s) :=
  controlRow_answers fun _ _ => State.controlDone_keeps fun c => c.station st

theorem execCmpset_answers {st : Fin 16} : State.Answers signalParts s (execCmpset st s) :=
  controlRow_answers fun _ _ => State.controlDone_keeps fun c => c.station st

theorem execCload_answers {st : Fin 16} {ecc : EccEvent} : State.Answers engineParts s (execCload st ecc s) := by
  refine controlRow_answers fun s iw => ?_
  split
  · exact .within State.instrFault_keeps
  · exact State.eccSeen_keeps fun u => .within (State.updStn_keeps fun _ h => h)

theorem execCstore_answers {st : Fin 16} : State.Answers messageParts s (execCstore st s) := by
  refine controlRow_answers fun s iw => ?_
  split
  · exact .within State.instrFault_keeps
  · exact .within (State.controlDone_keeps fun c => Station.wr_wf (c.station st))

theorem Station.looped_wf {iw : BitVec 128} (h : x.Wf) : (x.looped iw).Wf := by
  unfold Station.looped; exact .ite h h

theorem execLoop_answers {st : Fin 16} : State.Answers signalParts s (execLoop st s) :=
  controlRow_answers fun _ _ => .after State.raise_keeps (.putStn (.refl ..) fun c => Station.looped_wf (c.station st))

theorem execCloadWordArrival_answers {st : Fin 16} : State.Answers signalParts s (execCloadWordArrival st s) := by
  refine occurs_answers ?_
  split
  · exact .after State.raise_keeps (.putStn (.refl ..) fun c => c.station st)
  · exact .refl ..

theorem execDispatch_answers {st : Fin 16} : State.Answers stationPart s (execDispatch st s) := by
  refine occurs_answers ?_
  split
  · exact .putStn (.refl ..) fun c => c.station st
  · exact .refl ..

theorem execEngineIssue_answers {st : Fin 16} {q : Fin 22} : State.Answers stationPart s (execEngineIssue st q s) := by
  refine occurs_answers ?_
  split
  · exact State.updStn_keeps fun _ h => h
  · exact .refl ..

/-! ## The end of an operation -/

theorem Station.putHdr_wf {y : Station} {p : PendHdr} (h : x.Wf) (hy : x.putHdr p = some y) : y.Wf := by
  unfold Station.putHdr at hy
  dsimp only at hy
  split at hy
  · cases hy; exact Station.wr_wf h
  · split at hy
    · cases hy; exact Station.wr_wf h
    · cases hy

theorem Station.putHdrs_wf {l : List PendHdr} {y : Station} (h : x.Wf) (hy : x.putHdrs l = some y) : y.Wf := by
  induction l generalizing x with
  | nil => cases hy; exact h
  | cons p l ih =>
    obtain ⟨z, hz, hy⟩ := Option.bind_eq_some_iff.mp hy
    exact ih (Station.putHdr_wf h hz) hy

theorem Station.putOut_wf {e : QEntry} {y : Station} (h : x.Wf) (hy : x.putOut e = some y) : y.Wf :=
  Station.putHdrs_wf (Station.wrAll_wf h) hy

theorem Station.endOp_wf {q : Fin 22} {e : QEntry} (h : x.Wf) : (x.endOp q e).Wf := by
  unfold Station.endOp
  refine .ite ?_ (.ite h (.ite h h))
  split
  · exact h
  · exact h

theorem State.finishEntry_keeps {st : Fin 16} {q : Fin 22} {i : Nat} {e : QEntry} :
    State.Keeps messageParts s (s.finishEntry st q i e) := by
  unfold State.finishEntry
  split
  · exact .within State.instrFault_keeps
  · next hx =>
    exact .after State.raise_keeps (.putStn (.refl ..) fun c => Station.endOp_wf (.of_pantry (Station.putOut_wf (c.station st) hx)))

theorem execInstructionSignal_answers {st : Fin 16} {q : Fin 22 × EccEvent} :
    State.Answers [.stations, .net, .crown, .mortar, .mon] s (execInstructionSignal st q s) := by
  refine occurs_answers ?_
  split
  · exact State.eccSeen_keeps fun u => .within State.finishEntry_keeps
  · exact .refl ..

/-! ## Messages between stations -/

theorem execRemoteSignal_answers {src dst : Fin 16} : State.Answers signalParts s (execRemoteSignal src dst s) := by
  refine occurs_answers ?_
  split
  · exact .refl ..
  · split
    · split
      · exact .after (State.updStn_keeps fun _ h => Station.applySignal_wf h) (.within State.setNet_keeps)
      · exact .after State.setNet_keeps (.after (State.updStn_keeps fun _ h => h) (.within State.setNet_keeps))
    · exact .refl ..

theorem State.countStale_keeps {ses : Nat} : State.Keeps [.crown] s (s.countStale ses) := State.setCrown_keeps

theorem execStaleAnswer_answers {st : Fin 16} : State.Answers messageParts s (execStaleAnswer st s) := by
  refine occurs_answers ?_
  split
  · exact .refl ..
  · split
    · split
      · exact .after State.seFault_keeps (.after State.countStale_keeps (.within State.setNet_keeps))
      · exact .after State.instrFault_keeps (.after State.countStale_keeps (.within State.setNet_keeps))
    · exact .within State.setNet_keeps

theorem planMload_wf {e : QEntry} (h : x.Wf) : (planMload s x e).Wf := by
  unfold planMload; exact .ite trivial (Station.setModtab_wf h)

theorem planAhdr_wf {e : QEntry} (h : x.Wf) : (planAhdr s x e).Wf := by
  unfold planAhdr; split
  · trivial
  · exact h

theorem execEsync_answers {st : Fin 16} {q : Fin 22} : State.Answers startParts s (execEsync st q s) :=
  opRow_answers fun _ _ _ h => h

theorem execStationPartComplete_answers {st : Fin 16} : State.Answers stationPart s (execStationPartComplete st s) :=
  occurs_answers (State.updStn_keeps fun _ h => h)

/-! ## Griddle -/

theorem planGload_wf {g : Fin 2} {e : QEntry} (h : x.Wf) : (planGload g s x e).Wf := by
  unfold planGload; dsimp only; split
  · trivial
  · exact .ite (Station.updGriddle_wf h) trivial

theorem Station.passDone_wf {g : Fin 2} {p : Gmac} {chain : List Slot} {w src dst n fresh : Nat} (h : x.Wf) :
    (x.passDone g p chain w src dst n fresh).Wf := Station.blur_wf (Station.updGriddle_wf h)

theorem planGmac_wf {g : Fin 2} {e : QEntry} (h : x.Wf) : (planGmac g s x e).Wf := by
  unfold planGmac; split
  · trivial
  · exact h

theorem execGriddlePass_answers {st : Fin 16} {g : Fin 2} {v : Verdict} {ecc : EccEvent} :
    State.Answers engineParts s (execGriddlePass st g v ecc s) := by
  refine .ite borrowedRow_answers (runRow_answers fun s i e => ?_)
  refine .next (State.eccSeen_keeps fun u => State.ite_keeps ?_ (.within State.instrFault_keeps))
    (.within (State.updStn_keeps fun _ h => h))
  exact .next (State.checked_keeps fun w => .within (State.updStn_keeps fun _ h => h))
    (.after State.tick_keeps (.within (State.updStn_keeps fun _ h => Station.passDone_wf h)))

theorem planGkeydot_wf {e : QEntry} (h : x.Wf) : (planGkeydot s x e).Wf := by
  unfold planGkeydot; split
  · trivial
  · exact h

theorem execGkeydotBlock_answers {st : Fin 16} {g : Fin 2} {v : Verdict × EccEvent} :
    State.Answers engineParts s (execGkeydotBlock st g v s) := by
  refine .ite borrowedRow_answers (runRow_answers fun s i e => ?_)
  refine State.eccSeen_keeps fun u => State.ite_keeps ?_ (.within State.instrFault_keeps)
  exact .next (State.checked_keeps fun w => .within (State.updStn_keeps fun _ h => h))
    (.after State.tick_keeps (.within (State.updStn_keeps fun _ h => Station.blur_wf h)))

/-! ## Whisk and Kettle -/

theorem planWntt_wf {e : QEntry} (h : x.Wf) : (planWntt s x e).Wf := by
  unfold planWntt; split
  · trivial
  · refine Plan.Wf.ite ?_ trivial
    exact Station.blur_wf h

theorem execWhiskStage_answers {st : Fin 16} {g : Fin 2} {v : Verdict} : State.Answers engineParts s (execWhiskStage st g v s) :=
  .ite borrowedRow_answers (runRow_answers fun _ _ _ => State.checked_keeps fun _ => .within (State.updStn_keeps fun _ h => h))

theorem planKrefresh_wf {k : Fin 8} {e : QEntry} (h : x.Wf) : (planKrefresh k s x e).Wf := by
  unfold planKrefresh; split
  · trivial
  · dsimp only; split
    · exact h
    · trivial

theorem execKettleRotationStart_answers {st : Fin 16} {k : Fin 8} {n : Nat} :
    State.Answers stationPart s (execKettleRotationStart st k n s) :=
  runRow_answers fun _ _ _ => State.updStn_keeps fun _ h => h

theorem execKettleElementStep_answers {st : Fin 16} {k : Fin 8} {v : Verdict × Nat} :
    State.Answers engineParts s (execKettleElementStep st k v s) :=
  runRow_answers fun _ _ _ => State.checked_keeps fun _ => .within (State.updStn_keeps fun _ h => h)

theorem Station.afterRound_wf {k : Fin 8} {i : Nat} {e : QEntry} {n : Nat} (h : x.Wf) : (x.afterRound k i e n).Wf := by
  unfold Station.afterRound; exact .ite (Station.blur_wf h) h

theorem execKeySwitchRound_answers {st : Fin 16} {k : Fin 8} {v : Verdict × Nat} :
    State.Answers engineParts s (execKeySwitchRound st k v s) :=
  .ite borrowedRow_answers (runRow_answers fun _ _ _ => State.checked_keeps fun _ =>
    .after State.tick_keeps (.within (State.updStn_keeps fun _ h => Station.afterRound_wf h)))

/-! ## Blocker -/

theorem planBextract_wf {st : Fin 16} {e : QEntry} (h : x.Wf) : (planBextract st s x e).Wf := by
  unfold planBextract; split
  · trivial
  · exact h

theorem planBpack_wf {st : Fin 16} {e : QEntry} (h : x.Wf) : (planBpack st s x e).Wf := by
  unfold planBpack; split
  · trivial
  · exact h

theorem Station.updBlocker_wf {f : Blocker → Blocker} (h : x.Wf) : (x.updBlocker f).Wf := h

theorem execBextractPass_answers {st : Fin 16} : State.Answers stationPart s (execBextractPass st s) :=
  runRow_answers fun _ _ _ => State.updStn_keeps fun _ h =>
    Station.updAt_wf (Station.updBlocker_wf (Station.wrAll_wf h))

theorem Station.bpkTerm_wf {e : QEntry} {y : Station} (h : x.Wf) (hy : x.bpkTerm e = some y) : y.Wf := by
  obtain ⟨_, _, rfl⟩ := Option.map_eq_some_iff.mp hy
  exact Station.updBlocker_wf h

theorem Station.blkTake_wf {ks : Option KeySet} {i : Nat} {e : QEntry} {ws : List Word} {y : Station} (h : x.Wf)
    (hy : x.blkTake ks i e ws = some y) : y.Wf := by
  have h1 {f : Blocker → Blocker} : (x.updBlocker f).Wf := Station.updBlocker_wf h
  unfold Station.blkTake at hy
  dsimp only at hy
  split at hy
  · cases hy; exact h1
  · split at hy
    · obtain ⟨t2, ht2, hy⟩ := Option.bind_eq_some_iff.mp hy
      have h2 : t2.Wf := Station.bpkTerm_wf h1 ht2
      split at hy
      · obtain ⟨bs, _, rfl⟩ := Option.map_eq_some_iff.mp hy
        exact Station.updBlocker_wf (Station.wr_wf h2)
      · cases hy; exact h2
    · split at hy
      · obtain ⟨c, _, rfl⟩ := Option.map_eq_some_iff.mp hy
        exact Station.updBlocker_wf h1
      · cases hy; exact h1

/-! ## Ports -/

theorem State.updPort_keeps {p : Fin 14} {f : Port → Port} : State.Keeps [.fab] s (s.updPort p f) := State.setFab_keeps

theorem State.portSend_keeps {p : Fin 14} {m : BitVec 10} {frame : List Byte} : State.Keeps [.fab] s (s.portSend p m frame) :=
  State.updPort_keeps

theorem State.sendBy_keeps {p : Fin 14} {h : FrameHdr} {b : List Byte} : State.Keeps [.fab] s (s.sendBy p h b) :=
  State.portSend_keeps

theorem State.sendTo_keeps {h : FrameHdr} {b : List Byte} : State.Keeps [.fab] s (s.sendTo h b) := by
  unfold State.sendTo
  split
  · exact .after State.tick_keeps State.sendBy_keeps
  · exact .refl ..

theorem State.seLogged_keeps {st : Fin 16} {e : Fin 4} {c : Byte} {i : Nat} : State.Keeps engineParts s (s.seLogged st e c i) :=
  .after State.seFault_keeps (.within State.logEvt_keeps)

theorem State.linkLost_keeps {p : Fin 14} : State.Keeps linkParts s (s.linkLost p) := by
  unfold State.linkLost
  refine .next (State.foldl_keeps fun s y => ?_)
    (.next (State.foldl_keeps fun _ _ => .within State.seLogged_keeps) (.within State.setFab_keeps))
  split
  · exact State.foldl_keeps fun _ _ => .within State.seLogged_keeps
  · exact .refl ..

theorem State.unbindPort_keeps {p : Fin 14} : State.Keeps [.crown] s (s.unbindPort p) := State.setCrown_keeps

theorem State.pruneRelayed_keeps : State.Keeps [.fab] s s.pruneRelayed := State.setFab_keeps

theorem State.dropPort_keeps {p : Fin 14} {x : PState} : State.Keeps linkParts s (s.dropPort p x) :=
  .after State.pruneRelayed_keeps (.after State.updPort_keeps (.after State.unbindPort_keeps State.linkLost_keeps))

theorem State.retrain_keeps {p : Fin 14} : State.Keeps linkParts s (s.retrain p) :=
  State.ite_keeps (.refl ..) (.after State.noteIf_keeps (.after State.updPort_keeps State.dropPort_keeps))

theorem State.dropFrame_keeps {p : Fin 14} : State.Keeps portParts s (s.dropFrame p) :=
  .after State.noteIf_keeps (.within State.updPort_keeps)

/-! ## Mortar -/

theorem State.updMortar_keeps {f : Mortar → Mortar} : State.Keeps [.mortar] s (s.updMortar f) := State.setMortar_keeps

theorem execMrtSubmit_answers {val : Word} : State.Answers [.mortar] s (execMrtSubmit val s) :=
  occurs_answers State.updMortar_keeps

theorem execMrtSlotWrite_answers {i : Fin 64} {val : Word} : State.Answers [.mortar] s (execMrtSlotWrite i val s) :=
  occurs_answers State.updMortar_keeps

theorem execMrtMemWrite_answers {w : Fin 8192} {val : Dword} : State.Answers [.mortar] s (execMrtMemWrite w val s) :=
  occurs_answers State.updMortar_keeps

theorem execMortarJobStart_answers : State.Answers [.mortar] s (execMortarJobStart s) := occurs_answers State.updMortar_keeps

theorem execMortarCheckPhaseEnd_answers : State.Answers [.mortar] s (execMortarCheckPhaseEnd s) :=
  occurs_answers State.updMortar_keeps

theorem execMortarYieldPoint_answers : State.Answers [.mortar] s (execMortarYieldPoint s) := occurs_answers State.updMortar_keeps

theorem execMortarJobEnd_answers : State.Answers [.mortar] s (execMortarJobEnd s) :=
  occurs_answers (.after State.tick_keeps State.updMortar_keeps)

theorem execMrtCancel_answers {v : Word} : State.Answers [.mortar] s (execMrtCancel v s) :=
  occurs_answers (.after State.tick_keeps State.updMortar_keeps)

theorem execMortarProgramLoad_answers : State.Answers [.boot, .mortar] s (execMortarProgramLoad s) :=
  occurs_answers (.after State.tryReady_keeps (.within State.updMortar_keeps))

theorem State.feedGo_keeps (n : Nat) : State.Keeps [.mortar, .crown] s (State.feedGo n s) := by
  induction n generalizing s with
  | zero => exact .refl ..
  | succ n ih =>
    unfold State.feedGo
    split
    · exact .refl ..
    · split
      · exact .refl ..
      · exact .next ih State.setMortarCrown_keeps

theorem State.feed_keeps : State.Keeps [.mortar, .crown] s s.feed := State.feedGo_keeps _

theorem State.askVerify_keeps {ref : Option (ReqRef × Word)} {j : Nat} {v : Byte × List (List Byte × Nat) × Nat × Nat} {n : Nat} :
    State.Keeps [.mortar, .crown] s (s.askVerify ref j v n).1 :=
  .next State.feed_keeps (.within State.setCrown_keeps)

theorem State.forward_keeps {v : VerifyReq} {c : Byte} : State.Keeps [.crown, .mbx] s (s.forward v c) := by
  unfold State.forward
  split
  · exact .after State.complete_keeps (State.ite_keeps (.within State.setCrown_keeps) (.refl ..))
  · exact .within State.updJob_keeps

theorem execMrtResultRead_answers : State.Answers [.crown, .mbx, .mortar] s (execMrtResultRead s) := by
  refine occurs_answers ?_
  split
  · exact .refl ..
  · dsimp only
    split
    · exact .after State.feed_keeps (.within State.setMortar_keeps)
    · exact .after State.feed_keeps (.after State.forward_keeps (.within State.setMortarCrown_keeps))

/-! ## Jobs -/

theorem Station.endRole_wf (h : x.Wf) : x.endRole.Wf := h

theorem State.releaseJob_keeps {j : Nat} : State.Keeps [.stations, .crown] s (s.releaseJob j) :=
  .after State.setCrown_keeps (.after State.updSession_keeps (.within (State.mapStns_keeps fun _ h => Station.endRole_wf h)))

theorem State.submit_keeps {r : ReqRef} {b : List Byte} : State.Keeps recordParts s (s.submit r b) := by
  unfold State.submit
  split
  · exact .within State.reply_keeps
  · exact .after State.tick_keeps (.after State.reply_keeps (.within State.setCrown_keeps))

theorem execJobSubmit_answers {f : Fin 64} : State.Answers recordParts s (execJobSubmit f s) :=
  cmdRow_answers fun _ _ _ => State.ite_keeps State.submit_keeps (.within State.reply_keeps)

theorem State.failJob_keeps {j : Nat} {e : ImgErr} : State.Keeps [.crown, .mbx] s (s.failJob j e) := State.refuseJob_keeps

theorem State.windowFor_mem {m : Img} {stns : List (Fin 16)} {v : Nat} {st : Fin 16} {w : Fin 4} {b : Nat} {p : Pantry}
    (h : s.windowFor m stns v st = some (w, b, p)) : p.mem = s.stations[st].pantry.mem := by
  unfold State.windowFor at h
  dsimp only at h
  split at h
  · split at h
    · cases h; rfl
    · cases h
  · cases h

theorem State.grantGo_keeps {m : Img} {j ses : Nat} {all : List (Fin 16)} {ml : List ModEntry} {dir : List ObjDesc}
    {gmap : List (Fin 64)} (l : List (Fin 16)) (v : Nat) :
    State.Keeps [.stations] s (State.grantGo m j ses all ml dir gmap v l s) := by
  induction l generalizing s v with
  | nil => exact .refl ..
  | cons st l ih =>
    unfold State.grantGo
    split
    · exact .refl ..
    · next w b p hw =>
      refine .next (ih _) (.putStn (.refl ..) fun c => ?_)
      exact (congrArg Mem.wf (State.windowFor_mem hw)).trans (c.station st)

theorem State.cacheImage_keeps {m : Img} {f : Fin 64} {l : List (Fin 16)} : State.Keeps [.crown] s (s.cacheImage m f l) :=
  State.setCrown_keeps

theorem State.grantJob_keeps {j : Nat} {m : Img} {ks : KeySet} {tag : Word} {es : List BtEntry} {l : List (Fin 16)} :
    State.Keeps [.stations, .crown] s (s.grantJob j m ks tag es l) :=
  .after State.setCrown_keeps (.after State.updSession_keeps (.after State.pinAll_keeps (.after State.cacheImage_keeps
    (.within (State.grantGo_keeps ..)))))

theorem State.admitPlaced_keeps {j : Nat} {ks : KeySet} {tag : Word} {img btab : List Byte} :
    State.Keeps [.stations, .crown, .mbx, .mortar] s (s.admitPlaced j ks tag img btab) := by
  have failed {e : ImgErr} : State.Keeps [.stations, .crown, .mbx, .mortar] s (s.failJob j e) := .within State.failJob_keeps
  unfold State.admitPlaced
  dsimp only
  split
  · exact failed
  · split
    · exact failed
    · refine State.ite_keeps failed ?_
      split
      · exact failed
      · exact State.ite_keeps failed (.within State.grantJob_keeps)

theorem State.askTicket_keeps {j : Nat} {tag : Word} {owner img btab : List Byte} {ticket : HostRead} :
    State.Keeps [.stations, .crown, .mbx, .mortar] s (s.askTicket j tag owner img btab ticket) := by
  unfold State.askTicket
  dsimp only
  split
  · exact .within State.failJob_keeps
  · split
    · exact .within State.failJob_keeps
    · exact .after State.updJob_keeps (.within State.askVerify_keeps)

theorem State.tryAdmit_keeps {j : Nat} {img btab ticket : HostRead} :
    State.Keeps [.stations, .crown, .mbx, .mortar] s (s.tryAdmit j img btab ticket) := by
  have failed {e : ImgErr} : State.Keeps [.stations, .crown, .mbx, .mortar] s (s.failJob j e) := .within State.failJob_keeps
  unfold State.tryAdmit
  refine State.ite_keeps failed ?_
  split
  · split
    · exact failed
    · exact State.ite_keeps State.admitPlaced_keeps failed
  · split
    · exact failed
    · split
      · exact State.ite_keeps State.askTicket_keeps State.admitPlaced_keeps
      · exact failed

theorem execJobAdmission_answers {j : Nat} {img btab ticket : HostRead} :
    State.Answers [.stations, .crown, .mbx, .mortar] s (execJobAdmission j img btab ticket s) := occurs_answers State.tryAdmit_keeps

theorem State.completeJob_keeps {j : Nat} {c : Byte} : State.Keeps endParts s (s.completeJob j c) := by
  unfold State.completeJob; exact State.push_keeps

theorem State.finishCommit_keeps {e : JournalEntry} : State.Keeps endParts s (s.finishCommit e) :=
  .after State.completeJob_keeps (.after State.releaseJob_keeps (.within State.setCrown_keeps))

theorem execCommitPoint_answers {j : Nat} : State.Answers endParts s (execCommitPoint j s) :=
  occurs_answers (.after State.finishCommit_keeps (.after State.updJob_keeps (.within State.setCrown_keeps)))

theorem execJobTimeLimit_answers {j : Nat} : State.Answers startParts s (execJobTimeLimit j s) :=
  occurs_answers State.abortJob_keeps

theorem State.cleanup_keeps {j : Nat} : State.Keeps endParts s (s.cleanup j) :=
  .after State.completeJob_keeps (.after State.releaseJob_keeps (.within State.updJob_keeps))

theorem execJobAbortCleanup_answers {j : Nat} : State.Answers endParts s (execJobAbortCleanup j s) :=
  occurs_answers State.cleanup_keeps

theorem State.abortCmd_keeps {r : ReqRef} {b : List Byte} :
    State.Keeps [.stations, .crown, .mbx, .mortar, .mon] s (s.abortCmd r b) := by
  unfold State.abortCmd
  split
  · exact .within State.reply_keeps
  · split
    case h_1 | h_2 => exact .after State.reply_keeps (.within State.abortJob_keeps)
    all_goals exact .within State.reply_keeps

theorem execJobAbort_answers {f : Fin 64} : State.Answers [.stations, .crown, .mbx, .mortar, .mon] s (execJobAbort f s) :=
  cmdRow_answers fun _ _ _ => State.abortCmd_keeps

theorem execJobQuery_answers {f : Fin 64} : State.Answers recordParts s (execJobQuery f s) := by
  refine cmdRow_answers fun s r b => ?_
  split <;> exact .within State.reply_keeps

/-! ## Sessions and key sets -/

/-- A reply alone. -/
theorem State.reply_within {r : ReqRef} {c : Byte} {b : List Byte} (hp : [.mbx] ⊆ ps := by decide) :
    State.Keeps ps s (s.reply r c b) := .within State.reply_keeps hp

theorem State.complete_within {r : ReqRef} {c : Byte} {b : List Byte} (hp : [.mbx] ⊆ ps := by decide) :
    State.Keeps ps s (s.complete r c b) := .within State.complete_keeps hp

theorem execDeviceInfo_answers {f : Fin 64} : State.Answers recordParts s (execDeviceInfo f s) :=
  cmdRow_answers fun _ _ _ => State.reply_within

theorem execSessionQuery_answers {f : Fin 64} : State.Answers recordParts s (execSessionQuery f s) :=
  cmdRow_answers fun _ _ _ => State.reply_within

theorem execSessionOpen_answers {f : Fin 64} : State.Answers recordParts s (execSessionOpen f s) := by
  refine cmdRow_answers fun s r b => State.ite_keeps State.reply_within ?_
  split
  · exact State.reply_within
  · exact .after State.tick_keeps (.after State.reply_keeps (.within State.setCrown_keeps))

theorem execSessionClose_answers {f : Fin 64} : State.Answers (endParts ++ [.mon]) s (execSessionClose f s) :=
  cmdRow_answers fun _ _ _ => .after State.closeCheck_keeps (.after State.reply_keeps (.within State.updSession_keeps))

theorem execSessionModlist_answers {f : Fin 64} {dma : HostRead} : State.Answers recordParts s (execSessionModlist f dma s) := by
  refine cmdRow_answers fun s r b => State.ite_keeps State.reply_within (State.ite_keeps State.reply_within ?_)
  split
  · exact State.reply_within
  · dsimp only
    split
    · exact State.reply_within
    · exact .after State.tick_keeps (.after State.reply_keeps (.within State.updSession_keeps))

theorem State.placeMap_keeps (h : s.placeMap = some t) : State.Keeps [.stations, .crown] s t := by
  unfold State.placeMap at h
  dsimp only at h
  split at h
  · cases h; exact .refl ..
  · obtain ⟨a, _, rfl⟩ := Option.map_eq_some_iff.mp h
    exact .after State.tick_keeps State.setKpmBase_keeps

theorem State.placeObjs_keeps {l : List ManEntry} {acc : List Placed} {y : State × List Placed}
    (h : s.placeObjs l acc = some y) : State.Keeps [] s y.1 := by
  induction l generalizing s acc with
  | nil => cases h; exact .refl ..
  | cons e l ih =>
    unfold State.placeObjs at h
    dsimp only at h
    split at h
    · cases h
    · split at h
      · split at h
        · cases h
        · exact .next (ih h) State.tick_keeps
      · exact .next (ih h) State.tick_keeps

theorem State.writePage_keeps {tag : Nat} {f : Fin 64} {o : Placed} {b : List Byte} {p : Nat} :
    State.Keeps [.mem] s (s.writePage tag f o b p) := by
  unfold State.writePage
  refine .next State.crownPut_keeps ?_
  split
  · exact .next State.memPut_keeps State.memPut_keeps
  · exact .refl ..

theorem State.writeObj_keeps {tag : Nat} {f : Fin 64} {o : Placed × List Byte} :
    State.Keeps [.stations, .mem] s (s.writeObj tag f o) :=
  .next (State.foldl_keeps fun _ _ => .within State.writePage_keeps) (.within State.invalidate_keeps)

theorem State.register_keeps {r : ReqRef} {ses : Nat} {b : List Byte} {objs : List HostRead} :
    State.Keeps keyParts s (s.register r ses b objs) := by
  unfold State.register
  dsimp only
  split
  · exact State.complete_within
  · split
    · exact State.complete_within
    · next s1 ps hp =>
      obtain ⟨s0, h0, h1⟩ := Option.bind_eq_some_iff.mp hp
      have placed : State.Keeps keyParts s s1 := .after (State.placeObjs_keeps h1) (.within (State.placeMap_keeps h0))
      split
      · exact .after State.complete_keeps placed
      · refine State.ite_keeps (.after State.complete_keeps placed) ?_
        exact .after State.complete_keeps (.after State.setCrown_keeps
          (.next (State.foldl_keeps fun _ _ => .within State.writeObj_keeps) placed))

theorem execKeysetRegister_answers {f : Fin 64} {dma : HostRead} {objs : List HostRead} :
    State.Answers keyParts s (execKeysetRegister f dma objs s) := by
  refine cmdRow_answers fun s r b => ?_
  dsimp only
  split
  · exact .after State.complete_keeps State.reply_within
  · exact .next State.register_keeps State.reply_within

theorem execKeysetVerify_answers {f : Fin 64} {dma : HostRead} :
    State.Answers [.crown, .mbx, .mortar, .mon] s (execKeysetVerify f dma s) := by
  refine cmdRow_answers fun s r b => ?_
  split
  · exact State.reply_within
  · dsimp only
    split
    · exact .after State.complete_keeps State.reply_within
    · split
      · exact .after State.complete_keeps State.reply_within
      · exact .after State.askVerify_keeps State.reply_within

theorem State.setKs_keeps {tag : Nat} {k : KsState} : State.Keeps [.crown] s (s.setKs tag k) := State.setCrown_keeps

theorem execKeysetActivate_answers {f : Fin 64} : State.Answers keyParts s (execKeysetActivate f s) := by
  refine cmdRow_answers fun s r b => ?_
  dsimp only
  split
  · exact State.reply_within
  · refine State.ite_keeps State.reply_within ?_
    exact .after State.reply_keeps (.after State.releaseRetired_keeps (.after State.updSession_keeps (.after State.setKs_keeps
      (State.ite_keeps (.refl ..) (.within State.setKs_keeps)))))

theorem execKeysetRetire_answers {f : Fin 64} : State.Answers keyParts s (execKeysetRetire f s) := by
  refine cmdRow_answers fun s r b => ?_
  dsimp only
  split
  · exact State.reply_within
  · exact .after State.reply_keeps (.after State.releaseRetired_keeps
      (State.ite_keeps (.after State.updSession_keeps (.within State.setKs_keeps)) (.within State.setKs_keeps)))

/-! ## Buffers and exports -/

theorem State.updBuf_keeps {id : Nat} {f : Buffer → Buffer} : State.Keeps [.crown] s (s.updBuf id f) := State.setCrown_keeps

theorem State.bufAlloc_keeps {r : ReqRef} {ses rgn len : Nat} {rg : Region} :
    State.Keeps spaceParts s (s.bufAlloc r ses rgn len rg) := by
  have ticked : State.Keeps spaceParts s s.tick := .within State.tick_keeps
  unfold State.bufAlloc
  split
  · exact State.reply_within
  · split
    · exact .after State.reply_keeps ticked
    · exact .after State.tick_keeps (.after State.reply_keeps (.after State.setCrown_keeps
        (.after State.memZero_keeps (.after State.memZero_keeps (.after State.tick_keeps ticked)))))

theorem execBufAlloc_answers {f : Fin 64} : State.Answers spaceParts s (execBufAlloc f s) := by
  refine cmdRow_answers fun s r b => ?_
  split
  · exact State.reply_within
  · exact State.ite_keeps State.reply_within State.bufAlloc_keeps

theorem execBufFree_answers {f : Fin 64} : State.Answers recordParts s (execBufFree f s) := by
  refine cmdRow_answers fun s r b => ?_
  split
  · exact State.reply_within
  · exact State.ite_keeps State.reply_within (.after State.reply_keeps (.within State.setCrown_keeps))

theorem execBufCommit_answers {f : Fin 64} : State.Answers recordParts s (execBufCommit f s) := by
  refine cmdRow_answers fun s r b => ?_
  split
  · exact State.reply_within
  · exact State.ite_keeps State.reply_within (.after State.reply_keeps (.within State.updBuf_keeps))

theorem execBufQuery_answers {f : Fin 64} : State.Answers recordParts s (execBufQuery f s) := by
  refine cmdRow_answers fun s r b => ?_
  split <;> exact State.reply_within

theorem execBufMap_answers {f : Fin 64} : State.Answers recordParts s (execBufMap f s) := by
  refine cmdRow_answers fun s r b => ?_
  split
  · exact State.reply_within
  · exact State.ite_keeps (.after State.reply_keeps (.within State.updBuf_keeps)) State.reply_within

theorem execBufUnmap_answers {f : Fin 64} : State.Answers recordParts s (execBufUnmap f s) := by
  refine cmdRow_answers fun s r b => ?_
  split
  · exact State.reply_within
  · exact .after State.reply_keeps (.within State.updBuf_keeps)

theorem State.notePath_keeps {p : PathEvent} : State.Keeps [.mon] s (s.notePath p) :=
  State.ite_keeps State.logEvt_keeps (.refl ..)

theorem State.ioMoved_keeps {n : Nat} : State.Keeps [.ioSes] s (s.ioMoved n) := State.updIo_keeps

theorem State.ioFault_keeps {c : Byte} : State.Keeps [.ioSes] s (s.ioFault c) := State.updIo_keeps

theorem State.dmaFault_keeps {r : ReqRef} {c : Byte} : State.Keeps [.ioSes, .mbx] s (s.dmaFault r c) :=
  .after State.tick_keeps (.after State.complete_keeps (.within State.ioFault_keeps))

theorem State.memGet_result {ma n : Nat} {o : Option (List Byte)} (h : s.memGet ma n = (t, o)) : State.Keeps memoryParts s t := by
  have := State.memGet_keeps (s := s) (ma := ma) (n := n)
  rwa [h] at this

/-- What a transfer of BUF_DMA touches. -/
def dmaParts : List Part := [.mem, .crown, .mbx, .hostOut, .mon, .ioSes]

theorem State.bufDma_keeps {r : ReqRef} {o : Buffer} {b : List Byte} {dma : HostRead} {p : PathEvent} :
    State.Keeps dmaParts s (s.bufDma r o b dma p) := by
  unfold State.bufDma
  refine State.ite_keeps State.complete_within (State.ite_keeps ?_ ?_)
  · split
    · exact .after State.dmaFault_keeps (.within State.memPut_keeps)
    · exact .after State.dmaFault_keeps (.within State.memPut_keeps)
    · exact .after State.tick_keeps (.after State.complete_keeps (.after State.ioMoved_keeps (.after State.memPut_keeps
        (.within State.notePath_keeps))))
  · split
    · next hg => exact .after State.dmaFault_keeps (.after State.toHost_keeps (.within (State.memGet_result hg)))
    · next hg _ => exact .after State.dmaFault_keeps (.after State.toHost_keeps (.within (State.memGet_result hg)))
    · next hg _ => exact .after State.tick_keeps (.after State.complete_keeps (.after State.ioMoved_keeps (.after State.toHost_keeps
        (.after State.notePath_keeps (.within (State.memGet_result hg))))))

theorem execBufDma_answers {f : Fin 64} {dma : HostRead × PathEvent} : State.Answers dmaParts s (execBufDma f dma s) := by
  refine cmdRow_answers fun s r b => ?_
  split
  · exact State.reply_within
  · exact State.ite_keeps State.reply_within (State.ite_keeps State.reply_within (.next State.bufDma_keeps State.reply_within))

theorem execFabExport_answers {f : Fin 64} : State.Answers recordParts s (execFabExport f s) := by
  refine cmdRow_answers fun s r b => ?_
  dsimp only
  split
  · exact State.reply_within
  · exact State.ite_keeps State.reply_within (State.ite_keeps State.reply_within
      (.after State.tick_keeps (.after State.reply_keeps (.within State.setCrown_keeps))))

theorem execFabUnexport_answers {f : Fin 64} : State.Answers recordParts s (execFabUnexport f s) := by
  refine cmdRow_answers fun s r b => ?_
  dsimp only
  split
  · exact State.reply_within
  · exact .after State.reply_keeps (.within State.setCrown_keeps)

/-! ## The module, its power and its pins -/

theorem execFuncConfig_answers {f : Fin 64} : State.Answers recordParts s (execFuncConfig f s) :=
  cmdRow_answers fun _ _ _ => State.ite_keeps State.reply_within (.after State.reply_keeps (.within State.setCrown_keeps))

theorem execPowerCap_answers {f : Fin 64} : State.Answers [.power, .crown, .mbx, .mon] s (execPowerCap f s) :=
  cmdRow_answers fun _ _ _ => .after State.reply_keeps (.within State.setPower_keeps)

theorem execPowerCapSample_answers {watts mv10 frac : Nat} : State.Answers [.power] s (execPowerCapSample watts mv10 frac s) :=
  occurs_answers State.setPower_keeps

theorem execSmbusAlertResponse_answers : State.Answers [.power] s (execSmbusAlertResponse s) :=
  occurs_answers State.setPower_keeps

theorem execDieTemperatureReading_answers {temps : List Nat} : State.Answers [.power] s (execDieTemperatureReading temps s) :=
  occurs_answers State.setPower_keeps

theorem execTapInstruction_answers {ins : TapIns} : State.Answers [.power] s (execTapInstruction ins s) :=
  next_answers State.setPower_keeps

theorem State.dieDown_keeps {d : Fin 4} : State.Keeps linkParts s (s.dieDown d) :=
  State.foldl_keeps fun _ _ => State.ite_keeps State.dropPort_keeps (.refl ..)

theorem execReferenceLoss_answers {ref : RefLoss} :
    State.Answers [.power, .stations, .crown, .mortar, .mon, .fab] s (execReferenceLoss ref s) := by
  have logged (x : Power) (e : LogEvt) : State.Keeps [.power, .stations, .crown, .mortar, .mon, .fab] s
      (({ s with power := x } : State).logEvt e).tick :=
    .after State.tick_keeps (.after State.logEvt_keeps (.within State.setPower_keeps))
  unfold execReferenceLoss
  refine occurs_answers ?_
  dsimp only
  split
  · exact .after State.dieDown_keeps (logged ..)
  · exact logged ..

/-! ## Stream engines -/

theorem Station.updSe_wf {e : Fin 4} {f : StreamEng → StreamEng} (h : x.Wf) : (x.updSe e f).Wf := h

theorem State.updSlot_keeps {ses slot : Nat} {f : StreamSlot → StreamSlot} : State.Keeps [.crown] s (s.updSlot ses slot f) :=
  State.updSession_keeps

theorem State.sendRx_keeps {ses slot : Nat} {h : FrameHdr} : State.Keeps [.fab] s (s.sendRx ses slot h) := by
  unfold State.sendRx
  split
  · exact State.sendBy_keeps
  · exact .refl ..

theorem State.settleAcks_keeps {st : Fin 16} {ses slot : Nat} : State.Keeps [.crown, .fab] s (s.settleAcks st ses slot) :=
  .next (State.foldl_keeps fun _ _ => .within State.sendRx_keeps) (.within State.updSlot_keeps)

theorem State.streamStart_keeps {st : Fin 16} {e : Fin 4} {xid idx : Nat} {b : List Byte} :
    State.Keeps [.crown, .fab] s (s.streamStart st e xid idx b) :=
  State.ite_keeps (.within State.updSlot_keeps) (.after State.sendRx_keeps (.within State.updSlot_keeps))

theorem seRow_answers {st : Fin 16} {e : Fin 4} {op : Nat} {plan : State → Station → QEntry → Plan}
    (h : ∀ s x q, x.Wf → (plan s x q).Wf) : State.Answers startParts s (seRow st e op plan s) := by
  refine occurs_answers ?_
  split
  · split
    · exact State.seFault_keeps
    · exact State.startOp_keeps fun c => h _ _ _ (c.station st)
  · exact .refl ..

theorem planXfer_wf {q : QEntry} (h : x.Wf) : (planXfer s x q).Wf := by
  unfold planXfer; dsimp only; split
  · trivial
  · exact h

theorem planXgather_wf {q : QEntry} (h : x.Wf) : (planXgather s x q).Wf := by
  unfold planXgather; dsimp only; split
  · trivial
  · exact h

theorem State.listBlock_keeps {e : Fin 4} {q : QEntry} : State.Keeps memoryParts s (s.listBlock x e q).1 := by
  unfold State.listBlock
  dsimp only
  split
  · exact .refl ..
  · split
    · split
      · exact .refl ..
      · split
        · exact .refl ..
        · exact State.memGet_keeps
    · exact .refl ..

theorem State.eccMark_keeps {st : Fin 16} {e : Fin 4} {ecc : EccEvent} {i : Nat} :
    State.Keeps [.stations] s (s.eccMark st e ecc i) := by
  unfold State.eccMark
  split
  · exact State.updStn_keeps fun _ h => h
  · exact .refl ..

theorem execDescriptorFetch_answers {st : Fin 16} {e : Fin 4} {ecc : EccEvent} :
    State.Answers streamParts s (execDescriptorFetch st e ecc s) := by
  refine runRow_answers fun s i q => ?_
  dsimp only
  split
  · exact .after State.seFault_keeps (.within State.listBlock_keeps)
  · exact .next (State.eccSeen_keeps fun _ => .within (State.updStn_keeps fun _ h => h))
      (.after State.eccMark_keeps (.within State.listBlock_keeps))

theorem execDescriptorStart_answers {st : Fin 16} {e : Fin 4} : State.Answers linkParts s (execDescriptorStart st e s) := by
  refine occurs_answers ?_
  split
  · exact .refl ..
  · dsimp only
    split
    · exact State.ite_keeps (.within State.seLogged_keeps) (.within State.seFault_keeps)
    · exact State.ite_keeps (.after State.streamStart_keeps (.within (State.updStn_keeps fun _ h => h)))
        (.within (State.updStn_keeps fun _ h => h))

theorem State.post_keeps {st dst : Fin 16} {k : NetKind} : State.Keeps [.net] s (s.post st dst k) := State.setNet_keeps

theorem State.gotData_keeps {st : Fin 16} {e : Fin 4} {xid idx off : Nat} {b : List Byte} :
    State.Keeps signalParts s (s.gotData st e xid idx off b) := by
  have got (f : StreamEng → StreamEng) : State.Keeps signalParts s (s.updStn st fun t => t.updSe e f) :=
    .within (State.updStn_keeps fun _ h => h)
  unfold State.gotData
  dsimp only
  split
  · refine State.ite_keeps ?_ (got _)
    split
    · exact .after State.post_keeps (got _)
    · exact got _
  · exact .refl ..

/-- What the issue of a chunk touches. -/
def chunkParts : List Part := [.stations, .net, .mem, .crown, .mortar, .mon, .fab]

theorem State.chunkRead_keeps {st : Fin 16} {e : Fin 4} {r : RDesc} : State.Keeps chunkParts s (s.chunkRead st e r) := by
  have issued (f : StreamEng → StreamEng) : State.Keeps chunkParts s (s.updStn st fun t => t.updSe e f) :=
    .within (State.updStn_keeps fun _ h => h)
  unfold State.chunkRead
  refine State.ite_keeps (.after State.gotData_keeps (issued _)) (State.ite_keeps (.after State.gotData_keeps (issued _))
    (State.ite_keeps ?_ (State.ite_keeps ?_ (State.ite_keeps ?_ (issued _)))))
  · split
    · exact issued _
    · dsimp only
      split
      · exact .after State.gotData_keeps (.after State.memGet_keeps (issued _))
      · exact .after State.seFault_keeps (.after State.memGet_keeps (issued _))
  · split
    · exact .after State.post_keeps (issued _)
    · exact issued _
  · split
    · exact .after State.seLogged_keeps (issued _)
    · exact .after State.tick_keeps (.after State.sendBy_keeps (.after State.setFab_keeps (issued _)))

theorem execChunkIssue_answers {st : Fin 16} {e : Fin 4 × EccEvent} : State.Answers chunkParts s (execChunkIssue st e s) := by
  refine occurs_answers ?_
  split
  · exact .refl ..
  · exact .next (State.eccSeen_keeps fun _ => State.chunkRead_keeps) (.within State.eccMark_keeps)

theorem Station.landBytes_wf {e : Fin 4} {xid idx n : Nat} (h : x.Wf) : (x.landBytes e xid idx n).Wf := by
  unfold Station.landBytes
  split
  · exact h
  · dsimp only
    split <;> exact h

theorem State.chunkWrite_keeps {st : Fin 16} {e : Fin 4} {r : RDesc} {k : Chunk} {b : List Byte} :
    State.Keeps [.stations, .mem] s (s.chunkWrite st e r k b) := by
  unfold State.chunkWrite
  refine State.ite_keeps (.within (State.updStn_keeps fun _ h => Station.wr_wf h)) (State.ite_keeps ?_ (.refl ..))
  split
  · exact .within State.memPut_keeps
  · exact .refl ..

theorem execChunkLand_answers {st : Fin 16} {e : Fin 4} {c : Nat} {ecc : EccEvent} :
    State.Answers [.stations, .mem, .crown, .mortar, .mon, .fab] s (execChunkLand st e c ecc s) := by
  refine occurs_answers ?_
  split
  · exact .refl ..
  · have landed (s : State) (e : Fin 4) (r : RDesc) (k : Chunk) (b : List Byte) (f : StreamEng → StreamEng) (xid idx n : Nat) :
        State.Keeps [.stations, .mem, .crown, .mortar, .mon, .fab] s
          ((s.chunkWrite st e r k b).updStn st fun t => (t.updSe e f).landBytes e xid idx n) :=
      .after (State.updStn_keeps fun _ h => Station.landBytes_wf (Station.updSe_wf h)) (.within State.chunkWrite_keeps)
    exact .next (State.eccSeen_keeps fun _ => State.ite_keeps (.after State.settleAcks_keeps (landed ..)) (landed ..))
      (.within State.eccMark_keeps)

theorem execXferSignal_answers {st : Fin 16} {e : Fin 4} : State.Answers signalParts s (execXferSignal st e s) := by
  refine occurs_answers ?_
  split
  · exact .refl ..
  · exact .after State.raise_keeps (.within (State.updStn_keeps fun _ h => h))

/-- What a chunk from or to host memory touches. -/
def hostChunkParts : List Part := [.stations, .net, .crown, .hostOut, .mortar, .mon]

theorem State.hostPass_keeps {st : Fin 16} {e : Fin 4} {k : Chunk} {r : RDesc} {b : List Byte} :
    State.Keeps hostChunkParts s (s.hostPass st e k r b) :=
  State.ite_keeps (.after State.gotData_keeps (.within (State.updStn_keeps fun _ h => h)))
    (.after State.setHostOut_keeps (.within (State.updStn_keeps fun _ h => h)))

theorem execHostDmaChunk_answers {st : Fin 16} {e : Fin 4} {c : Nat} {b : List Byte} {crc alive : Word} :
    State.Answers hostChunkParts s (execHostDmaChunk st e c b crc alive s) := by
  refine occurs_answers ?_
  split
  · exact .refl ..
  · refine State.ite_keeps (.within State.seLogged_keeps) (State.ite_keeps (State.ite_keeps ?_ (.within State.seLogged_keeps)) ?_)
    · exact .within (State.updStn_keeps fun _ h => h)
    · split
      · exact State.hostPass_keeps
      · exact .within State.logEvt_keeps
      · exact .within State.seLogged_keeps

/-- What an access to another station's Pantry touches. -/
def accessParts : List Part := [.stations, .net, .crown, .mortar, .mon]

theorem State.eccRemote_keeps {src dst : Fin 16} {e : Fin 4} {i : Nat} {ecc : EccEvent} {ok : State → State}
    (h : ∀ u, State.Keeps accessParts u (ok u)) : State.Keeps accessParts s (s.eccRemote src dst e i ecc ok) := by
  unfold State.eccRemote
  split
  · exact .after State.seFault_keeps (.after State.logEvt_keeps (.after State.countInternal_keeps (.within State.eccCount_keeps)))
  · exact .next (h _) (.within State.eccCount_keeps)

theorem execRemotePantryAccess_answers {src : Fin 16} {at' : Fin 16 × EccEvent} :
    State.Answers accessParts s (execRemotePantryAccess src at' s) := by
  unfold execRemotePantryAccess
  refine occurs_answers ?_
  split
  · exact .refl ..
  · next i m _ =>
    have taken (l : List NetMsg) : State.Keeps accessParts s { s with net := l } := .within State.setNet_keeps
    refine State.ite_keeps (.after State.setNet_keeps (.after (State.updStn_keeps fun _ h => h) (taken _))) ?_
    split
    · exact State.ite_keeps (State.ite_keeps (.after State.seFault_keeps (taken _)) (taken _))
        (State.ite_keeps (.next (State.eccRemote_keeps fun _ => .within State.gotData_keeps) (taken _))
          (.after State.eccCount_keeps (taken _)))
    · have written (a : Nat) (b : List Byte) (l : List NetMsg) : State.Keeps accessParts s
          (({ s with net := l } : State).updStn at'.1 fun t => t.wr a b) :=
        .after (State.updStn_keeps fun _ h => Station.wr_wf h) (taken _)
      exact State.ite_keeps (State.ite_keeps (.after State.seFault_keeps (taken _)) (taken _))
        (State.ite_keeps (.after (State.updStn_keeps fun _ h => h) (written ..)) (written ..))
    · exact .refl ..

theorem execSieveRead_answers {st : Fin 16} {e : Fin 4} {ecc : EccEvent} : State.Answers streamParts s (execSieveRead st e ecc s) := by
  refine runRow_answers fun s i q => ?_
  refine .next (State.eccSeen_keeps fun u => ?_) (.within State.eccMark_keeps)
  dsimp only
  split
  · exact .refl ..
  · refine State.ite_keeps (.within State.seFault_keeps) ?_
    have got {ma : Nat} : State.Keeps streamParts u (u.sieve ma).1 := .within State.sieve_keeps
    split
    · exact .after State.seFault_keeps got
    · exact State.ite_keeps (.after (State.updStn_keeps fun _ h => Station.updAt_wf (Station.updSe_wf (Station.wr_wf h))) got)
        (.after (State.updStn_keeps fun _ h => h) got)

/-! ## Ports and frames -/

theorem State.capOut_keeps {p : Fin 14} {rc : CapRecord} : State.Keeps [.fab] s (s.capOut p rc) :=
  State.ite_keeps (.after State.tick_keeps State.updPort_keeps) (State.foldl_keeps fun _ _ => State.sendBy_keeps)

theorem State.relayCap_keeps {rc : CapRecord} : State.Keeps [.fab] s (s.relayCap rc) :=
  State.foldl_keeps fun _ _ => State.ite_keeps State.capOut_keeps (.refl ..)

theorem State.capsTo_keeps {p : Fin 14} : State.Keeps [.fab] s (s.capsTo p) := State.foldl_keeps fun _ _ => State.capOut_keeps

theorem execPortTrain_answers {p : Fin 14} : State.Answers [.fab] s (execPortTrain p s) := by
  unfold execPortTrain
  exact occurs_answers (State.ite_keeps (.after State.capOut_keeps State.updPort_keeps) State.updPort_keeps)

theorem execCapExchange_answers {p : Fin 14} {rc : CapRecord} : State.Answers portParts s (execCapExchange p rc s) :=
  occurs_answers (State.ite_keeps (.after State.tick_keeps (.after State.logEvt_keeps (.within State.updPort_keeps)))
    (.after State.capsTo_keeps (.after State.relayCap_keeps (.within State.updPort_keeps))))

theorem execMismatchRetry_answers {p : Fin 14} : State.Answers [.fab] s (execMismatchRetry p s) :=
  occurs_answers State.updPort_keeps

theorem execFlitReceive_answers {p : Fin 14} {flit : List Byte} : State.Answers [.fab] s (execFlitReceive p flit s) :=
  occurs_answers State.updPort_keeps

theorem execPfcFrame_answers {p : Fin 14} {prios : BitVec 8} {pause : Bool} : State.Answers [.fab] s (execPfcFrame p prios pause s) :=
  occurs_answers State.updPort_keeps

theorem execPortSignalLoss_answers {p : Fin 14} : State.Answers linkParts s (execPortSignalLoss p s) :=
  occurs_answers State.dropPort_keeps

theorem execEthernetCapBroadcast_answers {p : Fin 14} : State.Answers [.fab] s (execEthernetCapBroadcast p s) :=
  occurs_answers State.capOut_keeps

theorem State.countReplays_keeps {p : Fin 14} : State.Keeps portParts s (s.countReplays p) :=
  .after State.noteIf_keeps (.within State.updPort_keeps)

theorem execFlitReplayTimeout_answers {p : Fin 14} : State.Answers linkParts s (execFlitReplayTimeout p s) :=
  occurs_answers (State.ite_keeps (.after State.retrain_keeps (.within State.countReplays_keeps)) (.within State.countReplays_keeps))

theorem State.takeFrame_keeps {p : Fin 14} {frame : List Byte} : State.Keeps [.fab] s (s.takeFrame p frame) := State.updPort_keeps

theorem State.relayFrame_keeps {p : Fin 14} {frame : List Byte} : State.Keeps portParts s (s.relayFrame p frame) := by
  unfold State.relayFrame
  refine State.ite_keeps State.dropFrame_keeps ?_
  split
  · exact .within State.portSend_keeps
  · exact State.dropFrame_keeps

/-- A frame row: the frame is taken, and dropped or relayed, beside what it does at its module. -/
theorem frameRow_answers {p : Fin 14} {frame : List Byte} {ftype : Nat} {ready : State → Bool} {effect : State → FrameHdr → State}
    (h : ∀ s f, State.Keeps ps s (effect s f)) (hp : portParts ⊆ ps := by decide) :
    State.Answers ps s (frameRow p frame ftype ready effect s) := by
  have taken : State.Keeps ps s (s.takeFrame p frame) := .within State.takeFrame_keeps (List.Subset.trans (by decide) hp)
  unfold frameRow
  exact occurs_answers (State.ite_keeps (.after State.dropFrame_keeps taken hp)
    (State.ite_keeps (.after State.relayFrame_keeps taken hp) (.next (h ..) taken)))

theorem answerRow_answers {p : Fin 14} {frame : List Byte} {ftype : Nat} {ready : State → Bool} {effect : State → FrameHdr → State}
    (h : ∀ s f, State.Keeps ps s (effect s f)) (hp : portParts ⊆ ps := by decide) :
    State.Answers ps s (answerRow p frame ftype ready effect s) :=
  .ite (occurs_answers (.within State.updPort_keeps (List.Subset.trans (by decide) hp))) (frameRow_answers h hp)

theorem execFrameRelay_answers {p : Fin 14} {frame : List Byte} : State.Answers portParts s (execFrameRelay p frame s) := by
  unfold execFrameRelay
  exact frameRow_answers fun _ _ => .refl ..

theorem execHoldFrame_answers {p : Fin 14} {frame : List Byte} : State.Answers portParts s (execHoldFrame p frame s) :=
  frameRow_answers fun _ _ => .refl ..

theorem execReservedFtypeFrame_answers {p : Fin 14} {frame : List Byte} :
    State.Answers portParts s (execReservedFtypeFrame p frame s) := by
  unfold execReservedFtypeFrame
  exact occurs_answers (.after State.dropFrame_keeps (.within State.takeFrame_keeps))

/-- What a DATA frame touches. -/
def dataParts : List Part := [.stations, .crown, .mon, .fab, .ioSes]

theorem State.dataPass_keeps {h : FrameHdr} {m : Nat} {b : List Byte} : State.Keeps dataParts s (s.dataPass h m b) := by
  unfold State.dataPass
  split
  · exact .refl ..
  · exact .after State.settleAcks_keeps (.after State.ioMoved_keeps (.after State.updSession_keeps (.after State.updSlot_keeps
      (.within (State.updStn_keeps fun _ h => h)))))

theorem State.ackAgain_keeps {h : FrameHdr} {m : Nat} : State.Keeps [.fab] s (s.ackAgain h m) :=
  State.ite_keeps (.refl ..) State.sendRx_keeps

theorem State.countFrame_keeps {p : Fin 14} {gap : Bool} : State.Keeps portParts s (s.countFrame p gap) :=
  .after State.noteIf_keeps (.within State.updPort_keeps)

theorem execDataFrame_answers {p : Fin 14} {frame : List Byte} : State.Answers dataParts s (execDataFrame p frame s) := by
  refine answerRow_answers fun s h => State.ite_keeps (.after State.sendRx_keeps (.within State.updPort_keeps)) ?_
  split
  · exact State.dataPass_keeps
  · exact .after State.ackAgain_keeps (.within State.countFrame_keeps)
  · exact .within State.countFrame_keeps

theorem execCreditFrame_answers {p : Fin 14} {frame : List Byte} :
    State.Answers [.crown, .mon, .fab] s (execCreditFrame p frame s) := by
  refine frameRow_answers fun s h => ?_
  split
  · exact .within State.updPort_keeps
  · exact .within State.updSlot_keeps

theorem State.sendLanded_keeps {st : Fin 16} {f : SentFrame} : State.Keeps [.stations] s (s.sendLanded st f) := by
  refine State.updStn_keeps fun x h => ?_
  split
  · exact h
  · exact Station.landBytes_wf (Station.updSe_wf h)

theorem execAckFrame_answers {p : Fin 14} {frame : List Byte} :
    State.Answers [.stations, .crown, .mon, .fab] s (execAckFrame p frame s) :=
  frameRow_answers fun _ _ => State.ite_keeps
    (.next (State.foldl_keeps fun _ _ => .within State.sendLanded_keeps) (.within State.updSlot_keeps)) (.refl ..)

theorem execStaleFrame_answers {p : Fin 14} {frame : List Byte} : State.Answers linkParts s (execStaleFrame p frame s) := by
  refine frameRow_answers fun s h => State.ite_keeps ?_ (.refl ..)
  split
  · exact .after State.seFault_keeps (.within State.countStale_keeps)
  · exact .after State.instrFault_keeps (.within State.countStale_keeps)

theorem execSendDataFrame_answers {st : Fin 16} {e : Fin 4} :
    State.Answers [.stations, .crown, .fab] s (execSendDataFrame st e s) := by
  refine occurs_answers ?_
  split
  · exact .refl ..
  · exact .after State.portSend_keeps (.after (State.updStn_keeps fun _ h => h) (.after State.updSession_keeps
      (.within State.updSlot_keeps)))

theorem execEndToEndRetransmit_answers {ses : Nat} {slot : Fin 8} :
    State.Answers linkParts s (execEndToEndRetransmit ses slot s) := by
  unfold execEndToEndRetransmit
  refine occurs_answers ?_
  split
  · refine State.ite_keeps (.within State.seLogged_keeps) ?_
    have tried (f : StreamSlot → StreamSlot) : State.Keeps linkParts s (s.updSlot ses slot.val f) := .within State.updSlot_keeps
    split
    · exact State.ite_keeps (.next (State.foldl_keeps fun _ _ => .within State.portSend_keeps) (tried _)) (tried _)
    · exact tried _
  · exact .refl ..

theorem State.readAnswer_keeps {h : FrameHdr} {m : Nat} : State.Keeps memoryParts s (s.readAnswer h m).1 := by
  unfold State.readAnswer
  split
  · exact .refl ..
  · split
    · exact .refl ..
    · split
      · exact .refl ..
      · dsimp only
        split <;> exact State.memGet_keeps

theorem execReadFrame_answers {p : Fin 14} {frame : List Byte} :
    State.Answers [.mem, .mon, .fab, .ioSes] s (execReadFrame p frame s) :=
  answerRow_answers fun _ _ => .after State.sendTo_keeps (.after State.tick_keeps (.after State.ioMoved_keeps
    (.within State.readAnswer_keeps)))

theorem execRdataFrame_answers {p : Fin 14} {frame : List Byte} :
    State.Answers [.stations, .net, .crown, .mortar, .mon, .fab] s (execRdataFrame p frame s) := by
  refine frameRow_answers fun s h => ?_
  split
  · exact .within State.dropFrame_keeps
  · have closed (x : Fabric) : State.Keeps [.stations, .net, .crown, .mortar, .mon, .fab] s { s with fab := x } :=
      .within State.setFab_keeps
    exact State.ite_keeps (.after State.dropFrame_keeps (closed _)) (State.ite_keeps
      (State.ite_keeps (.after State.gotData_keeps (closed _)) (.after State.dropFrame_keeps (closed _)))
      (.after State.seFault_keeps (closed _)))

theorem execCapFrame_answers {p : Fin 14} {frame : List Byte} : State.Answers portParts s (execCapFrame p frame s) :=
  frameRow_answers fun _ _ => State.ite_keeps (.refl ..) (State.ite_keeps
    (State.ite_keeps (.within State.updPort_keeps) (State.ite_keeps (.after State.relayCap_keeps (.within State.updPort_keeps))
      (.refl ..)))
    (State.ite_keeps (.within State.setFab_keeps) (.refl ..)))

theorem State.announce_keeps : State.Keeps [.fab] s s.announce :=
  State.foldl_keeps fun _ _ => State.ite_keeps State.capOut_keeps (.refl ..)

theorem State.holdOne_keeps {p : Fin 14} {frame : List Byte} : State.Keeps [.fab] s (s.holdOne p frame) :=
  State.ite_keeps (State.ite_keeps State.sendRx_keeps State.sendTo_keeps) (.refl ..)

theorem execHoldTimer_answers : State.Answers [.fab] s (execHoldTimer s) :=
  occurs_answers (State.foldl_keeps fun _ _ => State.foldl_keeps fun _ _ => State.holdOne_keeps)

theorem execFrameHoldLimit_answers : State.Answers linkParts s (execFrameHoldLimit s) :=
  occurs_answers (State.foldl_keeps fun _ _ => State.retrain_keeps)

/-! ## Module memory's commands -/

theorem State.unitAccess_keeps {ma : Nat} {acc : UnitAccess} : State.Keeps memoryParts s (s.unitAccess ma acc) := by
  unfold State.unitAccess
  dsimp only
  split
  · exact State.memGet_keeps
  · exact State.ite_keeps (.within State.memPut_keeps) (.refl ..)
  · exact State.ite_keeps (.refl ..) (State.ite_keeps (.within State.memPut_keeps) State.memGet_keeps)

theorem execMemCrcReread_answers {ma : Nat} {n : Fin 4} : State.Answers memoryParts s (execMemCrcReread ma n s) := by
  refine occurs_answers ?_
  split
  · exact .refl ..
  · exact State.ite_keeps State.crcEvent_keeps (.after (State.setMem_keeps id) State.crcEvent_keeps)

theorem execBar2Access_answers {f : Fin 64} {off len : Nat} {wr : HostRead} :
    State.Answers [.mem, .hostOut, .mon] s (execBar2Access f off len wr s) := by
  have written (l : List (Nat × Nat)) (s : State) (b : List Byte) : State.Keeps memoryParts s
      (l.foldl (fun (x : State × List Byte) p => (x.1.barWrite p.1 (x.2.take p.2), x.2.drop p.2)) (s, b)).1 := by
    induction l generalizing s b with
    | nil => exact .refl ..
    | cons p l ih => exact .next (ih ..) State.barWrite_keeps
  have read (l : List (Nat × Nat)) (s : State) (o : Option (List Byte)) : State.Keeps memoryParts s
      (l.foldl (fun (x : State × Option (List Byte)) p =>
        let y := x.1.memGet p.1 p.2
        (y.1, x.2.bind fun a => y.2.map fun c => a ++ c)) (s, o)).1 := by
    induction l generalizing s o with
    | nil => exact .refl ..
    | cons p l ih => exact .next (ih ..) State.memGet_keeps
  refine occurs_answers ?_
  dsimp only
  split
  · exact .within State.toHost_keeps
  · exact .refl ..
  · exact .within (written ..)
  · split <;> exact .after State.toHost_keeps (.within (read ..))

theorem execStackTemperatureReading_answers {site : Fin 8} {n : Nat} :
    State.Answers memoryParts s (execStackTemperatureReading site n s) :=
  occurs_answers (State.ite_keeps (.after State.tick_keeps (.after State.logEvt_keeps (.within State.updStack_keeps)))
    (.within State.updStack_keeps))

theorem execMemZeroingDone_answers {ok : Bool} : State.Answers [.boot, .mem, .mon] s (execMemZeroingDone ok s) := by
  have done (x : ModMem) (h : s.mem.data.wf = true → x.data.wf = true) : State.Keeps [.boot, .mem, .mon] s { s with mem := x } :=
    .within (State.setMem_keeps h)
  exact occurs_answers (State.ite_keeps (.after State.tryReady_keeps (done _ id))
    (.after State.tick_keeps (.after State.logEvt_keeps (done _ id))))

/-! ## Margins of a stack -/

theorem State.setMargin_keeps {site a b c d e : Nat} : State.Keeps [.mem] s (s.setMargin site a b c d e) := State.updStack_keeps

theorem State.marginEnd_keeps {site : Nat} : State.Keeps [.mem, .crown] s (s.marginEnd site) :=
  .after State.setCrown_keeps (.within State.setMargin_keeps)

theorem State.eyePoint_keeps {r : MarginReq} : State.Keeps [.mem, .crown, .mbx] s (s.eyePoint r) :=
  .after State.setCrown_keeps (.after State.updStack_keeps (.within State.setMargin_keeps))

theorem State.eyeDone_keeps {r : MarginReq} {b : Bool} {l : List Nat} : State.Keeps [.mem, .crown, .mbx] s (s.eyeDone r b l) :=
  .after State.complete_keeps (.after State.marginEnd_keeps (.within State.updStack_keeps))

theorem State.eyeStep_keeps {r : MarginReq} : State.Keeps [.mem, .crown, .mbx] s (s.eyeStep r) :=
  State.ite_keeps State.eyeDone_keeps State.eyePoint_keeps

theorem State.eyeNext_keeps {r : MarginReq} {b : Bool} : State.Keeps [.mem, .crown, .mbx] s (s.eyeNext r b) :=
  State.ite_keeps
    (State.ite_keeps State.eyePoint_keeps (State.ite_keeps State.eyeDone_keeps State.eyeStep_keeps))
    (State.ite_keeps State.eyePoint_keeps (State.ite_keeps State.eyeStep_keeps State.eyePoint_keeps))

theorem execMarginPointTest_answers {site : Fin 8} {b : Bool} :
    State.Answers [.mem, .crown, .mbx] s (execMarginPointTest site b s) := by
  refine occurs_answers ?_
  have tested (f : Stack → Stack) : State.Keeps [.mem, .crown, .mbx] s (s.updStack site.val f) := .within State.updStack_keeps
  dsimp only
  split
  · exact tested _
  · exact State.ite_keeps (tested _) (State.ite_keeps (.next State.eyeNext_keeps (tested _))
      (.after State.complete_keeps (.after State.marginEnd_keeps (tested _))))

theorem execMemMargin_answers {f : Fin 64} : State.Answers spaceParts s (execMemMargin f s) := by
  refine cmdRow_answers fun s r b => ?_
  have inMargin (site a b c d e : Nat) : State.Keeps spaceParts s
      (({ s with mem := { s.mem with margin := true } } : State).setMargin site a b c d e) :=
    .after State.setMargin_keeps (.within (State.setMem_keeps id))
  exact State.ite_keeps State.reply_within (State.ite_keeps State.reply_within (.after State.reply_keeps (State.ite_keeps
    (.after State.eyePoint_keeps (inMargin ..)) (.after State.setCrown_keeps (.after State.updStack_keeps (inMargin ..))))))

theorem execWindowZeroingDone_answers {st : Fin 16} {w : Fin 4} : State.Answers stationPart s (execWindowZeroingDone st w s) :=
  occurs_answers (State.updStn_keeps fun _ h => Mem.wf_zeroRange _ _ h)

/-! ## Resets -/

theorem State.reset_canonical : State.reset.Canonical := ⟨State.reset_mem_wf, State.reset_pantry_wf⟩

theorem State.coldReset_keeps {b : BootState} {p : Power} : State.Keeps coldParts s (s.coldReset b p) :=
  ⟨fun p hp => by cases p with | flash | fuses => rfl | _ => exact absurd (by decide) hp, rfl, rfl, .refl _,
    fun _ => State.reset_canonical⟩

theorem State.powerGood_keeps : State.Keeps coldParts s s.powerGood := State.coldReset_keeps

theorem execPerstNAssert_answers : State.Answers coldParts s (execPerstNAssert s) :=
  .ite (next_answers (.refl ..)) (next_answers State.coldReset_keeps)

theorem execResetCold_answers {f : Fin 64} : State.Answers coldParts s (execResetCold f s) :=
  cmdRow_answers fun _ _ _ => State.coldReset_keeps

theorem execP1PowerUp_answers : State.Answers coldParts s (execP1PowerUp s) :=
  .ite (next_answers (.refl ..)) (next_answers (State.ite_keeps (.next State.powerGood_keeps (.within State.setPower_keeps))
    (.within State.setPower_keeps)))

theorem execRefclk100Present_answers : State.Answers coldParts s (execRefclk100Present s) :=
  .ite (next_answers (.refl ..)) (next_answers (State.ite_keeps (.next State.powerGood_keeps (.within State.setPower_keeps))
    (.within State.setPower_keeps)))

theorem execUndervoltageLockout_answers : State.Answers coldParts s (execUndervoltageLockout s) :=
  .ite (next_answers State.coldReset_keeps) (next_answers (.refl ..))

theorem execThermtrip_answers : State.Answers coldParts s (execThermtrip s) :=
  .ite (next_answers (.refl ..)) (next_answers State.coldReset_keeps)

theorem Station.resetStn_wf : x.resetStn.Wf := rfl

theorem Station.warm_wf {f : Funnel} : Station.Wf { x.warm with funnel := f } := rfl

theorem State.trained_keeps : State.Keeps [.mem] s s.trained := State.setMem_keeps id

theorem execStationReset_answers {f : Fin 64} :
    State.Answers [.stations, .mem, .crown, .mbx, .mortar, .mon] s (execStationReset f s) := by
  refine cmdRow_answers fun s r b => ?_
  split
  · refine .after State.reply_keeps (.after State.trained_keeps (.after (State.updStn_keeps fun _ _ => Station.resetStn_wf) ?_))
    split
    · exact State.ite_keeps (.within State.abortJob_keeps) (.refl ..)
    · exact .refl ..
  · exact State.reply_within

theorem State.clearPage_keeps {f : Fin 64} : State.Keeps warmParts s (s.clearPage f) :=
  .after State.setCrown_keeps (.after State.unmark_keeps (.after State.updMbx_keeps (.within State.dropReplies_keeps)))

theorem State.endVerifies_keeps {p : VerifyReq → Bool} : State.Keeps [.crown, .mbx, .mortar] s (s.endVerifies p) := by
  refine State.foldl_keeps fun s v => ?_
  split
  · exact .after State.complete_keeps (.within State.setMortarCrown_keeps)
  · exact .within State.setMortarCrown_keeps

theorem State.dropCache_keeps {f : Fin 64} : State.Keeps [.crown] s (s.dropCache f) := State.setCrown_keeps

theorem State.vfReset_keeps {f : Fin 64} : State.Keeps warmParts s (s.vfReset f) :=
  .after State.msi_keeps (.after State.trained_keeps (.after State.dropCache_keeps
    (.next (State.foldl_keeps fun _ _ => .within State.cleanup_keeps)
      (.next (State.foldl_keeps fun _ _ => .within State.abortJob_keeps) (.after State.endVerifies_keeps State.clearPage_keeps)))))

theorem State.unitEvent_keeps {st : Fin 16} {e : Nat} : State.Keeps [.crown, .mon] s (s.unitEvent st e) :=
  .after State.tick_keeps (.after State.logEvt_keeps (.within State.setCrown_keeps))

theorem State.quarantine_keeps {st : Fin 16} {e : Nat} : State.Keeps [.stations, .crown, .mon] s (s.quarantine st e) :=
  .after State.unitEvent_keeps (.after (State.updStn_keeps fun _ h => h) (.within State.setCrown_keeps))

theorem State.quarNarrow_keeps : State.Keeps [.stations, .crown, .mon] s s.quarNarrow :=
  State.foldl_keeps fun _ _ => State.foldl_keeps fun _ _ => State.ite_keeps State.quarantine_keeps (.refl ..)

theorem State.replayJournal_keeps : State.Keeps endParts s s.replayJournal :=
  State.foldl_keeps fun _ _ => State.ite_keeps (.refl ..) (State.ite_keeps (.within State.setCrown_keeps) State.finishCommit_keeps)

theorem State.endRequests_keeps : State.Keeps [.mem, .crown, .mbx, .mortar] s s.endRequests := by
  unfold State.endRequests
  extract_lets s1 s2 s3 s4 s5
  have h1 : State.Keeps [.mem, .crown, .mbx, .mortar] s s1 := .within State.endVerifies_keeps
  have h2 : State.Keeps [.mem, .crown, .mbx, .mortar] s s2 := by
    dsimp only [s2]
    split
    · exact .after State.complete_keeps h1
    · exact h1
  have h3 : State.Keeps [.mem, .crown, .mbx, .mortar] s s3 := .next (State.foldl_keeps fun _ _ => State.complete_within) h2
  have h4 : State.Keeps [.mem, .crown, .mbx, .mortar] s s4 := by
    dsimp only [s4]
    split
    · exact .after State.complete_keeps (.after State.marginEnd_keeps h3)
    · exact h3
  have h5 : State.Keeps [.mem, .crown, .mbx, .mortar] s s5 := by
    dsimp only [s5]
    split
    · exact State.ite_keeps (.after State.reply_keeps h4) h4
    · exact h4
  exact .after State.setCrown_keeps h5

theorem State.endJobs_keeps : State.Keeps [.stations, .mem, .crown, .mbx, .hostOut, .mortar] s s.endJobs :=
  .next (State.foldl_keeps fun _ _ => .within State.cleanup_keeps)
    (.next (State.foldl_keeps fun _ _ => .within State.abortJob_keeps) (.within State.replayJournal_keeps))

theorem State.closeAll_keeps : State.Keeps endParts s s.closeAll := State.foldl_keeps fun _ _ => State.closeCheck_keeps

/-- What a warm reset clears at once: the stations, what waits between them, the units and the engines. -/
theorem State.setWarm_keeps {a : Vector Station 16} {b : List NetMsg} {c : Vector BndUnit 4} {d : Vector (Vector StreamEng 8) 4}
    {e : ModMem} {f : Crown} (ha : ∀ st : Fin 16, a[st].Wf) (he : s.mem.data.wf = true → e.data.wf = true) :
    State.Keeps [.stations, .net, .band, .ioSes, .mem, .crown] s
      { s with stations := a, net := b, band := c, ioSes := d, mem := e, crown := f } :=
  ⟨fun p hp => by cases p <;> simp_all [Part.same], rfl, rfl, .refl _, fun c => ⟨he c.1, ha⟩⟩

theorem State.warmCore_keeps : State.Keeps warmParts s s.warmCore := by
  unfold State.warmCore
  extract_lets s0 s1 s2 _ _ s3
  have h2 : State.Keeps warmParts s s2 := .after State.unmark_keeps (.after State.endJobs_keeps
    (.after State.endRequests_keeps (.within State.setMortar_keeps)))
  have h3 : State.Keeps warmParts s s3 := .after (State.setWarm_keeps (fun st => by
    simp only [Fin.getElem_fin, Vector.getElem_ofFn]; exact Station.warm_wf) id) h2 (by decide)
  exact .after State.closeAll_keeps (.after State.quarNarrow_keeps h3)

theorem State.setPowerMon_keeps {a : Power} {b : Monitor} : State.Keeps [.power, .mon] s { s with power := a, mon := b } :=
  ⟨fun p hp => by cases p <;> simp_all [Part.same], rfl, rfl, .refl _, id⟩

theorem State.logWrite_keeps : State.Keeps [.power, .mbx, .hostOut, .mon] s s.logWrite := by
  unfold State.logWrite
  split
  · exact .refl ..
  · exact .after State.msi_keeps (.within State.setPowerMon_keeps)

theorem State.logDrain_keeps : State.Keeps [.power, .mbx, .hostOut, .mon] s s.logDrain :=
  State.foldl_keeps fun _ _ => State.logWrite_keeps

/-- What the end of a warm reset or of an activation touches: the replies and the log go out. -/
def warmEndParts : List Part := [.power, .stations, .mem, .crown, .mbx, .hostOut, .mon]

theorem State.warmEnd_keeps : State.Keeps warmEndParts s s.warmEnd :=
  .after State.msi_keeps (.after State.logDrain_keeps (.after State.setCrown_keeps
    (State.foldl_keeps fun _ _ => .within State.writeAll_keeps)))

theorem execResetWarm_answers {f : Fin 64} : State.Answers warmParts s (execResetWarm f s) :=
  cmdRow_answers fun _ _ _ => .after State.warmEnd_keeps (.after State.reply_keeps State.warmCore_keeps)

theorem State.cfgReset_keeps : State.Keeps [.bars, .cfg] s s.cfgReset :=
  ⟨fun p hp => by cases p <;> simp_all [Part.same, State.cfgReset], rfl, rfl, .refl _, id⟩

theorem State.linkReset_keeps : State.Keeps linkResetParts s s.linkReset :=
  .after State.warmEnd_keeps (.after State.cfgReset_keeps (.after State.warmCore_keeps
    (State.foldl_keeps fun _ _ => .within State.clearPage_keeps)))

theorem execHotReset_answers : State.Answers linkResetParts s (execHotReset s) := occurs_answers State.linkReset_keeps

theorem execFunctionLevelReset_answers {f : Fin 64} : State.Answers linkResetParts s (execFunctionLevelReset f s) :=
  .ite (occurs_answers (.next State.linkReset_keeps (.within State.dropCache_keeps))) (occurs_answers (.within State.vfReset_keeps))

theorem execErrorLogWrite_answers : State.Answers [.power, .mbx, .hostOut, .mon] s (execErrorLogWrite s) :=
  .ite (next_answers (.refl ..)) (next_answers State.logWrite_keeps)

/-! ## Fuses -/

theorem bitAt_eq_testBit (n i : Nat) : bitAt n i = n.testBit i := by
  rw [Nat.testBit_eq_decide_div_mod_eq, bitAt]; rfl

theorem bitAt_or_left {w i : Nat} (a m : BitVec w) (h : bitAt a.toNat i = true) : bitAt (a ||| m).toNat i = true := by
  rw [bitAt_eq_testBit] at h ⊢
  rw [BitVec.toNat_or, Nat.testBit_or, h, Bool.true_or]

theorem Fuses.blow_grows (f : Fuses) (n : Nat) : f.Grows (f.blow n) := by
  unfold Fuses.blow
  dsimp only
  split
  · exact ⟨rfl, rfl, rfl, fun _ h => bitAt_or_left _ _ h, fun _ h => bitAt_or_left _ _ h⟩
  · exact .refl f

/-! ## The boot, activations and staging -/

theorem State.setBootFlash_keeps {a : Boot} {b : Flash} : State.Keeps [.boot, .flash] s { s with boot := a, flash := b } :=
  ⟨fun p hp => by cases p <;> simp_all [Part.same], rfl, rfl, .refl _, id⟩

theorem State.setBootFlashCrown_keeps {a : Boot} {b : Flash} {c : Crown} {n : Nat} :
    State.Keeps [.boot, .flash, .crown] s { s with boot := a, flash := b, crown := c, fresh := n } :=
  ⟨fun p hp => by cases p <;> simp_all [Part.same], rfl, rfl, .refl _, id⟩

theorem State.setBootFlashMortar_keeps {a : Boot} {b : Flash} {c : Mortar} :
    State.Keeps [.boot, .flash, .mortar] s { s with boot := a, flash := b, mortar := c } :=
  ⟨fun p hp => by cases p <;> simp_all [Part.same], rfl, rfl, .refl _, id⟩

/-- What the ROM and the firmware's start touch. -/
def bootParts : List Part := [.power, .boot, .flash, .stations, .mem, .crown, .mbx, .hostOut, .mortar, .mon, .fab]

theorem State.romRead_keeps : State.Keeps [.power, .boot, .mem] s s.romRead :=
  ⟨fun p hp => by cases p <;> simp_all [Part.same, State.romRead], rfl, rfl, .refl _, id⟩

theorem State.loadImage_keeps {b : Bool} : State.Keeps [.boot, .flash, .mortar] s (s.loadImage b) :=
  State.setBootFlashMortar_keeps

theorem State.startBank_keeps {a b c : Bool} : State.Keeps [.boot, .flash, .mortar] s (s.startBank a b c) :=
  .after State.setBoot_keeps State.loadImage_keeps

theorem State.otherBank_keeps {b : Bool} : State.Keeps [.boot, .flash, .mortar] s (s.otherBank b) :=
  .after State.setBoot_keeps (.next State.startBank_keeps (.within State.setFlash_keeps))

theorem State.enterRecovery_keeps : State.Keeps [.boot, .fab] s s.enterRecovery :=
  ⟨fun p hp => by cases p <;> simp_all [Part.same, State.enterRecovery], rfl, rfl, .refl _, id⟩

theorem State.setStationsFab_keeps {a : Vector Station 16} {b : Fabric} (h : s.Canonical → ∀ st : Fin 16, a[st].Wf) :
    State.Keeps [.stations, .fab] s { s with stations := a, fab := b } :=
  ⟨fun p hp => by cases p <;> simp_all [Part.same], rfl, rfl, .refl _, fun c => ⟨c.1, h c⟩⟩

theorem Station.setGriddles_wf {v : Vector Griddle 2} (h : x.Wf) : Station.Wf { x with griddles := v } := h

theorem State.firmConfig_keeps : State.Keeps bootParts s s.firmConfig := by
  unfold State.firmConfig
  extract_lets _ _ s1 s2
  have h1 : State.Keeps bootParts s s1 := .within (State.setStationsFab_keeps fun c st => by
    simp only [Fin.getElem_fin, Vector.getElem_ofFn]; exact Station.setGriddles_wf (c.station st))
  have h2 : State.Keeps bootParts s s2 := .after State.quarNarrow_keeps h1
  exact State.ite_keeps (.after State.msi_keeps (.after State.logEvt_keeps h2)) h2

theorem State.coldBoot_keeps : State.Keeps bootParts s s.coldBoot := by
  have read : State.Keeps bootParts s s.romRead := .within State.romRead_keeps
  exact State.ite_keeps (.next State.firmConfig_keeps (.after State.startBank_keeps read))
    (State.ite_keeps (.next State.firmConfig_keeps (.after State.otherBank_keeps read)) (.after State.enterRecovery_keeps read))

theorem execColdBoot_answers : State.Answers bootParts s (execColdBoot s) := occurs_answers State.coldBoot_keeps

theorem State.noteActivation_keeps {c : Byte} : State.Keeps [.mon] s (s.noteActivation c) := State.logEvt_keeps

theorem State.confirm_keeps : State.Keeps [.boot, .flash, .fuses] s s.confirm :=
  ⟨fun p hp => by cases p <;> simp_all [Part.same, State.confirm], rfl, rfl, Fuses.blow_grows .., id⟩

theorem State.renegotiate_keeps : State.Keeps [.fab] s s.renegotiate := State.setFab_keeps

/-- What the end of an activation touches. -/
def activationEndParts : List Part := [.power, .boot, .flash, .stations, .mem, .crown, .mbx, .hostOut, .mon]

theorem State.endActivation_keeps {c : Byte} {n : Nat} : State.Keeps activationEndParts s (s.endActivation c n) := by
  unfold State.endActivation
  refine .after State.warmEnd_keeps ?_
  split
  · exact .after State.settle_keeps (.after State.reply_keeps (.within State.setBootFlashCrown_keeps))
  · exact .within State.setBootFlashCrown_keeps

theorem execImageConfirm_answers : State.Answers
    [.power, .boot, .flash, .fuses, .stations, .mem, .crown, .mbx, .hostOut, .mon, .fab] s (execImageConfirm s) :=
  .ite (occurs_answers (.after State.endActivation_keeps (.after State.announce_keeps (.after State.renegotiate_keeps
      (.after State.tick_keeps (.after State.noteActivation_keeps (.after State.setBoot_keeps (.within State.confirm_keeps))))))))
    (occurs_answers (.within State.confirm_keeps))

theorem State.fallBack_keeps : State.Keeps bootParts s s.fallBack := by
  unfold State.fallBack
  extract_lets _ s1 _ s2 s3
  have h2 : State.Keeps bootParts s s2 := .after State.setBootFlashMortar_keeps (.within State.loadImage_keeps)
  have h3 : State.Keeps bootParts s s3 := .next (State.foldl_keeps fun _ _ => .within State.retrain_keeps)
    (.after State.tick_keeps (.after State.noteActivation_keeps h2))
  exact .after State.endActivation_keeps h3

theorem execWatchdogExpiry_answers : State.Answers bootParts s (execWatchdogExpiry s) :=
  .ite (occurs_answers State.fallBack_keeps)
    (occurs_answers (State.ite_keeps (.within State.enterRecovery_keeps) (.within State.otherBank_keeps)))

theorem State.stageEnd_keeps {ref : Option ReqRef} {c : Byte} : State.Keeps [.mbx] s (s.stageEnd ref c) := by
  unfold State.stageEnd
  split
  · exact State.complete_keeps
  · exact .refl ..

/-- A staging without a request answers no mailbox. -/
theorem State.stageBegin_keeps {ref : Option ReqRef} {img : HostRead} (h : ∀ s c, State.Keeps ps s (State.stageEnd s ref c))
    (hp : [.boot, .flash, .crown] ⊆ ps := by decide) : State.Keeps ps s (s.stageBegin ref img) := by
  have hb : [.boot] ⊆ ps := List.Subset.trans (by decide) hp
  unfold State.stageBegin
  split
  · exact .next (h ..) (.within State.setBoot_keeps hb)
  · dsimp only
    split
    · exact .next (h ..) (.within State.setBoot_keeps hb)
    · exact .within State.setBootFlashCrown_keeps hp

theorem execFwStage_answers {f : Fin 64} {dma : HostRead} :
    State.Answers [.boot, .flash, .crown, .mbx, .mon] s (execFwStage f dma s) :=
  cmdRow_answers fun _ _ _ => State.ite_keeps State.reply_within
    (.next (State.stageBegin_keeps fun _ _ => .within State.stageEnd_keeps) State.reply_within)

theorem State.stageDone_keeps {o : StageRun} : State.Keeps [.boot, .flash, .crown] s (s.stageDone o) :=
  State.ite_keeps State.setBootFlashCrown_keeps State.setBootFlashCrown_keeps

theorem execFlashWriteDone_answers {ok : Bool} : State.Answers [.boot, .flash, .crown, .mbx] s (execFlashWriteDone ok s) := by
  refine occurs_answers ?_
  split
  · exact .refl ..
  · exact State.ite_keeps (.after State.stageEnd_keeps (.within State.stageDone_keeps))
      (.after State.stageEnd_keeps (.within State.setBootFlashCrown_keeps))

theorem execPldmFirmwareUpdate_answers {img : HostRead} :
    State.Answers [.boot, .flash, .crown] s (execPldmFirmwareUpdate img s) := by
  refine occurs_answers ?_
  split
  · exact State.ite_keeps (.refl ..) (State.stageBegin_keeps fun _ _ => .refl ..)
  · exact State.ite_keeps (.within State.setCrown_keeps) (.refl ..)

theorem execFwActivate_answers {f : Fin 64} : State.Answers recordParts s (execFwActivate f s) :=
  cmdRow_answers fun _ _ _ => State.ite_keeps State.reply_within (State.ite_keeps State.reply_within (.within State.setCrown_keeps))

/-- What an activation touches. -/
def activationParts : List Part := warmParts ++ [.boot, .flash, .fab]

theorem State.activate_keeps : State.Keeps activationParts s s.activate := by
  have warm (a : Boot) (b : Flash) (c : Crown) (d : Crown) : State.Keeps activationParts s
      { ({ s with boot := a, flash := b, crown := c } : State).warmCore with crown := d } :=
    .after State.setCrown_keeps (.after State.warmCore_keeps (.within State.setBootFlashCrown_keeps))
  exact State.ite_keeps (.after State.setBoot_keeps (.after State.loadImage_keeps (warm ..))) (.after State.fallBack_keeps (warm ..))

theorem execFirmwareActivation_answers : State.Answers activationParts s (execFirmwareActivation s) :=
  occurs_answers State.activate_keeps

theorem execDrainTimeout_answers : State.Answers recordParts s (execDrainTimeout s) := by
  refine occurs_answers ?_
  dsimp only
  split
  · exact .after State.settle_keeps (.after State.reply_keeps (.within State.setCrown_keeps))
  · exact .within State.setCrown_keeps

theorem execConfigBlockWrite_answers : State.Answers [.boot, .flash] s (execConfigBlockWrite s) :=
  occurs_answers State.setBootFlash_keeps

theorem execAttest_answers {f : Fin 64} : State.Answers entryParts s (execAttest f s) :=
  cmdRow_answers fun _ _ _ => State.ite_keeps State.reply_within
    (.after State.complete_keeps (.after State.toHost_keeps State.reply_within))

/-! ## Skillets and the Card -/

theorem Station.setSkillets_wf {v : Vector Skillet 2} (h : x.Wf) : Station.Wf { x with skillets := v } := h

theorem planSkillet_wf {v : Fin 2} {e : QEntry} (h : x.Wf) : (planSkillet v s x e).Wf := by
  unfold planSkillet; dsimp only; split
  · trivial
  · split
    · trivial
    · exact Station.setSkillets_wf (Station.blur_wf h)

theorem planSload_wf {v : Fin 2} {e : QEntry} (h : x.Wf) : (planSload v s x e).Wf := by
  unfold planSload; dsimp only; split
  · trivial
  · split
    · exact Station.setSkillets_wf h
    · exact Station.setSkillets_wf h

theorem Station.setCard_wf {b : List Byte} {r : List Nat} (h : x.Wf) : Station.Wf { x with cardBuf := b, cardRoute := r } := h

theorem Station.cardDone_wf {n : Nat} {ws : List (Nat × List Byte)} {r : List Nat} (h : x.Wf) : (x.cardDone n ws r).Wf :=
  Station.setCard_wf (Station.blur_wf h)

theorem planCxpose_wf {e : QEntry} (h : x.Wf) : (planCxpose s x e).Wf := by
  unfold planCxpose; split
  · trivial
  · exact Station.cardDone_wf h

theorem planCauto_wf {e : QEntry} (h : x.Wf) : (planCauto s x e).Wf := by
  unfold planCauto; split
  · trivial
  · dsimp only; split
    · exact Station.cardDone_wf h
    · trivial

theorem planCperm_wf {e : QEntry} (h : x.Wf) : (planCperm s x e).Wf := by
  unfold planCperm; split
  · trivial
  · dsimp only; split
    · exact Station.cardDone_wf h
    · trivial

/-! ## Configuration of the fabric -/

/-- What a change of the fabric's configuration touches. -/
def fabConfigParts : List Part := [.boot, .stations, .crown, .mbx, .mortar, .mon, .fab]

theorem State.setBootFab_keeps {a : Boot} {b : Fabric} : State.Keeps [.boot, .fab] s { s with boot := a, fab := b } :=
  ⟨fun p hp => by cases p <;> simp_all [Part.same], rfl, rfl, .refl _, id⟩

theorem State.setModid_keeps {m : Nat} : State.Keeps fabConfigParts s (s.setModid m) :=
  State.ite_keeps (.refl ..) (.next (State.foldl_keeps fun _ _ => .within State.retrain_keeps) (.within State.setBootFab_keeps))

theorem State.setPort_keeps {p : Fin 14} {eth : Bool} {e : Nat} : State.Keeps fabConfigParts s (s.setPort p eth e) := by
  unfold State.setPort
  extract_lets _ s1 s2
  have h1 : State.Keeps fabConfigParts s s1 := State.ite_keeps (.refl ..) (.after State.updPort_keeps (.within State.retrain_keeps))
  have h2 : State.Keeps fabConfigParts s s2 := .after State.updPort_keeps h1
  exact State.ite_keeps h2 (.after State.setBoot_keeps h2)

theorem execFabConfig_answers {f : Fin 64} : State.Answers fabConfigParts s (execFabConfig f s) := by
  refine cmdRow_answers fun s r b => State.ite_keeps ?_ ?_
  · exact State.ite_keeps State.reply_within (State.ite_keeps State.reply_within (.after State.reply_keeps State.setModid_keeps))
  · split
    · exact State.ite_keeps State.reply_within (.after State.reply_keeps State.setPort_keeps)
    · exact State.reply_within

theorem execFabStatus_answers {f : Fin 64} : State.Answers recordParts s (execFabStatus f s) := by
  refine cmdRow_answers fun s r b => ?_
  split
  · exact State.ite_keeps State.reply_within State.reply_within
  · exact State.reply_within

/-! ## Funnels -/

/-- What a Funnel's reads touch: its station and the controllers. -/
def funnelParts : List Part := [.stations, .mem, .mon]

theorem State.updFunnel_keeps {st : Fin 16} {f : Funnel → Funnel} : State.Keeps [.stations] s (s.updFunnel st f) :=
  State.updStn_keeps fun _ h => h

theorem State.mapMiss_keeps {st : Fin 16} {m : Nat} : State.Keeps funnelParts s (s.mapMiss st m).1 := by
  have missed {f : Funnel → Funnel} {ma : Nat} : State.Keeps funnelParts s ((s.updFunnel st f).sieve ma).1 :=
    .after State.sieve_keeps (.within State.updFunnel_keeps)
  unfold State.mapMiss
  dsimp only
  split
  · exact missed
  · dsimp only; exact .after State.updFunnel_keeps missed

theorem State.mapEntry_keeps {st : Fin 16} {m : Nat} : State.Keeps funnelParts s (s.mapEntry st m).1 := by
  unfold State.mapEntry
  split
  · dsimp only; exact .within State.updFunnel_keeps
  · exact State.mapMiss_keeps

theorem State.countExpand_keeps {grp pair n : Nat} : State.Keeps [.stations] s (s.countExpand grp pair n) := by
  refine State.foldl_keeps fun s d => ?_
  dsimp only
  split
  · exact State.updFunnel_keeps
  · exact .refl ..

theorem State.expandGo_keeps {ks : KeySet} {d : ObjDesc} (n : Nat) (y : KeyStream) :
    State.Keeps [.stations] s (State.expandGo ks x d n s y).1 := by
  induction n generalizing s y with
  | zero => exact .refl ..
  | succ n ih =>
    unfold State.expandGo
    dsimp only
    split
    · exact .refl ..
    · exact .next (ih _) State.countExpand_keeps

theorem State.expand_keeps {st : Fin 16} {ks : KeySet} {d : ObjDesc} {y : KeyStream} :
    State.Keeps [.stations] s (s.expand st ks d y).1 := by
  unfold State.expand
  split
  · exact .refl ..
  · exact State.expandGo_keeps ..

theorem State.pageBytes_keeps {e : KpmEntry} {off n : Nat} {r : PageRead} : State.Keeps memoryParts s (s.pageBytes e off n r).1 := by
  unfold State.pageBytes
  dsimp only
  split
  · exact State.memGet_keeps
  · split <;> exact .refl ..

theorem State.checkPage_keeps {st : Fin 16} {tag : Word} {d : ObjDesc} {n : Nat} {r : PageRead} {b : Bool} :
    State.Keeps funnelParts s (s.checkPage st tag d n r b).1 := by
  have entry {m : Nat} : State.Keeps funnelParts s (s.mapEntry st m).1 := State.mapEntry_keeps
  unfold State.checkPage
  dsimp only
  split
  · exact entry
  · split
    · exact entry
    · have read (p : KpmEntry) {c : Bool} {a b e : Nat} : State.Keeps funnelParts s
          ((if c then ((s.mapEntry st (d.first + n)).1.countSieve a).countSieve b
            else (s.mapEntry st (d.first + n)).1).pageBytes p 0 e r).1 :=
        .after State.pageBytes_keeps (State.ite_keeps (.after State.countSieve_keeps (.after State.countSieve_keeps entry)) entry)
      split
      · exact read _
      · split <;> exact read _

theorem State.streamFail_keeps {st : Fin 16} {c : Byte} {m : Nat} {d : Option ObjDesc} :
    State.Keeps startParts s (s.streamFail st c m d) := by
  unfold State.streamFail
  refine .next State.instrFault_keeps ?_
  split
  · exact .after State.invalidate_keeps (.within State.updFunnel_keeps)
  · exact .within State.updFunnel_keeps

theorem execFstream_answers {st : Fin 16} : State.Answers startParts s (execFstream st s) := by
  refine occurs_answers ?_
  split
  · split
    · exact State.streamFail_keeps
    · exact State.startOp_keeps fun c => c.station st
  · exact .refl ..

theorem execStreamOpen_answers {st : Fin 16} : State.Answers stationPart s (execStreamOpen st s) := by
  refine occurs_answers ?_
  split
  · exact .putStn (.refl ..) fun c => c.station st
  · exact .refl ..

theorem State.precheckGo_keeps {st : Fin 16} {tag : Word} (l : List (ObjDesc × Nat)) (hs : List PageRead) :
    State.Keeps funnelParts s (State.precheckGo st tag l hs s).1 := by
  induction l generalizing s hs with
  | nil => exact .refl ..
  | cons p l ih =>
    unfold State.precheckGo
    dsimp only
    split <;> exact .next (ih _) State.checkPage_keeps

theorem State.updStream_keeps {st : Fin 16} {j : Nat} {f : KeyStream → KeyStream} : State.Keeps [.stations] s (s.updStream st j f) :=
  State.updFunnel_keeps

theorem execPrecheckDone_answers {st : Fin 16} {j : Nat} {hs : List PageRead} :
    State.Answers (.net :: streamParts) s (execPrecheckDone st j hs s) := by
  refine occurs_answers ?_
  split
  · have checked {tag : Word} {l : List (ObjDesc × Nat)} : State.Keeps (.net :: streamParts) s (State.precheckGo st tag l hs s).1 :=
      .within (State.precheckGo_keeps ..)
    dsimp only
    split
    · refine .after State.streamFail_keeps ?_
      split
      · exact .after State.raise_keeps checked
      · exact checked
    · exact .after (State.updStn_keeps fun _ h => h) (.after State.updStream_keeps checked)
  · exact .refl ..

theorem execMapCacheFill_answers {st : Fin 16} {m : Nat} : State.Answers streamParts s (execMapCacheFill st m s) := by
  have missed : State.Keeps streamParts s (s.mapMiss st m).1 := .within State.mapMiss_keeps
  refine occurs_answers ?_
  dsimp only
  split
  · exact .after State.streamFail_keeps missed
  · exact missed

theorem State.closeStream_keeps {st : Fin 16} {j grp : Nat} : State.Keeps [.stations] s (s.closeStream st j grp) :=
  .after (State.mapStns_keeps fun _ h => h) State.updFunnel_keeps

theorem State.goOn_keeps {st : Fin 16} {j : Nat} {d : ObjDesc} {y : KeyStream} : State.Keeps [.stations] s (s.goOn st j d y) := by
  unfold State.goOn
  refine State.ite_keeps ?_ State.updStream_keeps
  split
  · exact State.updStream_keeps
  · exact State.closeStream_keeps

theorem execPageArrival_answers {st : Fin 16} {j : Nat} {r : PageRead} : State.Answers streamParts s (execPageArrival st j r s) := by
  refine occurs_answers ?_
  split
  · have checked {tag : Word} {d : ObjDesc} {n : Nat} {r : PageRead} {b : Bool} :
        State.Keeps streamParts s (s.checkPage st tag d n r b).1 := .within State.checkPage_keeps
    dsimp only
    split
    · exact .after State.streamFail_keeps checked
    · split
      · exact .after State.streamFail_keeps (.after State.pageBytes_keeps checked)
      · exact .after State.goOn_keeps (.after State.expand_keeps (.after State.updFunnel_keeps
          (.after State.pageBytes_keeps checked)))
  · exact .refl ..

theorem Station.receive_wf {ks : Option KeySet} {c : Consumer} {ws : List Word} {y : Station} (h : x.Wf)
    (hy : x.receive ks c ws = some y) : y.Wf := by
  cases c with
  | griddle g => cases hy; exact h
  | kettle k => cases hy; exact h
  | blocker =>
    simp only [Station.receive] at hy
    split at hy
    · exact Station.blkTake_wf h hy
    · cases hy; exact h

theorem State.deliver_keeps {p : KeyPart} {ws : List Word} {mc : Fin 16 × Consumer} :
    State.Keeps startParts s (State.deliver p ws s mc) := by
  unfold State.deliver
  refine State.ite_keeps (.refl ..) (State.ite_keeps State.instrFault_keeps ?_)
  split
  · next hy => exact .putStn (.refl ..) fun c => Station.receive_wf (c.station mc.1) hy
  · exact State.instrFault_keeps

theorem State.launched_keeps {st : Fin 16} {j : Nat} {y : KeyStream} : State.Keeps [.stations] s (s.launched st j y) := by
  unfold State.launched
  split
  · exact .refl ..
  · exact State.goOn_keeps

theorem execKeyRowLaunch_answers {grp : Fin 64} {w : List Nat} : State.Answers startParts s (execKeyRowLaunch grp w s) := by
  refine occurs_answers ?_
  split
  · exact .refl ..
  · have delivered {l : List Nat} {m : List (Fin 16 × Consumer)} {p : Nat → Fin 16 → Bool} {f : Nat → Station → Station}
        {k : KeyPart} {ws : List Word} (hf : ∀ d x, x.Wf → (f d x).Wf) : State.Keeps startParts s
        (m.foldl (State.deliver k ws) (l.foldl (fun s d => s.mapStns (p d) (f d)) s)) :=
      .next (State.foldl_keeps fun _ _ => State.deliver_keeps)
        (State.foldl_keeps fun _ d => .within (State.mapStns_keeps (hf d)))
    exact State.ite_keeps (.after State.launched_keeps (delivered fun _ _ h => h)) (delivered fun _ _ h => h)

theorem execFclose_answers {st : Fin 16} : State.Answers startParts s (execFclose st s) := by
  have started {i : Nat} {e : QEntry} : State.Keeps startParts s (s.startOp st qFunnel i (.go s.stations[st] e)) :=
    State.startOp_keeps fun c => c.station st
  refine occurs_answers ?_
  split
  · exact .refl ..
  · dsimp only
    split
    · exact started
    · exact State.ite_keeps (.after State.closeStream_keeps started) (.after State.updStream_keeps started)

/-! ## Mailbox pages -/

theorem execMbxCtrlWrite_answers {f : Fin 64} {v : Word} : State.Answers endParts s (execMbxCtrlWrite f v s) := by
  refine occurs_answers ?_
  have coal (g : Mbx → Mbx) : State.Keeps endParts s (s.updMbx f g) := .within State.updMbx_keeps
  exact .after State.signalCheck_keeps (State.ite_keeps (.after State.updMbx_keeps (coal _))
    (State.ite_keeps (.after State.updMbx_keeps (.next State.dropReplies_keeps (coal _))) (coal _)))

theorem execDoorbell_answers {f : Fin 64} {val : Word} : State.Answers [.mbx] s (execDoorbell f val s) :=
  occurs_answers State.updMbx_keeps

theorem execMbxCqHeadWrite_answers {f : Fin 64} {val : Word} : State.Answers [.mbx] s (execMbxCqHeadWrite f val s) :=
  occurs_answers State.updMbx_keeps

theorem State.receipt_keeps {f : Fin 64} : State.Keeps [.mbx, .hostOut] s (s.receipt f) :=
  State.ite_keeps (.after State.msi_keeps (.within State.updMbx_keeps)) (.within State.updMbx_keeps)

theorem State.noteMbx_keeps {f : Fin 64} {old : Mbx} : State.Keeps [.mon] s (s.noteMbx f old) :=
  .after State.noteIf_keeps (.after State.noteIf_keeps State.noteIf_keeps)

theorem State.examine_keeps {f : Fin 64} {e : HostRead} : State.Keeps entryParts s (s.examine f e) := by
  unfold State.examine
  refine .after State.settle_keeps (.after State.noteMbx_keeps ?_)
  split
  · exact .within State.updMbx_keeps
  · exact .after State.tick_keeps (.after State.logEvt_keeps (.within State.updMbx_keeps))

theorem State.afterEntry_keeps {f : Fin 64} : State.Keeps [.mbx, .hostOut] s (s.afterEntry f) := by
  unfold State.afterEntry
  extract_lets s1
  have h1 : State.Keeps [.mbx, .hostOut] s s1 := State.ite_keeps (.within State.updMbx_keeps) (.refl ..)
  exact State.ite_keeps (.after State.receipt_keeps h1) h1

theorem execRequestEntryFetch_answers {f : Fin 64} {e : HostRead} : State.Answers entryParts s (execRequestEntryFetch f e s) :=
  occurs_answers (State.ite_keeps (.after State.receipt_keeps (.within State.updMbx_keeps))
    (.after State.afterEntry_keeps State.examine_keeps))

theorem execCompletionEntryWrite_answers {f : Fin 64} : State.Answers endParts s (execCompletionEntryWrite f s) :=
  occurs_answers State.writeEntry_keeps

theorem execVector0Timer_answers {f : Fin 64} : State.Answers [.mbx, .hostOut] s (execVector0Timer f s) :=
  occurs_answers State.signal0_keeps

theorem execBar0BadAccess_answers {f : Fin 64} {off : Nat} {b : Bool} :
    State.Answers [.hostOut, .mon] s (execBar0BadAccess f off b s) :=
  occurs_answers (.after State.logEvt_keeps (State.ite_keeps (.within State.toHost_keeps) (.refl ..)))

theorem execMbxChkcntClr_answers {f : Fin 64} : State.Answers pageParts s (execMbxChkcntClr f s) :=
  occurs_answers (.after State.unmark_keeps (.within State.updMbx_keeps))

/-! ## Monitors, snapshots and quarantine -/

theorem execMonCfgWrite_answers {i : Fin 64} {reg : MonReg} {v : Word} : State.Answers [.mon] s (execMonCfgWrite i reg v s) :=
  occurs_answers State.setMon_keeps

theorem State.monSample_keeps {i : Fin 64} {v : Nat} : State.Keeps [.mon] s (s.monSample i v) :=
  State.ite_keeps (.refl ..) (State.ite_keeps (State.ite_keeps State.setMon_keeps
    (.after State.tick_keeps (.after State.logEvt_keeps State.setMon_keeps))) State.setMon_keeps)

theorem execMonitorSample_answers {src i v : Nat} : State.Answers [.mon] s (execMonitorSample src i v s) :=
  occurs_answers (State.foldl_keeps fun _ _ => State.ite_keeps State.monSample_keeps (.refl ..))

theorem State.setMonCrown_keeps {a : Monitor} {b : Crown} : State.Keeps [.mon, .crown] s { s with mon := a, crown := b } :=
  ⟨fun p hp => by cases p <;> simp_all [Part.same], rfl, rfl, .refl _, id⟩

theorem execMonSnapshot_answers {f : Fin 64} : State.Answers recordParts s (execMonSnapshot f s) :=
  cmdRow_answers fun _ _ _ => .after State.reply_keeps (.within State.setMonCrown_keeps)

theorem State.snapWrite_keeps {q : SnapReq} : State.Keeps [.hostOut, .mon] s (s.snapWrite q) :=
  State.foldl_keeps fun _ _ => .after State.toHost_keeps (.within State.setMon_keeps)

theorem State.snapClear_keeps {q : SnapReq} : State.Keeps [.mon] s (s.snapClear q) := State.setMon_keeps

theorem execSnapshotFreeze_answers : State.Answers [.crown, .mbx, .hostOut, .mon] s (execSnapshotFreeze s) := by
  refine occurs_answers ?_
  split
  · exact .refl ..
  · exact .after State.complete_keeps (.after State.snapClear_keeps (.after State.snapWrite_keeps (.within State.setCrown_keeps)))

/-- What a quarantine pass touches. -/
def quarParts : List Part := [.boot, .stations, .crown, .mon]

theorem State.hold_keeps {st : Fin 16} {g : Fin 2} : State.Keeps quarParts s (s.hold st g) :=
  .after State.unitEvent_keeps (.after State.setBoot_keeps (.within (State.updStn_keeps fun _ h => h)))

theorem State.judge_keeps {st : Fin 16} {e : Nat} : State.Keeps quarParts s (s.judge st e) := by
  have quarantined : State.Keeps quarParts s (s.quarantine st e) := .within State.quarantine_keeps
  unfold State.judge
  refine State.ite_keeps (.refl ..) ?_
  split
  · dsimp only
    split
    · exact State.ite_keeps (.refl ..) (State.ite_keeps State.hold_keeps quarantined)
    · exact State.ite_keeps quarantined (.refl ..)
  · exact State.ite_keeps quarantined (.refl ..)

theorem State.withdraw_keeps {st : Fin 16} : State.Keeps [.crown, .mon] s (s.withdraw st) :=
  State.ite_keeps (.after State.unitEvent_keeps (.within State.setCrown_keeps)) (.refl ..)

theorem State.passStn_keeps {st : Fin 16} : State.Keeps quarParts s (s.passStn st) :=
  .after (State.updStn_keeps fun _ h => h) (.after State.withdraw_keeps (State.foldl_keeps fun _ _ => State.judge_keeps))

theorem execQuarantinePass_answers : State.Answers quarParts s (execQuarantinePass s) :=
  occurs_answers (State.foldl_keeps fun _ _ => State.passStn_keeps)

/-! ## Registers -/

theorem execChkcntClr_answers {st : Fin 16} {e : Fin 12} : State.Answers [.stations, .mon] s (execChkcntClr st e s) :=
  occurs_answers (.after State.unmark_keeps (.within (State.updStn_keeps fun _ h => h)))

theorem execPanEccClr_answers {st : Fin 16} : State.Answers [.stations, .mon] s (execPanEccClr st s) :=
  occurs_answers (.after State.unmark_keeps (.within (State.updStn_keeps fun _ h => h)))

theorem execMemErrcntClr_answers {site : Fin 8} : State.Answers memoryParts s (execMemErrcntClr site s) :=
  occurs_answers (.after State.unmark_keeps (.within State.updStack_keeps))

theorem execFabLinkcntClr_answers {p : Fin 14} : State.Answers portParts s (execFabLinkcntClr p s) :=
  occurs_answers (.after State.unmark_keeps (.within State.updPort_keeps))

theorem execFabFrmcntClr_answers {p : Fin 14} : State.Answers portParts s (execFabFrmcntClr p s) :=
  occurs_answers (.after State.unmark_keeps (.within State.updPort_keeps))

theorem Station.setWin_wf {k : Fin 4} {v : Nat} (h : x.Wf) : (x.setWin k v).Wf := by
  unfold Station.setWin
  split <;> exact h

theorem State.setBypass_keeps {st : Fin 16} {g : Fin 2} {v : Nat} : State.Keeps [.stations, .boot] s (s.setBypass st g v) :=
  .after State.setBoot_keeps (.within (State.updStn_keeps fun _ h => h))

theorem State.writeCfg_keeps {reg : RegTarget} {v : Nat} : State.Keeps [.bars, .cfg] s (s.writeCfg reg v) := by
  have cfg {c : CfgSpace} : State.Keeps [.bars, .cfg] s { s with cfg := c } := .within State.setCfg_keeps
  have bars {b : Bars} : State.Keeps [.bars, .cfg] s { s with bars := b } := .within State.setBars_keeps
  unfold State.writeCfg
  split
  · exact cfg
  · exact State.ite_keeps (.refl ..) (State.ite_keeps bars bars)
  · exact cfg
  · exact State.ite_keeps cfg (.refl ..)
  · exact State.ite_keeps cfg (.refl ..)
  · exact .refl ..

theorem State.setMarginReg_keeps {site : Fin 8} {v : Nat} : State.Keeps [.mem] s (s.setMarginReg site v) :=
  State.ite_keeps (.after State.updStack_keeps State.setMargin_keeps) State.setMargin_keeps

theorem State.setMsix_keeps {f : Fin 64} {vec : Fin 32} {k : Fin 4} {v : Word} :
    State.Keeps [.mbx, .hostOut] s (s.setMsix f vec k v) :=
  State.ite_keeps (.after State.msi_keeps (.after State.updMbx_keeps (.within State.updMbx_keeps))) (.within State.updMbx_keeps)

/-- What the writes of the registers without a row of their own touch. -/
def registerParts : List Part := [.power, .boot, .stations, .mem, .crown, .mbx, .bars, .cfg, .hostOut, .band, .mortar, .fab]

theorem State.writeReg_keeps {reg : RegTarget} {v : Word} : State.Keeps registerParts s (s.writeReg reg v) := by
  unfold State.writeReg
  cases reg with
  | grdBypass => exact .within State.setBypass_keeps
  | fnlKpmBaseLo | fnlKpmBaseHi => exact .within State.setKpmBase_keeps
  | panRegion => exact .within (State.updStn_keeps fun _ h => h)
  | panWin => exact .within (State.updStn_keeps fun _ h => Station.setWin_wf h)
  | memRgnA | memRgnB => exact State.ite_keeps (.refl ..) (.within (State.setMem_keeps id))
  | memMargin => exact State.ite_keeps (.within State.setMarginReg_keeps) (.refl ..)
  | mbxBase => exact .within State.updMbx_keeps
  | msixTable => exact .within State.setMsix_keeps
  | bndStatus | bndRes | bndAstat => exact .within State.bndWrite_keeps
  | mrtStatus | mrtSubmit => exact .within State.updMortar_keeps
  | clkStatus | pwrCap => exact .within State.setPower_keeps
  | fabEth | fabEthPcp => exact State.ite_keeps (.within State.updPort_keeps) (.refl ..)
  | cfgVfEnable | cfgBar2 | cfgPower | cfgMps | cfgMrrs => exact .within State.writeCfg_keeps
  | readOnly => exact .refl ..

theorem execRegisterWrite_answers {reg : RegTarget} {v : Word} : State.Answers registerParts s (execRegisterWrite reg v s) :=
  occurs_answers State.writeReg_keeps

/-! ## Every command -/

/-- An access to a unit outside every region, and it alone, stops the block (R201). -/
theorem execMemUnitAccess_answers (ma : Nat) (acc : UnitAccess) :
    State.Answers memoryParts s (execMemUnitAccess ma acc s) ∨
      (s.place ma = none ∧ execMemUnitAccess ma acc s = .fault .noSuchModuleAddress) := by
  unfold execMemUnitAccess
  split
  · split
    · exact .inl (next_answers State.unitAccess_keeps)
    · next h => exact .inr ⟨by simpa using h, rfl⟩
  · exact .inl (next_answers (.refl ..))

/-- Every command but an access to a unit answers a next state, to which only its own parts change. -/
theorem exec_answers (c : Instr) (hc : ∀ ma acc, c ≠ .memUnitAccess ma acc) : State.Answers c.parts s (exec c s) := by
  cases c with
  | memUnitAccess ma acc => exact absurd rfl (hc ma acc)
  -- The sequencer.
  | nop => exact execNop_answers
  | endCode => exact execEndCode_answers
  | cset => exact execCset_answers
  | cmpset => exact execCmpset_answers
  | cload => exact execCload_answers
  | cloadWordArrival => exact execCloadWordArrival_answers
  | cstore => exact execCstore_answers
  | loop => exact execLoop_answers
  | dispatch => exact execDispatch_answers
  | engineIssue => exact execEngineIssue_answers
  | instructionSignal => exact execInstructionSignal_answers
  | remoteSignal => exact execRemoteSignal_answers
  | staleAnswer => exact execStaleAnswer_answers
  | stationPartComplete => exact execStationPartComplete_answers
  -- The starts of operations.
  | mload => exact opRow_answers fun _ _ _ => planMload_wf
  | esync => exact execEsync_answers
  | ahdr => exact opRead_answers fun _ _ _ => planAhdr_wf
  | gload => exact opRead_answers fun _ _ _ => planGload_wf
  | gmac => exact opRead_answers fun _ _ _ => planGmac_wf
  | gkeydot => exact opRead_answers fun _ _ _ => planGkeydot_wf
  | wntt => exact opRead_answers fun _ _ _ => planWntt_wf
  | sadd | ssub | sneg | saddc | snegm | smul | smulc | smac | srescale | smodsw | ssum =>
    exact opRead_answers fun _ _ _ => planSkillet_wf
  | sload => exact opRead_answers fun _ _ _ => planSload_wf
  | krefresh => exact opRead_answers fun _ _ _ => planKrefresh_wf
  | cxpose => exact opRead_answers fun _ _ _ => planCxpose_wf
  | cauto => exact opRead_answers fun _ _ _ => planCauto_wf
  | cperm => exact opRead_answers fun _ _ _ => planCperm_wf
  | bextract => exact opRead_answers fun _ _ _ => planBextract_wf
  | bpack => exact opRead_answers fun _ _ _ => planBpack_wf
  | xfer => exact seRow_answers fun _ _ _ => planXfer_wf
  | xgather => exact seRow_answers fun _ _ _ => planXgather_wf
  -- The engines.
  | griddlePass => exact execGriddlePass_answers
  | gkeydotBlock => exact execGkeydotBlock_answers
  | whiskStage => exact execWhiskStage_answers
  | kettleRotationStart => exact execKettleRotationStart_answers
  | kettleElementStep => exact execKettleElementStep_answers
  | keySwitchRound => exact execKeySwitchRound_answers
  | bextractPass => exact execBextractPass_answers
  -- The stream engines.
  | descriptorFetch => exact execDescriptorFetch_answers
  | descriptorStart => exact execDescriptorStart_answers
  | chunkIssue => exact execChunkIssue_answers
  | chunkLand => exact execChunkLand_answers
  | xferSignal => exact execXferSignal_answers
  | hostDmaChunk => exact execHostDmaChunk_answers
  | remotePantryAccess => exact execRemotePantryAccess_answers
  | sieveRead => exact execSieveRead_answers
  -- The Funnels.
  | fstream => exact execFstream_answers
  | fclose => exact execFclose_answers
  | streamOpen => exact execStreamOpen_answers
  | precheckDone => exact execPrecheckDone_answers
  | mapCacheFill => exact execMapCacheFill_answers
  | pageArrival => exact execPageArrival_answers
  | keyRowLaunch => exact execKeyRowLaunch_answers
  -- Memories.
  | windowZeroingDone => exact execWindowZeroingDone_answers
  | memCrcReread => exact execMemCrcReread_answers
  | bar2Access => exact execBar2Access_answers
  | stackTemperatureReading => exact execStackTemperatureReading_answers
  | memZeroingDone => exact execMemZeroingDone_answers
  | marginPointTest => exact execMarginPointTest_answers
  | memMargin => exact execMemMargin_answers
  -- Jobs.
  | jobSubmit => exact execJobSubmit_answers
  | jobAdmission => exact execJobAdmission_answers
  | commitPoint => exact execCommitPoint_answers
  | jobTimeLimit => exact execJobTimeLimit_answers
  | jobAbortCleanup => exact execJobAbortCleanup_answers
  | jobAbort => exact execJobAbort_answers
  | jobQuery => exact execJobQuery_answers
  -- Mailbox pages.
  | mbxCtrlWrite => exact execMbxCtrlWrite_answers
  | doorbell => exact execDoorbell_answers
  | mbxCqHeadWrite => exact execMbxCqHeadWrite_answers
  | requestEntryFetch => exact execRequestEntryFetch_answers
  | completionEntryWrite => exact execCompletionEntryWrite_answers
  | vector0Timer => exact execVector0Timer_answers
  | bar0BadAccess f off b => exact execBar0BadAccess_answers (off := off)
  | mbxChkcntClr => exact execMbxChkcntClr_answers
  -- Commands of the mailboxes.
  | deviceInfo => exact execDeviceInfo_answers
  | sessionQuery => exact execSessionQuery_answers
  | funcConfig => exact execFuncConfig_answers
  | powerCap => exact execPowerCap_answers
  | monSnapshot => exact execMonSnapshot_answers
  | sessionOpen => exact execSessionOpen_answers
  | sessionClose => exact execSessionClose_answers
  | sessionModlist => exact execSessionModlist_answers
  | keysetRegister => exact execKeysetRegister_answers
  | keysetVerify => exact execKeysetVerify_answers
  | keysetActivate => exact execKeysetActivate_answers
  | keysetRetire => exact execKeysetRetire_answers
  | bufAlloc => exact execBufAlloc_answers
  | bufFree => exact execBufFree_answers
  | bufCommit => exact execBufCommit_answers
  | bufQuery => exact execBufQuery_answers
  | bufMap => exact execBufMap_answers
  | bufUnmap => exact execBufUnmap_answers
  | bufDma => exact execBufDma_answers
  | fabExport => exact execFabExport_answers
  | fabUnexport => exact execFabUnexport_answers
  | fabConfig => exact execFabConfig_answers
  | fabStatus => exact execFabStatus_answers
  | attest => exact execAttest_answers
  -- Ports and frames.
  | portTrain => exact execPortTrain_answers
  | capExchange => exact execCapExchange_answers
  | mismatchRetry => exact execMismatchRetry_answers
  | flitReceive => exact execFlitReceive_answers
  | pfcFrame => exact execPfcFrame_answers
  | flitReplayTimeout => exact execFlitReplayTimeout_answers
  | portSignalLoss => exact execPortSignalLoss_answers
  | dataFrame => exact execDataFrame_answers
  | creditFrame => exact execCreditFrame_answers
  | ackFrame => exact execAckFrame_answers
  | staleFrame => exact execStaleFrame_answers
  | readFrame => exact execReadFrame_answers
  | rdataFrame => exact execRdataFrame_answers
  | holdFrame => exact execHoldFrame_answers
  | frameRelay => exact execFrameRelay_answers
  | capFrame => exact execCapFrame_answers
  | reservedFtypeFrame => exact execReservedFtypeFrame_answers
  | endToEndRetransmit => exact execEndToEndRetransmit_answers
  | holdTimer => exact execHoldTimer_answers
  | frameHoldLimit => exact execFrameHoldLimit_answers
  | ethernetCapBroadcast => exact execEthernetCapBroadcast_answers
  | sendDataFrame => exact execSendDataFrame_answers
  -- Band and Mortar.
  | bndCtrlWrite => exact execBndCtrlWrite_answers
  | bndInit | bndFeed8 | bndFeed16 | bndFeed32 | bndRunWrite | bndAnextWrite | bndAchk | bndAstatClr => exact bndRow_answers
  | bndResultRead => exact execBndResultRead_answers
  | mrtSubmit => exact execMrtSubmit_answers
  | mrtSlotWrite => exact execMrtSlotWrite_answers
  | mrtMemWrite => exact execMrtMemWrite_answers
  | mortarJobStart => exact execMortarJobStart_answers
  | mortarCheckPhaseEnd => exact execMortarCheckPhaseEnd_answers
  | mortarYieldPoint => exact execMortarYieldPoint_answers
  | mrtCancel => exact execMrtCancel_answers
  | mrtResultRead => exact execMrtResultRead_answers
  | mortarJobEnd => exact execMortarJobEnd_answers
  | mortarProgramLoad => exact execMortarProgramLoad_answers
  -- The boot, firmware and resets.
  | coldBoot => exact execColdBoot_answers
  | watchdogExpiry => exact execWatchdogExpiry_answers
  | imageConfirm => exact execImageConfirm_answers
  | configBlockWrite => exact execConfigBlockWrite_answers
  | fwStage => exact execFwStage_answers
  | flashWriteDone => exact execFlashWriteDone_answers
  | fwActivate => exact execFwActivate_answers
  | firmwareActivation => exact execFirmwareActivation_answers
  | drainTimeout => exact execDrainTimeout_answers
  | pldmFirmwareUpdate => exact execPldmFirmwareUpdate_answers
  | resetWarm => exact execResetWarm_answers
  | hotReset => exact execHotReset_answers
  | functionLevelReset => exact execFunctionLevelReset_answers
  | stationReset => exact execStationReset_answers
  | resetCold => exact execResetCold_answers
  | perstNAssert => exact execPerstNAssert_answers
  | p1PowerUp => exact execP1PowerUp_answers
  | undervoltageLockout => exact execUndervoltageLockout_answers
  | thermtrip => exact execThermtrip_answers
  | refclk100Present => exact execRefclk100Present_answers
  -- Power, monitors and registers.
  | referenceLoss => exact execReferenceLoss_answers
  | powerCapSample => exact execPowerCapSample_answers
  | smbusAlertResponse => exact execSmbusAlertResponse_answers
  | dieTemperatureReading => exact execDieTemperatureReading_answers
  | tapInstruction => exact execTapInstruction_answers
  | monitorSample => exact execMonitorSample_answers
  | monCfgWrite => exact execMonCfgWrite_answers
  | snapshotFreeze => exact execSnapshotFreeze_answers
  | errorLogWrite => exact execErrorLogWrite_answers
  | quarantinePass => exact execQuarantinePass_answers
  | chkcntClr => exact execChkcntClr_answers
  | panEccClr => exact execPanEccClr_answers
  | memErrcntClr => exact execMemErrcntClr_answers
  | fabLinkcntClr => exact execFabLinkcntClr_answers
  | fabFrmcntClr => exact execFabFrmcntClr_answers
  | registerWrite => exact execRegisterWrite_answers

end

/-- Settles O56: every command keeps what its row keeps, and the access to a unit alone may stop. -/
theorem everyCommandKeeps : Obligations.EveryCommandKeeps := by
  intro c s
  have kept (h : State.Answers c.parts s (exec c s)) : ∃ t : State, exec c s = .next t ∧ t.pending = s.pending ∧ t.grade = s.grade ∧
      t.fuses.vkhash = s.fuses.vkhash ∧ t.fuses.idseed = s.fuses.idseed ∧ t.fuses.serial = s.fuses.serial ∧
      (∀ i, bitAt s.fuses.svnA.toNat i = true → bitAt t.fuses.svnA.toNat i = true) ∧
      (∀ i, bitAt s.fuses.svnB.toNat i = true → bitAt t.fuses.svnB.toNat i = true) ∧ ∀ p : Part, p ∉ c.parts → p.same s t := by
    obtain ⟨t, ht, hk⟩ := h
    exact ⟨t, ht, hk.pending, hk.grade, hk.fuses.vkhash, hk.fuses.idseed, hk.fuses.serial, hk.fuses.svnA, hk.fuses.svnB, hk.same⟩
  by_cases hc : ∃ ma acc, c = .memUnitAccess ma acc
  · obtain ⟨ma, acc, rfl⟩ := hc
    rcases execMemUnitAccess_answers (s := s) ma acc with h | ⟨hp, hf⟩
    · exact .inl (kept h)
    · exact .inr ⟨ma, acc, rfl, hp, hf⟩
  · exact .inl (kept (exec_answers c fun ma acc h => hc ⟨ma, acc, h⟩))

end Sys2Proof.Machine
end

section
/-! Starting the engines' operations (Tables 4.5, 5.4, 6.8, 7.4 and 8.3): an operation whose reads find no error starts what its plan
answers, so a statement about a start is one about a plan whose checks pass. -/

namespace Sys2Proof.Machine

/-- A row whose reads find no error starts what its plan answers. -/
theorem opRead_plan {s : State} {st : Fin 16} {q : Fin 22} {op i : Nat} {e : QEntry} {plan : State → Station → QEntry → Plan}
    {p : Plan} (h : s.Issued st q op i e) (hp : plan s s.stations[st] e = p) :
    opRead st q op .clean plan s = .next (s.startOp st q i p) :=
  hp ▸ opRead_clean h

/-- An issued entry has the opcode that it issued with. -/
theorem State.Issued.opOf_eq {s : State} {st : Fin 16} {q : Fin 22} {op i : Nat} {e : QEntry} (h : s.Issued st q op i e) :
    opOf e.iw = op := by
  obtain ⟨_, _, h⟩ := h
  have hp := (Option.filter_eq_some_iff.mp h).2
  rw [Bool.and_eq_true, beq_iff_eq, beq_iff_eq] at hp
  exact hp.2

/-! ## Griddles -/

/-- Columns that fit the Griddle make one tile (log entry 44). -/
theorem Gmac.tiles_fit {p : Gmac} {w : Nat} (h0 : 0 < p.cols) (h : p.cols ≤ w) : p.tiles w = 1 := by
  rw [Gmac.tiles, if_neg (by omega), ceilDiv]
  exact Nat.div_eq_of_lt_le (by omega) (by omega)

/-- Settles O8: both plans keep their passes, and columns that fit need one tile. -/
theorem griddleOperationsStart : Obligations.GriddleOperationsStart := by
  intro st g s i e t h
  refine ⟨fun hi hc => ⟨opRead_plan hi ?_, Gmac.tiles_fit (Nat.succ_pos _)⟩, fun hi hc => opRead_plan hi ?_⟩
  · rw [planGmac, hc]; rfl
  · rw [planGkeydot, hc]

/-! ## Skillets -/

/-- Every element-wise operation is the row of its opcode on its Skillet. -/
theorem exec_skilletOps : ∀ x ∈ skilletOps, ∀ (st : Fin 16) (v : Fin 2) (s : State),
    exec (x.2 st v .clean) s = opRead st (qSkillet v) x.1 .clean (planSkillet v) s := by
  simp only [skilletOps, List.forall_mem_cons]
  exact ⟨fun _ _ _ => rfl, fun _ _ _ => rfl, fun _ _ _ => rfl, fun _ _ _ => rfl, fun _ _ _ => rfl, fun _ _ _ => rfl,
    fun _ _ _ => rfl, fun _ _ _ => rfl, fun _ _ _ => rfl, fun _ _ _ => rfl, fun _ _ _ => rfl, List.forall_mem_nil _⟩

/-- Settles O10: the eleven operations are one row with eleven opcodes. -/
theorem skilletOperationsWrite : Obligations.SkilletOperationsWrite := by
  intro x hx st v s i e ws hi t p ks d out hc hw
  rw [exec_skilletOps x hx, ← hi.opOf_eq]
  refine opRead_plan (hi.opOf_eq ▸ hi) ?_
  rw [planSkillet]
  dsimp only
  rw [hc]
  dsimp only
  rw [hw]
  rfl

/-! ## The Card -/

/-- Rows of words below their moduli pass the check that every word is canonical (R49). -/
theorem all_words_below {n : Nat} {q : Nat → Nat} {row : Nat → List Nat} (h : ∀ r < n, ∀ w ∈ row r, w < q r) :
    (((List.range n).map fun r => (q r, row r)).all fun x => x.2.all fun w => decide (w < x.1)) = true := by
  simpa using h

/-- Settles O12: the payloads that the plans keep are those of the statement, row by row. -/
theorem cardOperationsWrite : Obligations.CardOperationsWrite := by
  intro st s i e t h src dst
  refine ⟨fun hi hc => opRead_plan hi ?_, fun hi hc => ?_, fun hi hc => ?_⟩
  · rw [planCxpose, hc]
  · intro q limb hw
    refine opRead_plan hi ?_
    rw [planCauto, hc]
    refine (if_pos (all_words_below hw)).trans ?_
    simp only [List.map_map, List.flatMap_map]
    rfl
  · intro q row hw
    refine opRead_plan hi ?_
    rw [planCperm, hc]
    refine (if_pos (all_words_below hw)).trans ?_
    rw [List.flatMap_map]

/-! ## Kettles and the Blocker -/

/-- Words below the modulus of their limb pass the check of a zip of moduli and limbs, however many limbs there are. -/
theorem zipWith_mods_below {t : Station} {first m n : Nat} {word : Nat → List Nat}
    (h : ∀ l < n, ∀ w ∈ word l, w < (t.modAt (first + l)).q) :
    (List.zipWith (fun (x : ModEntry) ws => ws.all fun w => decide (w < x.q)) (t.modsFrom first m)
      ((List.range n).map word)).all id = true := by
  rw [List.all_eq_true]
  intro b hb
  obtain ⟨l, hl, rfl⟩ := List.getElem_of_mem hb
  simp only [Station.modsFrom, List.length_zipWith, List.length_map, List.length_range, Nat.lt_min] at hl
  simpa [Station.modsFrom] using h l hl.2

/-- What a KREFRESH whose words are canonical does at issue: it changes its Kettle and no other part of the station (R102). -/
theorem planKrefresh_go {k : Fin 8} {s : State} {t : Station} {e : QEntry} (hc : krefFault (s.stnKeySet t) (s.stnTag t) t e = none) :
    let p := t.krefOf e.iw
    let h := Hdr.ofBytes (t.rd e.ea0.toNat 64)
    (∀ x < p.b, ∀ l < h.limbs, ∀ w ∈ t.lweWords h e.ea0.toNat (p.elem0 + x) l, w < (t.modAt (p.mod + l)).q) →
    tableOk h.psid p.f (t.modsFrom p.mod (digitLimbs h.psid)) ((List.range p.f).map fun j => t.row (e.eaX.toNat + 512 * j)) = true →
    ∃ f : Kettle → Kettle,
      planKrefresh k s t e = .go (t.updKettle k f) { e with
        left := p.b * lweN h.psid + p.f * h.n
        hdrs := [⟨e.ea1.toNat, (p.outHdr (((s.stnKeySet t).map KeySet.eFresh).getD 0) h).bytes, p.merge⟩]
        rows := p.b } ∧
      ∀ kt, (f kt).phase = .initialise ∧ (f kt).batch = p.b ∧ (f kt).funcs = p.f ∧ (f kt).accs.length = p.b := by
  intro p h hw htab
  have hwords : (((List.range p.b).map fun x => (List.range h.limbs).map fun l => t.lweWords h e.ea0.toNat (p.elem0 + x) l).all
      fun x => (List.zipWith (fun (m : ModEntry) l => l.all fun w => decide (w < m.q)) (t.modsFrom p.mod (digitLimbs h.psid)) x).all
        id) = true := by
    rw [List.all_map, List.all_eq_true]
    exact fun x hx => zipWith_mods_below (hw x (List.mem_range.mp hx))
  rw [planKrefresh, hc]
  exact ⟨_, if_pos (Bool.and_eq_true_iff.mpr ⟨hwords, htab⟩), fun kt => ⟨rfl, rfl, rfl, by simp [p]⟩⟩

/-- Settles O13: a KREFRESH changes its Kettle alone, and the conversions the Blocker alone. -/
theorem refreshAndConversionStart : Obligations.RefreshAndConversionStart := by
  intro st s i e t ks h
  refine ⟨fun k hi hc => ?_, fun hi hc => opRead_plan hi ?_, fun hi hc => opRead_plan hi ?_⟩
  · intro p ms hw htab
    obtain ⟨f, hp, hf⟩ := planKrefresh_go (k := k) hc hw htab
    obtain ⟨hphase, hbatch, hfuncs, haccs⟩ := hf t.kettles[k]
    have hk : (t.updKettle k f).kettles[k] = f t.kettles[k] := vupd_same ..
    refine ⟨_, _, opRead_plan hi hp, ?_⟩
    rw [hk]
    exact ⟨hphase, hbatch, hfuncs, haccs, rfl, fun _ hk' => vupd_ne f hk', rfl⟩
  · rw [planBextract, hc]; rfl
  · rw [planBpack, hc]; rfl

end Sys2Proof.Machine
end

section
/-! Transforms stage by stage (R62, R89): a stage below the first works on the two halves of a block apart, so the stages of a block come
to its transform by induction on its size. -/

namespace Sys2Proof.Machine

/-- Stages that work on the two halves of a list apart can run on each half to the end. -/
theorem foldl_append_apart {α : Type} {n : Nat} {f g h : Nat → List α → List α} {a b : List α} (ds : List Nat)
    (hf : ∀ d a b, a.length = n → f d (a ++ b) = g d a ++ h d b) (hg : ∀ d a, a.length = n → (g d a).length = n)
    (ha : a.length = n) :
    ds.foldl (fun x d => f d x) (a ++ b) = ds.foldl (fun x d => g d x) a ++ ds.foldl (fun x d => h d x) b := by
  induction ds generalizing a b with
  | nil => rfl
  | cons d ds ih => simp only [List.foldl_cons, hf d a b ha, ih (hg d a ha)]

/-- A stage keeps the number of words. -/
theorem fwdLevel_length {q psi logn : Nat} (k d node : Nat) (a : List Nat) (h : a.length = 2 ^ k) :
    (fwdLevel q psi logn d k node a).length = 2 ^ k := by
  induction k generalizing d node a with
  | zero => rwa [fwdLevel]
  | succ k ih =>
    rw [Nat.pow_succ] at h ⊢
    cases d with
    | zero => simp only [fwdLevel, List.length_append, List.length_zipWith, List.length_take, List.length_map, List.length_drop]; omega
    | succ d =>
      rw [fwdLevel, List.length_append, ih _ _ _ (by rw [List.length_take]; omega), ih _ _ _ (by rw [List.length_drop]; omega)]
      omega

theorem invLevel_length {q psi logn : Nat} (k d node : Nat) (a : List Nat) (h : a.length = 2 ^ k) :
    (invLevel q psi logn d k node a).length = 2 ^ k := by
  induction k generalizing d node a with
  | zero => rwa [invLevel]
  | succ k ih =>
    rw [Nat.pow_succ] at h ⊢
    cases d with
    | zero => simp only [invLevel, List.length_append, List.length_zipWith, List.length_take, List.length_drop]; omega
    | succ d =>
      rw [invLevel, List.length_append, ih _ _ _ (by rw [List.length_take]; omega), ih _ _ _ (by rw [List.length_drop]; omega)]
      omega

theorem fwdLevel_append {q psi logn k node : Nat} (d : Nat) (a b : List Nat) (h : a.length = 2 ^ k) :
    fwdLevel q psi logn (d + 1) (k + 1) node (a ++ b) =
      fwdLevel q psi logn d k (2 * node) a ++ fwdLevel q psi logn d k (2 * node + 1) b := by
  rw [fwdLevel, List.take_left' h, List.drop_left' h]

theorem invLevel_append {q psi logn k node : Nat} (d : Nat) (a b : List Nat) (h : a.length = 2 ^ k) :
    invLevel q psi logn (d + 1) (k + 1) node (a ++ b) =
      invLevel q psi logn d k (2 * node) a ++ invLevel q psi logn d k (2 * node + 1) b := by
  rw [invLevel, List.take_left' h, List.drop_left' h]

/-- The stages below a block, from the outermost in, come to the block's forward transform. -/
theorem foldl_fwdLevel {q psi logn : Nat} (k node : Nat) (a : List Nat) (h : a.length = 2 ^ k) :
    (List.range k).foldl (fun x d => fwdLevel q psi logn d k node x) a = nttBlock q psi logn k node a := by
  induction k generalizing node a with
  | zero => rfl
  | succ k ih =>
    rw [Nat.pow_succ] at h
    rw [List.range_succ_eq_map, List.foldl_cons, List.foldl_map, fwdLevel,
      foldl_append_apart _ (fun d _ _ => fwdLevel_append d _ _) fun d _ => fwdLevel_length k d _ _, ih, ih, nttBlock]
    all_goals simp only [List.length_zipWith, List.length_take, List.length_map, List.length_drop]; omega

theorem inttBlock_length {q psi logn : Nat} (k node : Nat) (a : List Nat) (h : a.length = 2 ^ k) :
    (inttBlock q psi logn k node a).length = 2 ^ k := by
  induction k generalizing node a with
  | zero => exact h
  | succ k ih =>
    rw [Nat.pow_succ] at h ⊢
    simp only [inttBlock, List.length_append, List.length_zipWith, ih _ (a.take (2 ^ k)) (by rw [List.length_take]; omega),
      ih _ (a.drop (2 ^ k)) (by rw [List.length_drop]; omega)]
    omega

/-- The stages below a block, from the innermost out, come to the block's inverse transform without N^-1. -/
theorem foldl_invLevel {q psi logn : Nat} (k node : Nat) (a : List Nat) (h : a.length = 2 ^ k) :
    (List.range k).reverse.foldl (fun x d => invLevel q psi logn d k node x) a = inttBlock q psi logn k node a := by
  induction k generalizing node a with
  | zero => rfl
  | succ k ih =>
    rw [Nat.pow_succ] at h
    have hu : (a.take (2 ^ k)).length = 2 ^ k := by rw [List.length_take]; omega
    have hv : (a.drop (2 ^ k)).length = 2 ^ k := by rw [List.length_drop]; omega
    have hl := inttBlock_length (q := q) (psi := psi) (logn := logn) k (2 * node) _ hu
    have inner : (List.range k).reverse.foldl (fun x d => invLevel q psi logn (d + 1) (k + 1) node x) a =
        inttBlock q psi logn k (2 * node) (a.take (2 ^ k)) ++ inttBlock q psi logn k (2 * node + 1) (a.drop (2 ^ k)) := by
      conv => lhs; rw [← List.take_append_drop (2 ^ k) a]
      rw [foldl_append_apart _ (fun d _ _ => invLevel_append d _ _) (fun d _ => invLevel_length k d _ _) hu, ih _ _ hu, ih _ _ hv]
    rw [List.range_succ_eq_map, List.reverse_cons, List.foldl_append, ← List.map_reverse, List.foldl_map, inner, List.foldl_cons,
      List.foldl_nil, invLevel, List.take_left' hl, List.drop_left' hl, inttBlock]

theorem foldl_nttStage_fwd {m : ModEntry} {logn : Nat} {a : List Nat} (h : a.length = 2 ^ logn) :
    (List.range logn).foldl (fun x k => nttStage m false logn k x) a = fwdOf m logn a :=
  foldl_fwdLevel logn 1 a h

/-- The stage of an entry's inverse transform of a whole limb that stands `d` levels below it, without N^-1. -/
def invStage (m : ModEntry) (logn : Nat) (x : List Nat) (d : Nat) : List Nat :=
  invLevel m.q (invMod m.q (rootOf m logn)) logn d logn 1 x

theorem nttStage_inv_before {m : ModEntry} {n : Nat} (x : List Nat) (k : Nat) (h : k ∈ List.range n) :
    nttStage m true (n + 1) k x = invStage m (n + 1) x (n - k) := by
  have h := List.mem_range.mp h
  rw [nttStage, if_pos rfl, if_neg (by omega)]; rfl

theorem nttStage_inv_last {m : ModEntry} {n : Nat} (x : List Nat) :
    nttStage m true (n + 1) n x = (invStage m (n + 1) x (n - n)).map fun y => y * ninvOf m (n + 1) % m.q := by
  rw [nttStage, if_pos rfl, if_pos rfl]; rfl

/-- Counted from the innermost stage, the stages stand at falling levels. -/
theorem foldl_invStage {m : ModEntry} {n : Nat} {a : List Nat} (h : a.length = 2 ^ (n + 1)) :
    (List.range (n + 1)).foldl (fun x k => invStage m (n + 1) x (n - k)) a =
      inttBlock m.q (invMod m.q (rootOf m (n + 1))) (n + 1) (n + 1) 1 a := by
  have order : (List.range (n + 1)).map (n - ·) = (List.range (n + 1)).reverse := by
    rw [List.range_eq_range', List.reverse_range', ← List.range_eq_range']
    exact List.map_congr_left fun k _ => by omega
  rw [← foldl_invLevel (n + 1) 1 a h, ← order, List.foldl_map]; rfl

/-- The stages of an inverse transform, the last of which folds N^-1 in, come to the whole. -/
theorem foldl_nttStage_inv {m : ModEntry} {logn : Nat} {a : List Nat} (h0 : 0 < logn) (h : a.length = 2 ^ logn) :
    (List.range logn).foldl (fun x k => nttStage m true logn k x) a = invOf m logn a := by
  obtain ⟨n, rfl⟩ : ∃ n, logn = n + 1 := ⟨logn - 1, by omega⟩
  have whole := foldl_invStage (m := m) h
  have before : (List.range n).foldl (fun x k => nttStage m true (n + 1) k x) a =
      (List.range n).foldl (fun x k => invStage m (n + 1) x (n - k)) a :=
    List.foldl_rel (r := Eq) rfl fun k hk x y hxy => by rw [hxy, nttStage_inv_before y k hk]
  rw [List.range_succ, List.foldl_append] at whole ⊢
  rw [before, List.foldl_cons, List.foldl_nil, nttStage_inv_last]
  exact congrArg (List.map fun y => y * ninvOf m (n + 1) % m.q) whole

/-- Settles O9: the plan takes the limbs in, and the stages of a limb come to its whole transform. -/
theorem wnttTransforms : Obligations.WnttTransforms := by
  intro st g s i e hi t p h ins hc hw
  refine ⟨opRead_plan hi ?_, fun m logn a h0 ha => ⟨foldl_nttStage_fwd ha, foldl_nttStage_inv h0 ha⟩⟩
  have hall : (ins.all fun jl => jl.2.all fun x => decide (x < (t.modAt (p.mod + p.limb0 + jl.1)).q)) = true := by
    simpa only [List.all_eq_true, decide_eq_true_eq] using hw
  rw [planWntt, hc]
  exact if_pos hall

end Sys2Proof.Machine
end

section
/-! The commands on key sets (R36 to R38, R289, R290): what a commit of a record leaves to be read, what the release of retired key sets
takes and keeps, and what each command's run does to the records. -/

namespace Sys2Proof.Machine

/-! ## Records of key sets and sessions -/

@[simp] theorem KeySet.commit_body (k : KeySet) (b : KsBody) : (k.commit b).body = b := by
  unfold KeySet.commit KeySet.body; cases k.cv <;> rfl

@[simp] theorem KeySet.commit_state (k : KeySet) (b : KsBody) : (k.commit b).state = b.state := congrArg KsBody.state (k.commit_body b)

@[simp] theorem Session.commit_body (x : Session) (b : SesBody) : (x.commit b).body = { b with seq := x.body.seq + 1 } := by
  unfold Session.commit; cases h : x.cv <;> simp [Session.body, h]

@[simp] theorem State.updSession_keysets (s : State) (i : Nat) (g : Session → Session) :
    (s.updSession i g).crown.keysets = s.crown.keysets := rfl

theorem State.setKs_get? (s : State) (tag j : Nat) (st : KsState) :
    (s.setKs tag st).crown.keysets.get? j =
      if j = tag then (s.crown.keysets.get? j).map fun k => k.commit { k.body with state := st } else s.crown.keysets.get? j :=
  Tab.get?_upd s.crown.keysets tag j fun k => k.commit { k.body with state := st }

/-- Every record under the tag takes the state, however often the table lists the tag. -/
theorem State.setKs_mem_state {s : State} {tag : Nat} {st : KsState} {k : KeySet} (h : (tag, k) ∈ (s.setKs tag st).crown.keysets) :
    k.state = st := by
  obtain ⟨e, _, he⟩ := List.mem_map.mp h
  split at he
  · cases he; exact KeySet.commit_state ..
  · next hne => cases he; exact absurd rfl hne

/-- A committed change of a session's body is the body that is read. -/
theorem State.updSession_commit_body {s : State} {i : Nat} {g : SesBody → SesBody} {y : Session}
    (h : s.crown.sessions.get? i = some y) :
    ((s.updSession i fun x => x.commit (g x.body)).session i).body = { g y.body with seq := y.body.seq + 1 } := by
  rw [State.session_eq, State.updSession_get?, if_pos rfl, h]
  exact Session.commit_body ..

/-! ## The release of key sets (R38) -/

/-- What each change of a run keeps, the run keeps. -/
theorem foldl_same {α β : Type} {g : State → β} {f : State → α → State} (h : ∀ s x, g (f s x) = g s) (l : List α) (s : State) :
    g (l.foldl f s) = g s := by
  induction l generalizing s with
  | nil => rfl
  | cons x l ih => exact (ih _).trans (h s x)

/-- The map entries of an object go from the caches and from memory. -/
theorem State.invalidate_clearEntries_crown (s : State) (first n : Nat) :
    ((s.invalidate first n).clearEntries first n).crown = s.crown :=
  (State.clearEntries_keeps.same .crown (by decide)).trans (s.invalidate_crown first n)

theorem State.invalidate_queues (s : State) (first n : Nat) :
    (s.invalidate first n).stations.map Station.queues = s.stations.map Station.queues := by
  refine vext fun i => ?_
  simp [State.invalidate, State.mapStns]

theorem State.clearEntries_stations (s : State) (first n : Nat) : (s.clearEntries first n).stations = s.stations :=
  State.clearEntries_keeps.same .stations (by decide)

/-- What a release leaves: every queue, and Crown but for its key sets, of which the tag's are gone. -/
theorem State.releaseKeySet_crown (s : State) (tag : Nat) :
    ∃ ks, (s.releaseKeySet tag).crown = { s.crown with keysets := ks } ∧
      ∀ j, ks.get? j = if j = tag then none else s.crown.keysets.get? j := by
  unfold State.releaseKeySet
  cases h : s.crown.keysets.get? tag with
  | none => exact ⟨s.crown.keysets, rfl, fun j => by split <;> simp_all⟩
  | some k =>
    have hc := foldl_same (g := State.crown) (fun s (d : ObjDesc) => s.invalidate_clearEntries_crown d.first d.pages) k.dir s
    exact ⟨s.crown.keysets.del tag, by simp only [hc], fun j => Tab.get?_del ..⟩

theorem State.releaseKeySet_queues (s : State) (tag : Nat) :
    (s.releaseKeySet tag).stations.map Station.queues = s.stations.map Station.queues := by
  unfold State.releaseKeySet
  cases s.crown.keysets.get? tag with
  | none => rfl
  | some k =>
    refine foldl_same (g := fun s : State => s.stations.map Station.queues) (fun s (d : ObjDesc) => ?_) k.dir s
    rw [State.clearEntries_stations]
    exact s.invalidate_queues ..

theorem State.foldl_releaseKeySet_crown (l : List Nat) (s : State) :
    ∃ ks, (l.foldl State.releaseKeySet s).crown = { s.crown with keysets := ks } ∧
      ∀ j, ks.get? j = if j ∈ l then none else s.crown.keysets.get? j := by
  induction l generalizing s with
  | nil => exact ⟨s.crown.keysets, rfl, fun _ => rfl⟩
  | cons tag l ih =>
    obtain ⟨ks, hks, hget⟩ := ih (s.releaseKeySet tag)
    obtain ⟨ks', hks', hget'⟩ := s.releaseKeySet_crown tag
    refine ⟨ks, by rw [List.foldl_cons, hks, hks'], fun j => ?_⟩
    rw [hget, hks', hget']
    by_cases hj : j ∈ l <;> by_cases ht : j = tag <;> simp [hj, ht]

theorem State.releaseRetired_crown (s : State) :
    ∃ ks, s.releaseRetired.crown = { s.crown with keysets := ks } ∧
      ∀ j, ks.get? j = if j ∈ s.retiredUnused then none else s.crown.keysets.get? j :=
  State.foldl_releaseKeySet_crown ..

theorem State.releaseRetired_sessions (s : State) : s.releaseRetired.crown.sessions = s.crown.sessions := by
  obtain ⟨ks, h, _⟩ := s.releaseRetired_crown; rw [h]

theorem State.releaseRetired_jobs (s : State) : s.releaseRetired.crown.jobs = s.crown.jobs := by
  obtain ⟨ks, h, _⟩ := s.releaseRetired_crown; rw [h]

theorem State.releaseRetired_get? (s : State) (j : Nat) :
    s.releaseRetired.crown.keysets.get? j = if j ∈ s.retiredUnused then none else s.crown.keysets.get? j := by
  obtain ⟨ks, h, hget⟩ := s.releaseRetired_crown; rw [h]; exact hget j

theorem State.releaseRetired_queues (s : State) : s.releaseRetired.stations.map Station.queues = s.stations.map Station.queues :=
  foldl_same (g := fun s : State => s.stations.map Station.queues) State.releaseKeySet_queues s.retiredUnused s

/-- A release adds no key set and changes none. -/
theorem State.get?_of_releaseRetired {s : State} {j : Nat} {k : KeySet} (h : s.releaseRetired.crown.keysets.get? j = some k) :
    s.crown.keysets.get? j = some k := by
  rw [State.releaseRetired_get?] at h
  split at h
  · cases h
  · exact h

/-- A tag whose records are not retired stays. -/
theorem State.releaseRetired_get?_kept {s : State} {tag : Nat} (h : ∀ k, (tag, k) ∈ s.crown.keysets → k.state ≠ .retired) :
    s.releaseRetired.crown.keysets.get? tag = s.crown.keysets.get? tag := by
  rw [State.releaseRetired_get?, if_neg]
  intro hm
  obtain ⟨e, he, rfl⟩ := List.mem_map.mp hm
  have hr := (List.mem_filter.mp he).2
  rw [Bool.and_eq_true, beq_iff_eq] at hr
  exact h e.2 (List.mem_filter.mp he).1 hr.1

/-! ## Registration (R35, R289) -/

theorem allSome_map_some {α : Type} (l : List α) : allSome (l.map some) = some l := by
  induction l with
  | nil => rfl
  | cons x l ih => rw [List.map_cons, allSome, ih]; rfl

/-- Objects that could all be read, one for each entry of the block. -/
theorem allSome_getD {os : List (List Byte)} {n : Nat} (h : os.length = n) :
    allSome ((List.range n).map fun i => (os.map some).getD i none) = some os := by
  subst h
  have : ((List.range os.length).map fun i => (os.map some).getD i none) = os.map some :=
    List.ext_getElem (by simp) fun i _ h2 => by
      rw [List.getElem_map, List.getElem_range, List.getD_eq_getElem?_getD, List.getElem?_eq_getElem h2, Option.getD_some]
  rw [this, allSome_map_some]

/-- A block that is legal but for its tag, which is held. -/
theorem State.blockErr_held {s : State} {d : List Byte} (hok : blockOk d = true) (htag : tagOf (d.take 128) ≠ 0)
    (hlegal : (blockEntries d).all (entryLegal (d.take 128)) = true) (hdist : entriesDistinct (blockEntries d) = true)
    (hplace : (blockEntries d).all s.entryPlaced = true) (hheld : (s.crown.keysets.get? (tagOf (d.take 128))).isSome = true) :
    s.blockErr d = some Code.keyTagMismatch := by
  simp [State.blockErr, firstFault, hok, htag, hlegal, hdist, hplace, hheld]

theorem State.register_of_blockErr {s : State} {r : ReqRef} {i : Nat} {d : List Byte} {objs : List HostRead} {c : Byte}
    (h : s.blockErr d = some c) : s.register r i d objs = s.complete r c := by
  rw [State.register, h]

/-- A block that passes its checks, and whose objects find room and match, commits its key set (R36). -/
theorem State.register_commits {s s1 : State} {r : ReqRef} {i : Nat} {d : List Byte} {ps : List Placed} {os : List (List Byte)}
    (herr : s.blockErr d = none) (hplace : (s.placeMap.bind fun s => s.placeObjs (blockEntries d) []) = some (s1, ps))
    (hlen : os.length = (blockEntries d).length) (hmatch : objsMatch (blockEntries d) os = true)
    (hsha : sha256 (manifestBytes (blockEntries d)) = slice d 0x40 32) :
    (s.register r i d (os.map some)).crown.keysets.get? (tagOf (d.take 128)) = some (keySetOf i (d.take 128) ps) := by
  rw [State.register, herr]
  simp only [hplace, allSome_getD hlen, hmatch, hsha, bne_self_eq_false, Bool.not_true, Bool.or_false, Bool.false_eq_true, if_false,
    State.complete_crown, Tab.get?_put_same]

/-- Taking the entry and accepting it moves nothing that an entry's place depends on. -/
theorem State.reply_popReq_entryPlaced (s : State) (f : Fin 64) (r : ReqRef) (c : Byte) (p : List Byte) :
    ((s.popReq f).reply r c p).entryPlaced = s.entryPlaced := by
  rw [State.reply_eq]; split <;> rfl

/-! ## Activation and retirement (R37, R38) -/

/-- What KEYSET_ACTIVATE does to the records of a session's key sets, with the tag that it retires (0 for none). -/
def State.activateKs (s : State) (i tag old : Nat) : State :=
  (((if old = 0 then s else s.setKs old .retired).setKs tag .active).updSession i fun x =>
    x.commit { x.body with ktag := BitVec.ofNat 32 tag }).releaseRetired

theorem State.activateKs_session {s : State} {i tag old : Nat} {y : Session} (hy : s.crown.sessions.get? i = some y) :
    ((s.activateKs i tag old).session i).body.ktag = BitVec.ofNat 32 tag := by
  have hs : ((if old = 0 then s else s.setKs old .retired).setKs tag .active).crown.sessions.get? i = some y := by
    split <;> exact hy
  rw [State.activateKs, State.session_eq, State.releaseRetired_sessions, ← State.session_eq,
    State.updSession_commit_body (g := fun b => { b with ktag := BitVec.ofNat 32 tag }) hs]

theorem State.activateKs_active {s : State} {i tag old : Nat} {k : KeySet} (hk : s.crown.keysets.get? tag = some k) :
    ((s.activateKs i tag old).crown.keysets.get? tag).map (·.state) = some .active := by
  rw [State.activateKs, State.releaseRetired_get?_kept, State.updSession_keysets, State.setKs_get?, if_pos rfl]
  · split
    · simp [hk]
    · rw [State.setKs_get?, hk]; split <;> simp
  · intro k hm
    rw [State.setKs_mem_state (s := if old = 0 then s else s.setKs old .retired) hm]
    decide

theorem State.activateKs_old_retired {s : State} {i tag old : Nat} {k : KeySet} (h0 : old ≠ 0) (hne : old ≠ tag)
    (hk : (s.activateKs i tag old).crown.keysets.get? old = some k) : k.state = .retired := by
  have h := State.get?_of_releaseRetired hk
  rw [State.updSession_keysets, State.setKs_get?, if_neg hne, if_neg h0, State.setKs_get?, if_pos rfl] at h
  obtain ⟨k', _, rfl⟩ := Option.map_eq_some_iff.mp h
  exact KeySet.commit_state ..

/-- What KEYSET_RETIRE does before the release: the key set's state, and the session's tag where it named the key set. -/
def State.retireNamed (s : State) (i tag : Nat) : State :=
  if (s.session i).body.ktag.toNat = tag then (s.setKs tag .retired).updSession i fun x => x.commit { x.body with ktag := 0 }
  else s.setKs tag .retired

theorem State.retireNamed_keysets (s : State) (i tag : Nat) :
    (s.retireNamed i tag).crown.keysets = (s.setKs tag .retired).crown.keysets := by unfold State.retireNamed; split <;> rfl
theorem State.retireNamed_jobs (s : State) (i tag : Nat) : (s.retireNamed i tag).crown.jobs = s.crown.jobs := by
  unfold State.retireNamed; split <;> rfl
theorem State.retireNamed_stations (s : State) (i tag : Nat) : (s.retireNamed i tag).stations = s.stations := by
  unfold State.retireNamed; split <;> rfl

theorem State.retireNamed_session {s : State} {i tag : Nat} {y : Session} (hy : s.crown.sessions.get? i = some y) :
    ((s.retireNamed i tag).session i).body.ktag.toNat ≠ tag ∨ tag = 0 := by
  unfold State.retireNamed
  split
  · rw [State.updSession_commit_body (s := s.setKs tag .retired) (g := fun b => { b with ktag := 0 }) hy]
    exact (Decidable.em (tag = 0)).symm.imp_left Ne.symm
  · next h => exact .inl h

theorem State.retireNamed_retired {s : State} {i tag : Nat} {k : KeySet}
    (hk : (s.retireNamed i tag).releaseRetired.crown.keysets.get? tag = some k) : k.state = .retired := by
  have h := State.get?_of_releaseRetired hk
  rw [State.retireNamed_keysets, State.setKs_get?, if_pos rfl] at h
  obtain ⟨k', _, rfl⟩ := Option.map_eq_some_iff.mp h
  exact KeySet.commit_state ..

/-! ## The commands -/

theorem State.keySetNamed_some {s : State} {b : List Byte} {k : KeySet} (h : s.keySetNamed b = some k) :
    s.crown.keysets.get? (pay b 0 4) = some k := (Option.filter_eq_some_iff.mp h).1

theorem filter_length_some {d : List Byte} {n : Nat} (h : d.length = n) :
    ((some d : HostRead).filter fun d => d.length == n) = some d := by
  simp [Option.filter, h]

/-- A command on the function's own session that passes the shared checks. -/
theorem ownerRow_of {s : State} {f : Fin 64} {op : Nat} {fields : List (Nat × Nat)} {run : State → ReqRef → List Byte → State}
    {e : ReqEntry} (ht : s.Takes f op fields e) (ho : s.Owns f e) :
    cmdRow f op fields false true run s = .next ((run (s.popReq f) (e.ref f) e.bytes).settle f) :=
  cmdRow_of ht nofun fun _ => ho

theorem execKeysetRegister_processed {s : State} {f : Fin 64} {e : ReqEntry} {d : List Byte} {objs : List HostRead}
    (ht : s.Takes f 0x20 [(0, 8), (8, 4)] e) (ho : s.Owns f e) (hd : d.length = pay e.bytes 8 4) :
    execKeysetRegister f (some d) objs s = .next
      ((((s.popReq f).reply (e.ref f) Code.accepted).register (e.ref f) (reqSession e.bytes) d objs).settle f) := by
  rw [execKeysetRegister, ownerRow_of ht ho]
  dsimp only
  rw [filter_length_some hd]

theorem execKeysetVerify_asks {s : State} {f : Fin 64} {e : ReqEntry} {d : List Byte} {k : KeySet}
    {sl : Byte × List (List Byte × Nat) × Nat × Nat} (ht : s.Takes f 0x21 [(0, 4), (8, 8), (0x10, 2)] e) (ho : s.Owns f e)
    (hk : s.keySetNamed e.bytes = some k) (hd : d.length = pay e.bytes 0x10 2) (hsha : sha256 (bundleKey d) = slice k.record 0x10 32)
    (hsl : bundleSlots d k.record = some sl) :
    execKeysetVerify f (some d) s = .next ((((s.popReq f).reply (e.ref f) Code.accepted).askVerify
      (some (e.ref f, BitVec.ofNat 32 (pay e.bytes 0 4))) 0 sl 128).1.settle f) := by
  rw [execKeysetVerify, ownerRow_of ht ho]
  dsimp only
  rw [show (s.popReq f).keySetNamed e.bytes = some k from hk]
  dsimp only
  rw [filter_length_some hd]
  dsimp only
  rw [if_pos hsha, hsl]

theorem execKeysetActivate_activates {s : State} {f : Fin 64} {e : ReqEntry} {k : KeySet} (ht : s.Takes f 0x22 [(0, 4)] e)
    (ho : s.Owns f e) (hk : s.keySetNamed e.bytes = some k)
    (hcan : canActivate k (s.session (reqSession e.bytes)).body.policy = true) :
    let i := reqSession e.bytes
    let tag := pay e.bytes 0 4
    let old := if (s.session i).body.ktag.toNat = tag then 0 else (s.session i).body.ktag.toNat
    execKeysetActivate f s = .next ((((s.popReq f).activateKs i tag old).reply (e.ref f) Code.ok (natLe 4 old)).settle f) := by
  intro i tag old
  rw [execKeysetActivate, ownerRow_of ht ho]
  dsimp only
  rw [show (s.popReq f).keySetNamed e.bytes = some k from hk]
  dsimp only
  rw [show canActivate k ((s.popReq f).session (reqSession e.bytes)).body.policy = true from hcan]
  rfl

theorem execKeysetRetire_retires {s : State} {f : Fin 64} {e : ReqEntry} {k : KeySet} (ht : s.Takes f 0x23 [(0, 4)] e)
    (ho : s.Owns f e) (hk : s.keySetNamed e.bytes = some k) :
    execKeysetRetire f s = .next
      ((((s.popReq f).retireNamed (reqSession e.bytes) (pay e.bytes 0 4)).releaseRetired.reply (e.ref f) Code.ok).settle f) := by
  rw [execKeysetRetire, ownerRow_of ht ho]
  dsimp only
  rw [show (s.popReq f).keySetNamed e.bytes = some k from hk]
  rfl

/-- Settles O34: each command runs once its checks pass, and a release takes no key set but retired ones. -/
theorem keySetCommands : Obligations.KeySetCommands := by
  intro f s e r b u i body
  refine ⟨fun d objs ht ho hd => ⟨execKeysetRegister_processed ht ho hd, fun hok htag hlegal hdist hplace hheld => ?_,
    fun s1 ps os herr hplace hobjs hlen hmatch hsha => ?_⟩, fun d k sl => execKeysetVerify_asks, fun k ht ho hk hcan => ?_,
    fun k ht ho hk => ?_⟩
  · refine (execKeysetRegister_processed ht ho hd).trans ?_
    rw [State.register_of_blockErr (State.blockErr_held hok htag hlegal hdist (by rwa [State.reply_popReq_entryPlaced])
      (by rwa [State.reply_crown]))]
  · subst hobjs
    exact ⟨_, execKeysetRegister_processed ht ho hd, State.register_commits herr hplace hlen hmatch hsha, rfl, rfl⟩
  · refine ⟨_, execKeysetActivate_activates ht ho hk hcan, fun y hy => ?_, ?_, fun old k' hold hne h0 hk' => ?_⟩
    · rw [State.session_eq, State.reply_crown, ← State.session_eq]
      exact State.activateKs_session (s := s.popReq f) hy
    · rw [State.reply_crown]
      exact State.activateKs_active (s := s.popReq f) (State.keySetNamed_some hk)
    · rw [State.reply_crown, if_neg (fun h => hne (hold.symm.trans h)),
        show (s.session (reqSession e.bytes)).body.ktag.toNat = old from hold] at hk'
      exact State.activateKs_old_retired h0 hne hk'
  · refine ⟨_, execKeysetRetire_retires ht ho hk, fun k' hk' => ?_, fun y hy => ?_, ?_, ?_⟩
    · rw [State.reply_crown] at hk'
      exact State.retireNamed_retired hk'
    · rw [State.session_eq, State.reply_crown, State.releaseRetired_sessions, ← State.session_eq]
      exact State.retireNamed_session (s := s.popReq f) hy
    · rw [State.reply_crown, State.releaseRetired_jobs, State.retireNamed_jobs]; rfl
    · rw [State.reply_stations, State.releaseRetired_queues, State.retireNamed_stations]; rfl

end Sys2Proof.Machine
end

section
/-! The registers of Mortar (R329 to R331, R337, R338): which words a cancellation spoils, which slots a write finds active, and what the
removal of a result leaves. -/

namespace Sys2Proof.Machine

/-! ## Slots and results -/

theorem Mortar.slot_val (m : Mortar) (i : Fin 64) : m.slot i.val = m.slots[i] := by
  simp [Mortar.slot, List.getD_eq_getElem?_getD]

theorem Mortar.finish_room {m : Mortar} (tag : BitVec 16) (c : Byte) (h : m.results.length < 32) :
    m.finish tag c = { m with results := m.results ++ [(tag, c)], jobs := wrapAdd m.jobs 1 } := if_pos h

/-- The end of a job places its result, or holds it, and touches nothing else but the count. -/
theorem Mortar.finish_eq (m : Mortar) (tag : BitVec 16) (c : Byte) :
    m.finish tag c = { m with
      results := (m.finish tag c).results, held := (m.finish tag c).held, jobs := (m.finish tag c).jobs } := by
  unfold Mortar.finish; split <;> rfl

@[simp] theorem Mortar.finish_slots (m : Mortar) (tag : BitVec 16) (c : Byte) : (m.finish tag c).slots = m.slots := by
  rw [Mortar.finish_eq]
@[simp] theorem Mortar.finish_mem (m : Mortar) (tag : BitVec 16) (c : Byte) : (m.finish tag c).mem = m.mem := by
  rw [Mortar.finish_eq]
@[simp] theorem Mortar.finish_queue (m : Mortar) (tag : BitVec 16) (c : Byte) : (m.finish tag c).queue = m.queue := by
  rw [Mortar.finish_eq]
@[simp] theorem Mortar.finish_running (m : Mortar) (tag : BitVec 16) (c : Byte) : (m.finish tag c).running = m.running := by
  rw [Mortar.finish_eq]
@[simp] theorem Mortar.finish_saved (m : Mortar) (tag : BitVec 16) (c : Byte) : (m.finish tag c).saved = m.saved := by
  rw [Mortar.finish_eq]

/-! ## MRT_CANCEL -/

/-- A word that no put names stays. -/
theorem foldl_put_get? {α β : Type} {key : β → Nat} {val : β → α} {w : Nat} (l : List β) (h : ∀ x ∈ l, w ≠ key x) (t : Tab α) :
    (l.foldl (fun t x => Tab.put t (key x) (val x)) t).get? w = t.get? w := by
  induction l generalizing t with
  | nil => rfl
  | cons x l ih =>
    rw [List.foldl_cons, ih fun y hy => h y (List.mem_cons_of_mem _ hy)]
    exact Tab.get?_put_ne _ (h x (List.mem_cons_self ..))

/-- No work slot of the job holds word w. -/
def Mortar.Outside (m : Mortar) (j : MJob) (w : Nat) : Prop :=
  ∀ i ∈ j.works, w < (m.slot i).base.toNat ∨ (m.slot i).base.toNat + (m.slot i).len.toNat ≤ w

/-- Operand memory after one slot has been spoiled (R334). -/
def Mortar.spoilSlot (m : Mortar) (n : Nat) (t : Tab Dword) (i : Nat) : Tab Dword :=
  (List.range (m.slot i).len.toNat).foldl (fun t k => Tab.put t ((m.slot i).base.toNat + k)
    (BitVec.ofNat 64 (Config.freeNat (2 ^ 64 * (n + 1) + (m.slot i).base.toNat + k)))) t

theorem Mortar.spoilSlot_get? {m : Mortar} {i w : Nat} (n : Nat) (t : Tab Dword)
    (h : w < (m.slot i).base.toNat ∨ (m.slot i).base.toNat + (m.slot i).len.toNat ≤ w) :
    (m.spoilSlot n t i).get? w = t.get? w :=
  foldl_put_get? (key := fun k => (m.slot i).base.toNat + k) _
    (fun k hk => by have := List.mem_range.mp hk; omega) t

/-- The spoiled words are those of the work slots. -/
theorem Mortar.spoil_word {m : Mortar} {n w : Nat} {j : MJob} (h : m.Outside j w) : (m.spoil n j).word w = m.word w := by
  have slots : ∀ (l : List Nat) (t : Tab Dword), (∀ i ∈ l, i ∈ j.works) → Tab.get? (l.foldl (m.spoilSlot n) t) w = t.get? w := by
    intro l
    induction l with
    | nil => exact fun _ _ => rfl
    | cons i l ih =>
      intro t hl
      rw [List.foldl_cons, ih _ fun x hx => hl x (List.mem_cons_of_mem _ hx)]
      exact m.spoilSlot_get? n t (h i (hl i (List.mem_cons_self ..)))
  exact congrArg (Option.getD · 0) (slots j.works m.mem fun _ hi => hi)

/-- Mortar as a cancellation finds it, with the work slots of the jobs that had started spoiled. -/
theorem Mortar.foldl_spoil_eq (n : Nat) (l : List MRun) (m : Mortar) :
    l.foldl (fun x r => Mortar.spoil x n r.job) m = { m with mem := (l.foldl (fun x r => Mortar.spoil x n r.job) m).mem } := by
  induction l generalizing m with
  | nil => rfl
  | cons r l ih => rw [List.foldl_cons, ih]; rfl

theorem Mortar.foldl_spoil_word {n w : Nat} (l : List MRun) {m : Mortar} (h : ∀ r ∈ l, m.Outside r.job w) :
    (l.foldl (fun x r => Mortar.spoil x n r.job) m).word w = m.word w := by
  induction l generalizing m with
  | nil => rfl
  | cons r l ih =>
    exact (ih (m := m.spoil n r.job) fun x hx => h x (List.mem_cons_of_mem _ hx)).trans
      (Mortar.spoil_word (h r (List.mem_cons_self ..)))

theorem Mortar.cancel_inactive {m : Mortar} {n : Nat} {tag : BitVec 16} (h : m.active tag = false) : m.cancel n tag = m :=
  if_neg (ne_true_of_eq_false h)

/-- What a cancellation of an active job comes to: the jobs with the tag are gone, the jobs that had started have spoiled their work
slots, and the result is ABORTED. -/
theorem Mortar.cancel_active {m : Mortar} {n : Nat} {tag : BitVec 16} (h : m.active tag = true) :
    ∃ mem : Tab Dword, m.cancel n tag = ({ m with
        mem := mem
        queue := m.queue.filter fun j => j.tag != tag
        running := m.running.filter fun r => r.job.tag != tag
        saved := m.saved.filter fun r => r.job.tag != tag } : Mortar).finish tag Code.aborted ∧
      ∀ w, (∀ r ∈ m.running.toList ++ m.saved, r.job.tag = tag → m.Outside r.job w) → mem.getD w 0 = m.word w := by
  refine ⟨_, ?_, fun w hw => Mortar.foldl_spoil_word (n := n)
    ((m.running.toList ++ m.saved).filter fun r => r.job.tag == tag) fun r hr => ?_⟩
  · rw [Mortar.cancel, if_pos h]
    dsimp only
    rw [Mortar.foldl_spoil_eq]
  · have hr := List.mem_filter.mp hr
    exact hw r hr.1 (eq_of_beq hr.2)

/-- No job with the tag is left. -/
theorem Mortar.cancel_not_active (m : Mortar) (n : Nat) (tag : BitVec 16) : (m.cancel n tag).active tag = false := by
  cases h : m.active tag with
  | false => rw [Mortar.cancel_inactive h, h]
  | true =>
    obtain ⟨mem, hm, _⟩ := m.cancel_active (n := n) h
    rw [hm, Mortar.active, Mortar.finish_queue, Mortar.finish_running, Mortar.finish_saved]
    have queue : ((m.queue.filter fun j => j.tag != tag).any fun j => j.tag == tag) = false := by simp
    have saved : ((m.saved.filter fun r => r.job.tag != tag).any fun r => r.job.tag == tag) = false := by simp
    have running : ((m.running.filter fun r => r.job.tag != tag).any fun r => r.job.tag == tag) = false := by
      cases m.running with
      | none => rfl
      | some r => by_cases hr : r.job.tag = tag <;> simp [Option.filter, hr]
    rw [queue, running, saved]; rfl

/-- MRT_CANCEL of an active job, as its registers and slots then stand. -/
theorem Mortar.cancel_effect {m : Mortar} (n : Nat) {tag : BitVec 16} (h : m.active tag = true) :
    (m.cancel n tag).slots = m.slots ∧
      (m.results.length < 32 → (m.cancel n tag).results = m.results ++ [(tag, Code.aborted)]) ∧
      (∀ j ∈ m.queue, j.tag ≠ tag → j ∈ (m.cancel n tag).queue) ∧
      (∀ w, (∀ r ∈ m.running.toList ++ m.saved, r.job.tag = tag → m.Outside r.job w) → (m.cancel n tag).word w = m.word w) := by
  obtain ⟨mem, hm, hmem⟩ := m.cancel_active (n := n) h
  rw [hm]
  refine ⟨Mortar.finish_slots .., fun hr => ?_, fun j hj hne => ?_, fun w hw => ?_⟩
  · rw [Mortar.finish_room]; exact hr
  · rw [Mortar.finish_queue]
    exact List.mem_filter.mpr ⟨hj, bne_iff_ne.mpr hne⟩
  · rw [Mortar.word, Mortar.finish_mem]
    exact hmem w hw

/-! ## MRT_MEM_WRITE -/

/-- Word w lies in slot i, which is active. -/
def Mortar.Hits (m : Mortar) (w : Nat) (i : Fin 64) : Prop :=
  m.slotActive i.val = true ∧ m.slots[i].base.toNat ≤ w ∧ w < m.slots[i].base.toNat + m.slots[i].len.toNat

theorem Mortar.any_hits (m : Mortar) (w : Nat) :
    ((List.range 64).any fun i => m.slotActive i &&
      decide ((m.slot i).base.toNat ≤ w ∧ w < (m.slot i).base.toNat + (m.slot i).len.toNat)) = true ↔ ∃ i, m.Hits w i := by
  simp only [List.any_eq_true, List.mem_range, Bool.and_eq_true, decide_eq_true_eq]
  constructor
  · rintro ⟨i, hi, ha, hw⟩
    exact ⟨⟨i, hi⟩, ha, by rwa [← m.slot_val]⟩
  · rintro ⟨i, ha, hw⟩
    exact ⟨i.val, i.isLt, ha, by rwa [m.slot_val]⟩

theorem Mortar.word_put (m : Mortar) (w : Nat) (x : Dword) : ({ m with mem := m.mem.put w x } : Mortar).word w = x := by
  rw [Mortar.word, Tab.getD_eq, Tab.get?_put_same]; rfl

/-! ## MRT_RESULT_READ -/

theorem State.feed_none {s : State} (h : s.crown.waits = []) : s.feed = s := by rw [State.feed, h]; rfl

/-- Submissions that waited leave the key sets. -/
theorem State.feedGo_keysets (n : Nat) (s : State) : (State.feedGo n s).crown.keysets = s.crown.keysets := by
  induction n generalizing s with
  | zero => rfl
  | succ n ih =>
    unfold State.feedGo
    split
    · rfl
    · split
      · rfl
      · exact ih _

theorem State.feed_keysets (s : State) : s.feed.crown.keysets = s.crown.keysets := State.feedGo_keysets ..

/-- Forwarding a status leaves Mortar and what waits for it. -/
theorem State.forward_keepsMortar (s : State) (v : VerifyReq) (c : Byte) :
    (s.forward v c).mortar = s.mortar ∧ (s.forward v c).crown.waits = s.crown.waits := by
  unfold State.forward
  split
  · rw [State.complete_mortar, State.complete_crown]
    split <;> exact ⟨rfl, rfl⟩
  · exact ⟨rfl, rfl⟩

/-- A status forwarded to the registered key set of a session that demands a signature makes it VERIFIED on OK and leaves it otherwise
(R37, R290). -/
theorem State.forward_state {s : State} {v : VerifyReq} {ref : ReqRef} {ktag : Word} {k : KeySet} (c : Byte)
    (hv : v.ref = some (ref, ktag)) (hk : s.crown.keysets.get? ktag.toNat = some k) (hr : k.state = .registered)
    (hs : s.ksigOf ktag = true) :
    ((s.forward v c).crown.keysets.get? ktag.toNat).map (·.state) = some (if c = Code.ok then .verified else .registered) := by
  rw [State.forward, hv]
  simp only [State.complete_crown]
  by_cases hc : c = Code.ok
  · rw [if_pos ⟨hc, hs⟩, if_pos hc, Tab.get?_upd_same, hk, Option.map_some, if_pos hr]
    exact congrArg some (congrArg KsBody.state (show (k.commit { k.body with state := .verified }).body = _ from KeySet.commit_body ..))
  · rw [if_neg fun h => hc h.1, if_neg hc, hk, Option.map_some, hr]

/-- Mortar after its oldest result has left: the result of a job that held takes the room. -/
def Mortar.popResult (m : Mortar) (rest : List (BitVec 16 × Byte)) : Mortar :=
  match m.held with
  | [] => { m with results := rest }
  | (t, c) :: hs => ({ m with results := rest, held := hs } : Mortar).finish t c

theorem Mortar.popResult_results {m : Mortar} {rest : List (BitVec 16 × Byte)} (h : m.held = []) :
    (m.popResult rest).results = rest := by rw [Mortar.popResult, h]

/-- Crown's and Mortar's parts once a verification has ended: its slots are given back and its record is gone. -/
def State.verifyEnded (s : State) (tag : BitVec 16) (v : VerifyReq) (rest : List (BitVec 16 × Byte)) : State :=
  { s with
    mortar := (s.mortar.popResult rest).release v.slots
    crown := { s.crown with verifies := s.crown.verifies.filter fun x => x.mtag != tag } }

/-! ## Rows -/

theorem State.bootOn {s : State} (h : s.boot.state ≠ .off) : (s.boot.state != .off) = true := bne_iff_ne.mpr h

/-- Mortar with the last word of a descriptor in MRT_SUBMIT7. -/
def Mortar.putSubmit7 (m : Mortar) (val : Word) : Mortar := { m with submit := m.submit.set 7 val }

theorem execMrtSubmit_enqueues {s : State} {val : Word} (h : s.Specified) (hb : s.boot.state ≠ .off) :
    execMrtSubmit val s = .next { s with
      mortar := (s.mortar.putSubmit7 val).enqueue (.ofBytes (bytesOf (s.mortar.putSubmit7 val).submit.toList)) } :=
  occurs_of h (State.bootOn hb)

theorem execMrtCancel_cancels {s : State} {val : Word} (h : s.Specified) (hb : s.boot.state ≠ .off) :
    execMrtCancel val s = .next (State.tick { s with mortar := s.mortar.cancel s.fresh (val.setWidth 16) }) :=
  occurs_of h (State.bootOn hb)

/-- The slot register that a write makes (R328). -/
def MSlot.ofWord (val : Word) : MSlot :=
  ⟨bitAt val.toNat 31, BitVec.ofNat 8 (fld val.toNat 13 8), BitVec.ofNat 13 (fld val.toNat 0 13)⟩

theorem execMrtSlotWrite_writes {s : State} {i : Fin 64} {val : Word} (h : s.Specified) (hb : s.boot.state ≠ .off) :
    execMrtSlotWrite i val s = .next { s with
      mortar := if s.mortar.slots[i].valid && s.mortar.slotActive i.val then { s.mortar with cfgErr := true }
        else { s.mortar with slots := s.mortar.slots.set i (.ofWord val) } } :=
  occurs_of h (State.bootOn hb)

theorem execMrtMemWrite_hit {s : State} {w : Fin 8192} {val : Dword} (h : s.Specified) (hb : s.boot.state ≠ .off)
    (hit : ∃ i, s.mortar.Hits w.val i) : execMrtMemWrite w val s = .next { s with mortar := { s.mortar with cfgErr := true } } :=
  (occurs_of h (State.bootOn hb)).trans
    (congrArg (fun x => Host.Outcome.next { s with mortar := x }) (if_pos ((Mortar.any_hits ..).mpr hit)))

theorem execMrtMemWrite_miss {s : State} {w : Fin 8192} {val : Dword} (h : s.Specified) (hb : s.boot.state ≠ .off)
    (miss : ¬ ∃ i, s.mortar.Hits w.val i) :
    execMrtMemWrite w val s = .next { s with mortar := { s.mortar with mem := s.mortar.mem.put w.val val } } :=
  (occurs_of h (State.bootOn hb)).trans
    (congrArg (fun x => Host.Outcome.next { s with mortar := x }) (if_neg fun hit => miss ((Mortar.any_hits ..).mp hit)))

section
variable {s : State} {tag : BitVec 16} {code : Byte} {rest : List (BitVec 16 × Byte)}

theorem execMrtResultRead_unasked (h : s.Specified) (hres : s.mortar.results = (tag, code) :: rest)
    (hv : (s.crown.verifies.find? fun v => v.mtag == tag) = none) :
    execMrtResultRead s = .next ({ s with mortar := s.mortar.popResult rest } : State).feed := by
  rw [execMrtResultRead, occurs_of h (by rw [hres]; rfl), hres]
  dsimp only
  rw [hv]
  rfl

theorem execMrtResultRead_forwards {v : VerifyReq} (h : s.Specified) (hres : s.mortar.results = (tag, code) :: rest)
    (hv : (s.crown.verifies.find? fun v => v.mtag == tag) = some v) :
    execMrtResultRead s = .next ((s.verifyEnded tag v rest).forward v code).feed := by
  rw [execMrtResultRead, occurs_of h (by rw [hres]; rfl), hres]
  dsimp only
  rw [hv]
  rfl

/-- The oldest result leaves, whether Crown asked for it or not. -/
theorem execMrtResultRead_removes (h : s.Specified) (hres : s.mortar.results = (tag, code) :: rest) :
    ∃ t : State, execMrtResultRead s = .next t ∧ (s.mortar.held = [] → s.crown.waits = [] → t.mortar.results = rest) ∧
      ∀ v, (s.crown.verifies.find? fun v => v.mtag == tag) = some v →
        t.crown.keysets = ((s.verifyEnded tag v rest).forward v code).crown.keysets := by
  cases hv : s.crown.verifies.find? fun v => v.mtag == tag with
  | none =>
    refine ⟨_, execMrtResultRead_unasked h hres hv, fun hh hw => ?_, fun v hv => nomatch hv⟩
    rw [State.feed_none (by exact hw)]
    exact Mortar.popResult_results hh
  | some v =>
    refine ⟨_, execMrtResultRead_forwards h hres hv, fun hh hw => ?_, fun v' hv' => ?_⟩
    · obtain ⟨hm, hc⟩ := (s.verifyEnded tag v rest).forward_keepsMortar v code
      rw [State.feed_none (hc.trans hw), hm]
      exact Mortar.popResult_results hh
    · cases hv'
      exact State.feed_keysets _

end

/-- Settles O49: each row is its effect on Mortar, and a cancellation and a result's removal are followed through their parts. -/
theorem mortarRegisters : Obligations.MortarRegisters := by
  intro s hs hb m
  refine ⟨fun val => ?_, fun val => ?_, fun i val => ?_, fun w val => ?_, fun tag code rest hres => ?_⟩
  · intro m1 j
    refine ⟨fun hq => ?_, fun hq hj => ?_, fun hq hj hr => ?_⟩
    all_goals refine (execMrtSubmit_enqueues hs hb).trans (congrArg (fun x => Host.Outcome.next { s with mortar := x }) ?_)
    · exact if_pos hq
    · exact (if_neg (Nat.not_le.mpr hq)).trans (if_neg (ne_true_of_eq_false hj))
    · exact (if_neg (Nat.not_le.mpr hq)).trans ((if_pos hj).trans (Mortar.finish_room _ _ hr))
  · intro tag
    refine ⟨fun ha => ?_, fun ha => ⟨_, execMrtCancel_cancels hs hb, Mortar.cancel_not_active .., Mortar.cancel_effect s.fresh ha⟩⟩
    exact (execMrtCancel_cancels hs hb).trans
      (congrArg (fun x => Host.Outcome.next (State.tick { s with mortar := x })) (Mortar.cancel_inactive ha))
  · refine ⟨fun hv ha => ?_, fun h => ?_⟩
    all_goals refine (execMrtSlotWrite_writes hs hb).trans (congrArg (fun x => Host.Outcome.next { s with mortar := x }) ?_)
    · exact if_pos (Bool.and_eq_true_iff.mpr ⟨hv, ha⟩)
    · exact if_neg fun hc => by
        obtain ⟨hv, ha⟩ := Bool.and_eq_true_iff.mp hc
        rcases h with h | h
        · cases h.symm.trans hv
        · cases h.symm.trans ha
  · exact ⟨execMrtMemWrite_hit hs hb, fun h => ⟨execMrtMemWrite_miss hs hb (not_exists.mpr h), Mortar.word_put ..⟩⟩
  · obtain ⟨t, ht, hresults, hkeysets⟩ := execMrtResultRead_removes hs hres
    refine ⟨t, ht, hresults, fun v ref ktag k hv href hk hr hsig => ?_⟩
    rw [hkeysets v hv]
    exact State.forward_state (s := s.verifyEnded tag v rest) code href hk hr hsig

end Sys2Proof.Machine
end

section
/-! Residues (R54 to R56, R62, R63): Barrett reduction, the compare of a check unit, and the transforms block by block. -/

namespace Sys2Proof.Machine

/-! ## Reduction (R54) -/

/-- With mu = floor(2^72 / q) the quotient of R54 is never too large, and too small by one at most. -/
theorem barrett_quotient_near {q x : Nat} (hx : x < 2 ^ 72) :
    x * (2 ^ 72 / q) / 2 ^ 72 * q ≤ x ∧ (0 < q → x - x * (2 ^ 72 / q) / 2 ^ 72 * q < 2 * q) := by
  have hmu := Nat.div_add_mod (2 ^ 72) q
  have ht := Nat.div_add_mod (x * (2 ^ 72 / q)) (2 ^ 72)
  have hf := Nat.mod_lt (x * (2 ^ 72 / q)) (show 0 < 2 ^ 72 by decide)
  have he : 0 < q → 2 ^ 72 % q < q := Nat.mod_lt _
  generalize 2 ^ 72 / q = mu, 2 ^ 72 % q = e at *
  generalize x * mu / 2 ^ 72 = t, x * mu % 2 ^ 72 = f at *
  have key : 2 ^ 72 * (t * q) + (x * e + f * q) = 2 ^ 72 * x :=
    calc 2 ^ 72 * (t * q) + (x * e + f * q)
      _ = (2 ^ 72 * t + f) * q + x * e := by rw [Nat.add_mul, Nat.mul_assoc]; omega
      _ = x * (q * mu + e) := by rw [ht, Nat.mul_add, Nat.mul_assoc, Nat.mul_comm mu]
      _ = 2 ^ 72 * x := by rw [hmu, Nat.mul_comm]
  refine ⟨by omega, fun hq => ?_⟩
  have hxe : x * e ≤ 2 ^ 72 * q := Nat.mul_le_mul (Nat.le_of_lt hx) (Nat.le_of_lt (he hq))
  have hfq : f * q < 2 ^ 72 * q := Nat.mul_lt_mul_of_pos_right hf hq
  omega

/-- The remainder before the correction, taken modulo 2^32 as R54 does, is exact. -/
theorem barrett_remainder {q x : Nat} (hq : 2 ^ 20 < q) (hq' : q < 2 ^ 31) (hx : x < 2 ^ 72) :
    (x + 2 ^ 32 * (x * (2 ^ 72 / q) / 2 ^ 72 * q) - x * (2 ^ 72 / q) / 2 ^ 72 * q) % 2 ^ 32 = x - x * (2 ^ 72 / q) / 2 ^ 72 * q := by
  obtain ⟨hle, hlt⟩ := barrett_quotient_near (q := q) hx
  have hlt := hlt (by omega)
  omega

/-- The quotient and the remainder of a reduction are those of the division. -/
theorem barrett_divides {q x : Nat} (hq : 2 ^ 20 < q) (hq' : q < 2 ^ 31) (hx : x < 2 ^ 72) :
    barrettQuot q (2 ^ 72 / q) x * q + barrett q (2 ^ 72 / q) x = x ∧ barrett q (2 ^ 72 / q) x < q := by
  obtain ⟨hle, hlt⟩ := barrett_quotient_near (q := q) hx
  have hlt := hlt (by omega)
  simp only [barrett, barrettQuot, barrett_remainder hq hq' hx]
  split
  · rw [Nat.add_mul]; omega
  · omega

/-- Settles O59: the remainder before the correction is below 2 q, so that one subtraction brings it to x mod q. -/
theorem barrettReduces : Obligations.BarrettReduces := by
  intro q x hq hq' hx t r
  obtain ⟨hle, hlt⟩ := barrett_quotient_near (q := q) hx
  obtain ⟨hdiv, hr⟩ := barrett_divides hq hq' hx
  refine ⟨hle, hlt (by omega), ?_, ?_, hr⟩
  · simp only [barrett, barrett_remainder hq hq' hx]; rfl
  · rw [← Nat.mod_eq_of_lt hr, ← Nat.mul_add_mod_self_right (barrettQuot q (2 ^ 72 / q) x) q, hdiv]

/-- The compare of a check unit agrees with a correct reduction (R55, R56). -/
theorem checkAgrees_barrett {q x : Nat} (hq : 2 ^ 20 < q) (hq' : q < 2 ^ 31) (hx : x < 2 ^ 72) :
    checkAgrees (q % 8191) x (barrettQuot q (2 ^ 72 / q) x) (barrett q (2 ^ 72 / q) x) = true := by
  obtain ⟨hdiv, -⟩ := barrett_divides hq hq' hx
  rw [checkAgrees, beq_iff_eq, Nat.add_mod, Nat.mod_mod, ← Nat.mul_mod, ← Nat.add_mod, hdiv]

/-! ## Words of a transform -/

theorem subMod_lt {q a b : Nat} (hq : 0 < q) : subMod q a b < q := Nat.mod_lt _ hq

theorem subMod_add_mod {q a b : Nat} (hb : b ≤ q) : (subMod q a b + b) % q = a % q := by
  rw [subMod, Nat.mod_add_mod, Nat.sub_add_cancel (by omega), Nat.add_mod_right]

/-- Equal residues stay equal when a canonical word is taken off both. -/
theorem mod_add_right_cancel {q a b c : Nat} (hc : c ≤ q) (h : (a + c) % q = (b + c) % q) : a % q = b % q := by
  have whole (n : Nat) : ((n + c) % q + (q - c)) % q = n % q := by
    rw [Nat.mod_add_mod, Nat.add_assoc, Nat.add_sub_cancel' hc, Nat.add_mod_right]
  rw [← whole a, h, whole b]

/-- Square and multiply computes the power where its bits suffice. -/
theorem powGo_mod {q n b e acc : Nat} (h : e < 2 ^ n) : powGo q n b e acc % q = acc * b ^ e % q := by
  induction n generalizing b e acc with
  | zero => obtain rfl : e = 0 := by omega
            rw [powGo, Nat.pow_zero, Nat.mul_one]
  | succ n ih =>
    have square : (b * b % q) ^ (e / 2) % q = b ^ (2 * (e / 2)) % q := by rw [← Nat.pow_mod, ← Nat.pow_two, ← Nat.pow_mul]
    rw [powGo, ih (by omega), Nat.mul_mod, square, ← Nat.mul_mod]
    obtain he | he := Nat.mod_two_eq_zero_or_one e
    · rw [if_neg (by omega), show 2 * (e / 2) = e by omega]
    · rw [if_pos he, Nat.mod_mul_mod, Nat.mul_assoc, ← Nat.pow_add_one', show 2 * (e / 2) + 1 = e by omega]

theorem powMod_mod (q b e : Nat) : powMod q b e % q = b ^ e % q := by
  rw [powMod, powGo_mod Nat.lt_log2_self, Nat.mod_mul_mod, Nat.one_mul, ← Nat.pow_mod]

/-- Powers of inverses are inverses. -/
theorem powMod_mul_powMod {q b c : Nat} (e : Nat) (h : b * c % q = 1) : powMod q b e * powMod q c e % q = 1 % q := by
  rw [Nat.mul_mod, powMod_mod, powMod_mod, ← Nat.mul_mod, ← Nat.mul_pow, Nat.pow_mod, h, Nat.one_pow]

/-! ## The transforms (R62, R63) -/

section
variable {q psi psiInv logn : Nat}

theorem nttBlock_length (k node : Nat) (a : List Nat) (h : a.length = 2 ^ k) : (nttBlock q psi logn k node a).length = 2 ^ k := by
  induction k generalizing node a with
  | zero => exact h
  | succ k ih =>
    rw [Nat.pow_succ] at h ⊢
    rw [nttBlock, List.length_append, ih, ih]
    · omega
    all_goals simp only [List.length_zipWith, List.length_take, List.length_map, List.length_drop]; omega

theorem zipWith_forall_lt {f : Nat → Nat → Nat} {u v : List Nat} (hf : ∀ x y, f x y < q) : ∀ z ∈ List.zipWith f u v, z < q := by
  intro z hz
  obtain ⟨p, -, rfl⟩ := List.mem_map.mp (List.map_uncurry_zip_eq_zipWith .. ▸ hz)
  exact hf ..

/-- The low outputs of a butterfly and of its inverse: twice the first word. -/
theorem butterfly_low {q c w x y : Nat} (hq : 0 < q) :
    (c * ((x + y * w % q) % q) % q + c * subMod q x (y * w % q) % q) % q = c * 2 * x % q := by
  have hv := Nat.mod_lt (y * w) hq
  have sum : x + y * w % q + (x + q - y * w % q) = 2 * x + q := by omega
  rw [← Nat.add_mod, ← Nat.mul_add, Nat.mul_mod, Nat.mod_add_mod, subMod, Nat.add_mod_mod, sum, Nat.add_mod_right, ← Nat.mul_mod,
    Nat.mul_assoc]

/-- The difference of the two outputs of a butterfly: twice the product. -/
theorem butterfly_difference {q c v x : Nat} (hv : v ≤ q) (hq : 0 < q) :
    subMod q (c * ((x + v) % q) % q) (c * subMod q x v % q) % q = c * 2 * v % q := by
  have hb : c * subMod q x v % q ≤ q := Nat.le_of_lt (Nat.mod_lt _ hq)
  have sum : (2 * v + subMod q x v) % q = (x + v) % q := by
    rw [subMod, Nat.add_mod_mod, show 2 * v + (x + q - v) = x + v + q by omega, Nat.add_mod_right]
  refine mod_add_right_cancel hb ?_
  rw [subMod_add_mod hb, Nat.mod_mod, Nat.mul_mod_mod, Nat.add_mod_mod, Nat.mul_assoc, ← Nat.mul_add, Nat.mul_mod c (2 * v + _), sum,
    ← Nat.mul_mod]

/-- The high output: twice the second word, where the two roots are inverses. -/
theorem butterfly_high {q c w w' x y : Nat} (hq : 0 < q) (hw : w * w' % q = 1 % q) :
    subMod q (c * ((x + y * w % q) % q) % q) (c * subMod q x (y * w % q) % q) * w' % q = c * 2 * y % q := by
  have hv : y * w % q ≤ q := Nat.le_of_lt (Nat.mod_lt _ hq)
  have regroup : c * 2 * (y * w) * w' = c * 2 * y * (w * w') := by simp only [Nat.mul_assoc]
  rw [← Nat.mod_mul_mod, butterfly_difference hv hq, Nat.mul_mod_mod, Nat.mod_mul_mod, regroup, Nat.mul_mod, hw, ← Nat.mul_mod,
    Nat.mul_one]

/-- A block's inverse transform after its forward one scales every word by the block's size. -/
theorem inttBlock_nttBlock (hq : 0 < q) (hpsi : psi * psiInv % q = 1) (k node : Nat) (a : List Nat) (h : a.length = 2 ^ k)
    (ha : ∀ x ∈ a, x < q) : inttBlock q psiInv logn k node (nttBlock q psi logn k node a) = a.map fun x => 2 ^ k * x % q := by
  induction k generalizing node a with
  | zero =>
    have same : a.map (fun x => 2 ^ 0 * x % q) = a.map id := List.map_congr_left fun x hx => by simpa using Nat.mod_eq_of_lt (ha x hx)
    rw [inttBlock, nttBlock, same, List.map_id]
  | succ k ih =>
    rw [Nat.pow_succ] at h
    have hw := powMod_mul_powMod (brv logn node) hpsi
    have size (f : Nat → Nat → Nat) :
        (List.zipWith f (a.take (2 ^ k)) ((a.drop (2 ^ k)).map fun x => x * powMod q psi (brv logn node) % q)).length = 2 ^ k := by
      simp only [List.length_zipWith, List.length_take, List.length_map, List.length_drop]; omega
    rw [nttBlock, inttBlock, List.take_left' (nttBlock_length _ _ _ (size _)), List.drop_left' (nttBlock_length _ _ _ (size _)),
      ih _ _ (size _) (zipWith_forall_lt fun _ _ => Nat.mod_lt _ hq), ih _ _ (size _) (zipWith_forall_lt fun _ _ => subMod_lt hq)]
    conv => rhs; rw [← List.take_append_drop (2 ^ k) a, List.map_append]
    congr 1 <;> refine List.ext_getElem
        (by simp only [List.length_zipWith, List.length_map, List.length_take, List.length_drop]; omega) fun i _ _ => ?_ <;>
      simp only [List.getElem_zipWith, List.getElem_map, List.getElem_take, List.getElem_drop, Nat.pow_succ]
    · exact butterfly_low hq
    · exact butterfly_high hq hw
end

/-- Settles O60: the blocks leave 2^logn times each word, which N^-1 takes away. -/
theorem inverseUndoesForward : Obligations.InverseUndoesForward := by
  intro q psi psiInv ninv logn a hq hpsi hninv hlen ha
  rw [nttInv, nttFwd, inttBlock_nttBlock (by omega) hpsi _ _ _ hlen ha, List.map_map]
  have undo : ∀ x ∈ a, 2 ^ logn * x % q * ninv % q = x := fun x hx => by
    rw [Nat.mod_mul_mod, Nat.mul_right_comm, Nat.mul_comm _ ninv, Nat.mul_mod, hninv, Nat.one_mul, Nat.mod_mod, Nat.mod_eq_of_lt (ha x hx)]
  exact (List.map_congr_left undo).trans (List.map_id a)

/-! ## Element-wise operations (Table 5.3) -/

/-- Settles O11: each operation's words are a branch of Table 5.3, and the words of SSUB and SNEG undo an addition. -/
theorem skilletLanes : Obligations.SkilletLanes := by
  intro ha p q q2 r a b d hq hA hB hD
  refine ⟨fun h => by simp [sklWords, h], fun h => ⟨subMod q a b, subMod_lt (by omega), by simp [sklWords, h],
      (subMod_add_mod (Nat.le_of_lt hB)).trans (Nat.mod_eq_of_lt hA)⟩,
    fun h => ⟨if a = 0 then 0 else q - a, ?_, by simp [sklWords, h], ?_⟩,
    fun h => by obtain h | h := h <;> simp [sklWords, h], fun h => by simp [sklWords, h]⟩
  · split <;> omega
  · split
    · next h => rw [h]; exact Nat.zero_mod q
    · rw [Nat.sub_add_cancel (Nat.le_of_lt hA), Nat.mod_self]

end Sys2Proof.Machine
end

section
/-! The ends of instructions and of check units (R56 to R60, R79, R81, R226, R227): what a signal writes, and what a check's outcome
leaves of the counts. -/

namespace Sys2Proof.Machine

/-! ## Signals -/

/-- Headers that are written whole always find their place. -/
theorem Station.putHdrs_of_set {l : List PendHdr} (t : Station) (h : ∀ p ∈ l, p.merge = false) : ∃ u, t.putHdrs l = some u := by
  induction l generalizing t with
  | nil => exact ⟨t, rfl⟩
  | cons p ps ih =>
    obtain ⟨hp, hps⟩ := List.forall_mem_cons.mp h
    have written : t.putHdr p = some (t.wr p.off p.bytes) := by rw [Station.putHdr, hp]; rfl
    rw [Station.putHdrs, written, Option.bind_some]
    exact ih _ hps

theorem execInstructionSignal_of {s : State} {st : Fin 16} {q : Fin 22} {i : Nat} {e : QEntry} (hs : s.Specified)
    (hj : s.jobRuns s.stations[st] = true) (h : s.stations[st].signalable q = some (i, e)) :
    exec (.instructionSignal st (q, .clean)) s = .next (s.finishEntry st q i e) := by
  change execInstructionSignal st (q, .clean) s = _
  rw [execInstructionSignal, occurs_of hs (by rw [hj, h]; rfl), h]
  rfl

/-- Settles O5: the row ends the entry, and a locked update alone can fail to write it. -/
theorem signalsAndPartEnd : Obligations.SignalsAndPartEnd := by
  intro st s hs hj
  refine ⟨fun q i e he => ⟨fun t ht => ?_, fun hn => ?_, Station.putHdrs_of_set _⟩, fun hend hpart hq => ?_⟩
  · rw [execInstructionSignal_of hs hj he, State.finishEntry, ht]
  · rw [execInstructionSignal_of hs hj he, State.finishEntry, hn]
  · have empty : s.stations[st].queues = Vector.replicate 22 [] := vext fun q => by rw [hq]; simp
    change execStationPartComplete st s = _
    rw [execStationPartComplete, occurs_of hs (by rw [hj, Station.partReady, hend, hpart, empty]; rfl)]
    rfl

/-! ## Checks -/

@[simp] theorem State.countReplay_stations (s : State) (st : Fin 16) (e : Fin 12) :
    (s.countReplay st e).stations = (s.updChk st e fun c => { c with replays := satAdd c.replays 1 }).stations := by
  rw [State.countReplay, State.noteIf_stations]

@[simp] theorem State.updChk_same (s : State) (st : Fin 16) (e : Fin 12) (f : ChkCnt → ChkCnt) :
    (s.updChk st e f).stations[st] = { s.stations[st] with chk := vupd s.stations[st].chk e f } := State.updStn_same ..

theorem satAdd_one {w : Nat} {x : BitVec w} (h : x.toNat + 1 < 2 ^ w) : satAdd x 1 = x + 1 := by
  apply BitVec.eq_of_toNat_eq
  rw [satAdd, BitVec.toNat_ofNat, BitVec.toNat_add, Nat.min_eq_left (by omega)]
  simp

theorem State.checked_failed (s : State) (st : Fin 16) (e : Fin 12) (g : BitVec 16) (n : Nat) (ok : State → State) :
    s.checked st e (.failed g) n ok =
      (s.countFail st e g).loggedFault st e.val Code.checkReplayFailed (natLe 4 n ++ natLe 2 g.toNat) := rfl

/-- A replay counts on its engine alone, whether or not a note of the saturation is logged. -/
theorem State.countReplay_stn (s : State) (st : Fin 16) (e : Fin 12) :
    (s.countReplay st e).stations[st] =
      { s.stations[st] with chk := vupd s.stations[st].chk e fun c => { c with replays := satAdd c.replays 1 } } := by
  rw [State.countReplay_stations, State.updChk_same]

theorem State.countFail_stations (s : State) (st : Fin 16) (e : Fin 12) (g : BitVec 16) :
    (s.countFail st e g).stations =
      (s.updChk st e fun c => { c with fails := satAdd c.fails 1, groups := c.groups ||| g }).stations := by
  rw [State.countFail, State.noteIf_stations]

theorem State.countFail_stn (s : State) (st : Fin 16) (e : Fin 12) (g : BitVec 16) :
    (s.countFail st e g).stations[st] = { s.stations[st] with
      chk := vupd s.stations[st].chk e fun c => { c with fails := satAdd c.fails 1, groups := c.groups ||| g } } := by
  rw [State.countFail_stations, State.updChk_same]

@[simp] theorem State.countFail_crown (s : State) (st : Fin 16) (e : Fin 12) (g : BitVec 16) :
    (s.countFail st e g).crown = s.crown := by rw [State.countFail, State.noteIf_crown, State.updChk_crown]

/-- A note of a saturation adds one event to the log at most. -/
theorem State.noteIf_queue_le (s : State) (b : Bool) (key : Nat) (kind unit station : Byte) (off : Nat) :
    (s.noteIf b key kind unit station off).mon.queue.length ≤ s.mon.queue.length + 1 := by
  unfold State.noteIf State.noteSat State.logEvt
  (repeat' split) <;> simp

theorem State.countFail_queue_le (s : State) (st : Fin 16) (e : Fin 12) (g : BitVec 16) :
    (s.countFail st e g).mon.queue.length ≤ s.mon.queue.length + 1 := State.noteIf_queue_le ..

/-- A fault that finds room in the log leaves its event there. -/
theorem State.loggedFault_logged {s : State} (st : Fin 16) (unit : Nat) (c : Byte) (d : List Byte) (h : s.mon.queue.length < 256) :
    s.jobEvt st unit c d ∈ (s.loggedFault st unit c d).mon.queue := by
  rw [State.loggedFault, State.instrFault_mon, State.logEvt_room _ h]
  exact List.mem_append_right _ (List.mem_singleton_self _)

/-- A running job that a logged fault ends is ABORTING with the fault's code, and its station has stopped (R266). -/
theorem State.loggedFault_ends {s : State} {st : Fin 16} {j : Nat} {x : Job} (unit : Nat) (c : Byte) (d : List Byte)
    (hjob : s.stations[st].job = some j) (hheld : s.stations[st].held = true) (hx : s.crown.jobs.get? j = some x)
    (ha : x.state.abortable = true) :
    (s.loggedFault st unit c d).stations[st] = s.stations[st].stop ∧
      (s.loggedFault st unit c d).crown.jobs.get? j = some { x with state := .aborting, cause := c, timeout := false } := by
  have hjob' : (s.logEvt (s.jobEvt st unit c d)).stations[st].job = some j := by rw [State.logEvt_stations, hjob]
  have hx' : (s.logEvt (s.jobEvt st unit c d)).crown.jobs.get? j = some x := by rw [State.logEvt_crown, hx]
  have hholds : (s.logEvt (s.jobEvt st unit c d)).holds j st = true := by
    rw [State.holds, State.logEvt_stations, hheld, hjob]; simp
  rw [State.loggedFault, State.instrFault_of c hjob', State.abortJob_stn c false hx' ha, State.abortJob_job c false hx' ha,
    Tab.get?_upd_same, hx', if_pos hholds, State.logEvt_stations]
  exact ⟨rfl, rfl⟩

/-! ## Element-steps of a Kettle -/

/-- What an element-step leaves of its station where its check lets it go on. -/
def Station.elemStepped (t : Station) (k : Fin 8) (n i : Nat) (ms : List ModEntry) : Station :=
  ((t.addStall k n).updKettle k fun kt => kt.stepped ms).updAt (qKettle k) i QEntry.unitDone

@[simp] theorem Station.elemStepped_chk (t : Station) (k : Fin 8) (n i : Nat) (ms : List ModEntry) :
    (t.elemStepped k n i ms).chk = t.chk := rfl

theorem Station.elemStepped_kettle (t : Station) (k : Fin 8) (n i : Nat) (ms : List ModEntry) :
    (t.elemStepped k n i ms).kettles[k] = ((t.addStall k n).kettles[k]).stepped ms := vupd_same ..

section
variable {s : State} {st : Fin 16} {k : Fin 8} {i : Nat} {e : QEntry}

theorem execKettleElementStep_checked (v : Verdict) (n : Nat) (h : s.Running st (qKettle k) 0x50 i e)
    (hp : s.stations[st].kettles[k].phase = .rotation)
    (hb : s.stations[st].kettles[k].stepHeld s.stations[st].kettles[k].step = true) :
    exec (.kettleElementStep st k (v, n)) s = .next (s.checked st ⟨4 + k.val, by omega⟩ v e.done fun s1 =>
      s1.updStn st fun x => x.elemStepped k n i (s.stations[st].ktlMods k)) := by
  change execKettleElementStep st k (v, n) s = _
  rw [execKettleElementStep, runRow_of h (by rw [hp, hb]; rfl)]
  rfl

/-- A replayed step counts its replay and goes on (R57, R60). -/
theorem execKettleElementStep_replayed (g : BitVec 16) (n : Nat) (h : s.Running st (qKettle k) 0x50 i e)
    (hp : s.stations[st].kettles[k].phase = .rotation)
    (hb : s.stations[st].kettles[k].stepHeld s.stations[st].kettles[k].step = true) :
    ∃ t, exec (.kettleElementStep st k (.replayed g, n)) s = .next t ∧
      t.stations[st] = Station.elemStepped { s.stations[st] with
        chk := vupd s.stations[st].chk ⟨4 + k.val, by omega⟩ fun c => { c with replays := satAdd c.replays 1 } } k n i
        (s.stations[st].ktlMods k) :=
  ⟨_, execKettleElementStep_checked _ n h hp hb, by rw [State.checked, State.updStn_same, State.countReplay_stn]⟩
end

/-- Settles O18: a replay goes on with its count one higher; a failure is counted, logged, and ends the job. -/
theorem checkReplays : Obligations.CheckReplays := by
  intro st k s i e h eng c hp hb
  refine ⟨fun g n hc => ?_, fun g n j x hjob hheld hx hrun hlog => ?_⟩
  · obtain ⟨t, ht, hstn⟩ := execKettleElementStep_replayed g n h hp hb
    refine ⟨t, ht, ?_, ?_⟩
    · rw [hstn, Station.elemStepped_chk, ← satAdd_one (by omega)]
      exact vupd_same ..
    · rw [hstn, Station.elemStepped_kettle]
      rfl
  · have hjob' : (s.countFail st eng g).stations[st].job = some j := by rw [State.countFail_stn]; exact hjob
    have hheld' : (s.countFail st eng g).stations[st].held = true := by rw [State.countFail_stn]; exact hheld
    have hroom := Nat.lt_of_le_of_lt (s.countFail_queue_le st eng g) (Nat.succ_lt_succ hlog)
    obtain ⟨hstn, hy⟩ := State.loggedFault_ends eng.val Code.checkReplayFailed (natLe 4 e.done ++ natLe 2 g.toNat) hjob' hheld'
      (by rw [State.countFail_crown]; exact hx) (by rw [hrun]; rfl)
    have ht := execKettleElementStep_checked (.failed g) n h hp hb
    rw [State.checked_failed] at ht
    rw [State.countFail_stn] at hstn
    refine ⟨_, _, ht, ?_, ?_, ?_, hy, rfl, rfl, ⟨_, State.loggedFault_logged st _ _ _ hroom, rfl, rfl⟩⟩
    · exact (congrArg (fun t : Station => t.chk[eng].fails) hstn).trans (congrArg ChkCnt.fails (vupd_same ..))
    · exact (congrArg Station.pantry hstn).trans rfl
    · exact (congrArg Station.queues hstn).trans rfl

/-! ## Cleared counts -/

theorem State.powered_of_linkUp {s : State} (h : s.linkUp = true) : s.powered = true := (Bool.and_eq_true_iff.mp h).1

section
variable {s : State} {st : Fin 16} {k : Fin 8} {i : Nat} {e : QEntry}

theorem execChkcntClr_clears (eng : Fin 12) (hs : s.Specified) (hl : s.linkUp = true) :
    ∃ t, exec (.chkcntClr st eng) s = .next t ∧ t.power = s.power ∧ t.crown = s.crown ∧ t.stations[st] =
      { s.stations[st] with chk := vupd s.stations[st].chk eng fun c => { c with replays := 0, fails := 0, last := 0 } } :=
  ⟨_, show execChkcntClr st eng s = _ from occurs_of hs (State.powered_of_linkUp hl), rfl, rfl, by rw [State.unmark_stations, State.updChk_same]⟩

/-- An entry runs on where a state differs in its station's check counts alone. -/
theorem State.Running.of_chk {t : State} {q : Fin 22} {op : Nat} {c : Vector ChkCnt 12} (h : s.Running st q op i e) (hp : t.power = s.power)
    (hc : t.crown = s.crown) (hstn : t.stations[st] = { s.stations[st] with chk := c }) : t.Running st q op i e := by
  obtain ⟨hs, hj, hr⟩ := h
  refine ⟨by rw [State.Specified, hp]; exact hs, ?_, by rw [hstn]; exact hr⟩
  rw [State.jobRuns, State.stnJob, hstn, hc]
  exact hj
end

/-- Settles O55: each CLR is one change of its counts' unit. -/
theorem countsCleared : Obligations.CountsCleared := by
  intro s hs hl
  have hp := State.powered_of_linkUp hl
  refine ⟨fun st k => ?_, fun st e => ?_, fun st => ?_, fun site hsite => ?_, fun f => ?_, fun p hport => ⟨?_, ?_⟩⟩
  · intro e
    obtain ⟨t, ht, hpow, hcrown, hstn⟩ := execChkcntClr_clears (st := st) e hs hl
    have cleared : t.stations[st].chk[e] = { s.stations[st].chk[e] with replays := 0, fails := 0, last := 0 } := by
      rw [hstn]; exact vupd_same ..
    refine ⟨t, ht, by rw [cleared], by rw [cleared], fun i q g hr hphase hheld => ?_⟩
    obtain ⟨w, hw, hstn'⟩ := execKettleElementStep_replayed g 0 (hr.of_chk hpow hcrown hstn) (by rw [hstn]; exact hphase)
      (by rw [hstn]; exact hheld)
    refine ⟨w, hw, ?_⟩
    rw [hstn', Station.elemStepped_chk]
    refine (congrArg ChkCnt.replays (vupd_same ..)).trans ?_
    rw [cleared]
    rfl
  · obtain ⟨t, ht, -, -, hstn⟩ := execChkcntClr_clears (st := st) e hs hl
    exact ⟨t, ht, by rw [hstn]; exact vupd_same .., fun e' he' => by rw [hstn]; exact vupd_ne _ he'⟩
  · exact ⟨_, show execPanEccClr st s = _ from occurs_of hs hp, congrArg Station.pantry (State.updStn_same ..), fun st' h => State.updStn_ne _ h⟩
  · refine ⟨_, show execMemErrcntClr site s = _ from occurs_of hs (by rw [hp, hsite]; rfl), State.updStack_same .., fun o ho => State.updStack_ne _ ho, rfl⟩
  · exact ⟨_, show execMbxChkcntClr f s = _ from occurs_of hs hl, State.updMbx_same .., fun f' hf => State.updMbx_ne _ hf⟩
  · exact ⟨_, show execFabLinkcntClr p s = _ from occurs_of hs (by rw [hp, hport]; rfl), State.updPort_same ..⟩
  · exact ⟨_, show execFabFrmcntClr p s = _ from occurs_of hs (by rw [hp, hport]; rfl), State.updPort_same ..⟩

end Sys2Proof.Machine
end

section
/-! The commands on sessions (R51, R252 to R255): what each command's run leaves in the record of its session. -/

namespace Sys2Proof.Machine

/-! ## Records -/

@[simp] theorem Session.commit_cv (x : Session) (b : SesBody) : (x.commit b).cv = !x.cv := by
  unfold Session.commit; cases h : x.cv <;> rfl

@[simp] theorem Session.commit_jobs (x : Session) (b : SesBody) : (x.commit b).jobs = x.jobs := by
  unfold Session.commit; split <;> rfl

@[simp] theorem Session.commit_closers (x : Session) (b : SesBody) : (x.commit b).closers = x.closers := by
  unfold Session.commit; split <;> rfl

@[simp] theorem Session.commit_modlist (x : Session) (b : SesBody) : (x.commit b).modlist = x.modlist := by
  unfold Session.commit; split <;> rfl

theorem State.session_tick (s : State) (i : Nat) : s.tick.session i = s.session i := rfl

theorem State.session_reply (s : State) (r : ReqRef) (c : Byte) (p : List Byte) (i : Nat) : (s.reply r c p).session i = s.session i := by
  rw [State.session_eq, State.reply_crown, ← State.session_eq]

theorem State.session_updSession_ne {s : State} {i k : Nat} (g : Session → Session) (h : k ≠ i) :
    (s.updSession i g).session k = s.session k := by
  rw [State.session_eq, State.updSession_get?, if_neg h, ← State.session_eq]

/-- A record that is not free stands in the table. -/
theorem State.session_listed {s : State} {i : Nat} (h : (s.session i).body.state ≠ .free) :
    s.crown.sessions.get? i = some (s.session i) := by
  cases hi : s.crown.sessions.get? i with
  | some y => rw [State.session_eq, hi]; rfl
  | none => exact absurd (by rw [State.session_eq, hi]; rfl) h

theorem State.session_updSession {s : State} {i : Nat} {y : Session} (g : Session → Session) (h : s.crown.sessions.get? i = some y) :
    (s.updSession i g).session i = g y := by
  rw [State.session_eq, State.updSession_get?, if_pos rfl, h]; rfl

/-- The session table with record `i` put to `x`. -/
def State.putSession (s : State) (i : Nat) (x : Session) : State :=
  { s with crown := { s.crown with sessions := s.crown.sessions.put i x } }

theorem State.session_putSession (s : State) (i k : Nat) (x : Session) :
    (s.putSession i x).session k = if k = i then x else s.session k := by
  rw [State.session_eq, State.putSession, Tab.get?_put]
  split <;> rfl

/-- A reply to the request that was taken joins its function's answers. -/
theorem State.replies_reply {s t : State} {f : Fin 64} (e : ReqEntry) (c : Byte) (p : List Byte) (hm : t.mbx = (s.popReq f).mbx)
    (hen : s.mbx[f].en = true) : (t.reply (e.ref f) c p).mbx[f].replies =
      s.mbx[f].replies ++ [⟨(e.ref f).op, (e.ref f).tag, c, false, (e.ref f).rqidx, p, 0, none⟩] := by
  have hf : t.mbx[f] = { s.mbx[f] with taken := s.mbx[f].taken.tail } := by rw [hm, State.popReq_mbx, if_pos rfl]
  rw [State.reply_mbx, if_pos ⟨rfl, (congrArg Mbx.en hf).trans hen⟩, hf]

/-! ## Modulus lists -/

theorem allSome_none {α : Type} {l : List (Option α)} (h : none ∈ l) : allSome l = none := by
  induction l with
  | nil => cases h
  | cons x l ih =>
    cases x with
    | none => rfl
    | some x => rw [allSome, ih (by simpa using h)]; rfl

/-- The first missing entry of a list, where it lacks one. -/
theorem allSome_first {α β : Type} {g : α → Option β} {l : List α} {k : Nat}
    (hb : ∀ j < k, ∃ m, l[j]? = some m ∧ (g m).isSome = true) (hk : ∃ m, l[k]? = some m ∧ g m = none) :
    allSome (l.map g) = none ∧ (l.map g).findIdx (fun e => e.isNone) = k := by
  obtain ⟨m, hm, hg⟩ := hk
  obtain ⟨hlt, rfl⟩ := List.getElem?_eq_some_iff.mp hm
  refine ⟨allSome_none (List.mem_map.mpr ⟨_, List.getElem_mem hlt, hg⟩), ?_⟩
  rw [List.findIdx_eq (by rwa [List.length_map])]
  refine ⟨by rw [List.getElem_map, hg]; rfl, fun j hj => ?_⟩
  obtain ⟨n, hn, hs⟩ := hb j hj
  obtain ⟨_, rfl⟩ := List.getElem?_eq_some_iff.mp hn
  rw [List.getElem_map, Option.isNone_eq_false_iff]
  exact hs

/-! ## The commands -/

section
variable {s : State} {f : Fin 64} {e : ReqEntry}

theorem execSessionOpen_opens {k : Nat} (ht : s.Takes f 0x10 [(0, 2), (2, 2), (4, 2), (8, 4), (0xC, 32)] e)
    (hok : s.openOk f e.bytes = true) (hk : s.openRecord f = some k) :
    exec (.sessionOpen f) s = .next (((((s.popReq f).putSession k ((s.session k).commit (openBody f e.bytes))).reply (e.ref f)
      Code.ok (natLe 2 k)).tick).settle f) := by
  change execSessionOpen f s = _
  rw [execSessionOpen, cmdRow_of ht (pf := false) (owner := false) nofun nofun]
  dsimp only
  rw [show (s.popReq f).openOk (e.ref f).f e.bytes = true from hok, show (s.popReq f).openRecord (e.ref f).f = some k from hk]
  rfl

/-- The record of an open session whose close has been accepted and not finished. -/
def Session.closing (x : Session) (r : ReqRef) : Session :=
  { x with closers := x.closers ++ [r] }.commit { x.body with state := .closing }

theorem execSessionClose_closes (ht : s.Takes f 0x11 [] e) (ho : s.Owns f e) :
    exec (.sessionClose f) s = .next (((((s.popReq f).updSession (reqSession e.bytes) fun x =>
      if x.body.state = .opened then x.closing (e.ref f) else { x with closers := x.closers ++ [e.ref f] }).reply (e.ref f)
        Code.accepted).closeCheck (reqSession e.bytes)).settle f) := by
  change execSessionClose f s = _
  rw [execSessionClose, ownerRow_of ht ho]
  rfl

/-- The record that holds a list of so many entries: where the list lies is free. -/
def Session.listed (x : Session) (n fresh : Nat) (l : List ModEntry) : Session :=
  { x with modlist := l }.commit { x.body with mlcount := BitVec.ofNat 8 n, mladdr := BitVec.ofNat 64 (Config.freeNat fresh) }

/-- What is done with a list whose entries have been derived: it is stored, or its first bad entry is named. -/
def State.takeModlist (s : State) (r : ReqRef) (i n : Nat) (es : List (Option ModEntry)) : State :=
  match allSome es with
  | none => s.reply r Code.badOperand (natLe 1 (es.findIdx fun e => e.isNone))
  | some l => ((s.updSession i fun x => x.listed n s.fresh l).reply r Code.ok).tick

/-- A list whose length is in range, of a session without jobs, is validated. -/
theorem execSessionModlist_takes {d : List Byte} (ht : s.Takes f 0x12 [(0, 1), (8, 8)] e) (ho : s.Owns f e)
    (h1 : 1 ≤ pay e.bytes 0 1) (h2 : pay e.bytes 0 1 ≤ 128) (hj : (s.session (reqSession e.bytes)).jobs = 0)
    (hd : d.length = 8 * pay e.bytes 0 1) :
    exec (.sessionModlist f (some d)) s = .next (((s.popReq f).takeModlist (e.ref f) (reqSession e.bytes) (pay e.bytes 0 1)
      ((modEntries (pay e.bytes 0 1) d).map fun m => deriveFor (s.digitOnly (reqSession e.bytes)) m.1 m.2)).settle f) := by
  change execSessionModlist f (some d) s = _
  rw [execSessionModlist, ownerRow_of ht ho]
  dsimp only
  rw [if_neg (by omega), if_neg (by rw [show ((s.popReq f).session _).jobs = 0 from hj]; exact Nat.lt_irrefl 0), filter_length_some hd]
  rfl
end

/-- Settles O33: each command changes the record that it names, and its reply joins the function's. -/
theorem sessionCommands : Obligations.SessionCommands := by
  intro f s e r b u i x
  refine ⟨fun k ht hok hk => ?_, fun ht ho hopen => ?_, fun d l ht ho h1 h2 hj hd => ⟨fun hl => ?_, fun k hb hk => ?_⟩⟩
  · have record (k' : Nat) : (((u.putSession k ((s.session k).commit (openBody f b))).reply r Code.ok (natLe 2 k)).tick).session k' =
        if k' = k then (s.session k).commit (openBody f b) else s.session k' :=
      (State.session_reply ..).trans (State.session_putSession ..)
    refine ⟨_, execSessionOpen_opens ht hok hk, ?_, ?_, fun k' hk' => ?_, State.replies_reply e _ _ rfl⟩
    · rw [record, if_pos rfl, Session.commit_body]; rfl
    · rw [record, if_pos rfl, Session.commit_cv]
    · rw [record, if_neg hk']
  · have hx : u.crown.sessions.get? i = some x := State.session_listed (hopen ▸ nofun : x.body.state ≠ .free)
    have record := State.session_updSession (s := u)
      (fun x => if x.body.state = .opened then x.closing r else { x with closers := x.closers ++ [r] }) hx
    rw [if_pos hopen] at record
    refine ⟨_, execSessionClose_closes ht ho, ?_⟩
    rw [State.session_reply, record, Session.closing, Session.commit_body, Session.commit_closers, Session.commit_jobs]
    exact ⟨rfl, rfl, rfl, rfl, fun k' hk' => by rw [State.session_reply, State.session_updSession_ne _ hk']; rfl,
      State.replies_reply e _ _ rfl⟩
  · rw [execSessionModlist_takes ht ho h1 h2 hj hd, State.takeModlist, hl]
    dsimp only
    refine ⟨_, rfl, fun y hy => ?_⟩
    rw [State.session_tick, State.session_reply, State.session_updSession (s := s.popReq f) _ hy, Session.listed, Session.commit_modlist, Session.commit_body]
    exact ⟨rfl, Nat.mod_eq_of_lt (Nat.lt_of_le_of_lt h2 (by decide))⟩
  · obtain ⟨hnone, hfirst⟩ := allSome_first (g := fun m : Nat × Nat => deriveFor (s.digitOnly i) m.1 m.2) hb hk
    rw [execSessionModlist_takes ht ho h1 h2 hj hd, State.takeModlist, hnone]
    dsimp only
    rw [hfirst]

end Sys2Proof.Machine
end

section
/-! The loads of the engines' stores (R56, R69, R72, R97): what a GLOAD's slot and an SLOAD's cache rows hold. -/

namespace Sys2Proof.Machine

/-! ## GLOAD -/

/-- Two lists that run over the same places go together place by place. -/
theorem zipWith_map_map_same {α β γ δ : Type} (f : β → γ → δ) (g : α → β) (h : α → γ) (l : List α) :
    List.zipWith f (l.map g) (l.map h) = l.map fun x => f (g x) (h x) := by rw [List.zipWith_map, List.zipWith_self]

/-- Weights that their columns can hold pass the check of a tile. -/
theorem tile_weightsOk {n fmt : Nat} {m : Nat → ModEntry} {raw : Nat → Nat → Int}
    (h : ∀ f < n, ∀ c < n, weightOk (m c) fmt (raw f c) = true) :
    (((List.range n).map fun f => (List.range n).map fun c => raw f c).all fun r =>
      (List.zipWith (fun m w => weightOk m fmt w) ((List.range n).map m) r).all id) = true := by
  simp only [List.all_map, List.all_eq_true, List.mem_range]
  intro f hf
  simp only [Function.comp_apply, zipWith_map_map_same, List.all_map, List.all_eq_true, List.mem_range]
  exact h f hf

theorem tile_words (n : Nat) (m : Nat → ModEntry) (raw : Nat → Nat → Int) :
    (((List.range n).map fun f => (List.range n).map fun c => raw f c).map fun r => List.zipWith weightWord ((List.range n).map m) r) =
      (List.range n).map fun f => (List.range n).map fun c => weightWord (m c) (raw f c) := by
  simp only [List.map_map, Function.comp_def, zipWith_map_map_same]

/-- The side sums of a slot, column by column. -/
theorem tile_side (n : Nat) (m : Nat → ModEntry) (w : List (List Nat)) :
    ((List.range n).map fun c =>
      (w.map fun r => ((centred (((List.range n).map m).getD c ModEntry.reset).q (r.getD c 0)) ^ 2).toNat).sum) =
      (List.range n).map fun c => (w.map fun r => ((centred (m c).q (r.getD c 0)) ^ 2).toNat).sum := by
  refine List.map_congr_left fun c hc => ?_
  have hc := List.mem_range.mp hc
  rw [List.getD_eq_getElem?_getD, List.getElem?_map, List.getElem?_range hc]
  rfl

/-- The slot that a GLOAD of a tile at window offset `a` loads. -/
def Station.gloadSlot (t : Station) (iw : BitVec 128) (a : Nat) : Slot :=
  let fmt := modsFld iw 5 3
  let percol := bitAt (modsOf iw) 4
  let m := fun c => t.colMod percol (t.mod0 iw) c
  let w := (List.range 128).map fun f => (List.range 128).map fun c =>
    weightWord (m c) (tileElem fmt (bitAt (modsOf iw) 3) (t.rd a (tileBytes fmt)) f c)
  ⟨true, percol, t.mod0 iw, w.map fun r => r.map (BitVec.ofNat 32),
    (List.range 128).map fun c => (w.map fun r => ((centred (m c).q (r.getD c 0)) ^ 2).toNat).sum, w.map fun r => r.map (· % 8191)⟩

theorem planGload_go {t : Station} {e : QEntry} {a : Nat} (g : Fin 2) (s : State) (ha : e.ea0 = a) (halign : a % 512 = 0)
    (hwin : t.inWin a (tileBytes (modsFld e.iw 5 3)) = true) (hfmt : modsFld e.iw 5 3 ≤ 3)
    (hmod : bitAt (modsOf e.iw) 4 = false → (t.modAt (t.mod0 e.iw)).valid = true)
    (hw : ∀ f < 128, ∀ c < 128, weightOk (t.colMod (bitAt (modsOf e.iw) 4) (t.mod0 e.iw) c) (modsFld e.iw 5 3)
      (tileElem (modsFld e.iw 5 3) (bitAt (modsOf e.iw) 3) (t.rd a (tileBytes (modsFld e.iw 5 3))) f c) = true) :
    planGload g s t e = .go (t.updGriddle g fun gr =>
      { gr with slots := gr.slots.setIfInBounds (t.slotOf e.iw (modsFld e.iw 0 3)) (t.gloadSlot e.iw a) }) e := by
  have hmod' : (!bitAt (modsOf e.iw) 4 && !(t.modAt (t.mod0 e.iw)).valid) = false := by
    cases h : bitAt (modsOf e.iw) 4 with
    | true => rfl
    | false => rw [hmod h]; rfl
  have passed : firstFault [(decide (e.ea0 % 512 ≠ 0), Code.alignFault),
      (!t.inWin e.ea0 (tileBytes (modsFld e.iw 5 3)), Code.boundFault), (decide (3 < modsFld e.iw 5 3), Code.badOperand),
      (!bitAt (modsOf e.iw) 4 && !(t.modAt (t.mod0 e.iw)).valid, Code.badOperand)] = none := by
    rw [ha, hwin, hmod', decide_eq_false (by omega : ¬ ((a : Int) % 512 ≠ 0)), decide_eq_false (by omega)]
    rfl
  rw [planGload]
  dsimp only
  rw [passed, ha, Int.toNat_natCast]
  dsimp only
  rw [if_pos (tile_weightsOk hw), tile_words, tile_side]
  rfl

/-! ## SLOAD -/

/-- The rows before the first that a test stops, or all of them. -/
theorem takeWhile_map_range {α : Type} {p : α → Bool} {g : Nat → α} {n k : Nat} (hn : n ≤ k) (hb : ∀ j < n, p (g j) = true)
    (hstop : n < k → p (g n) = false) : ((List.range k).map g).takeWhile p = (List.range n).map g := by
  have hpre : ∀ x ∈ (List.range n).map g, p x = true := by simpa using hb
  obtain ⟨m, rfl⟩ := Nat.exists_eq_add_of_le hn
  rw [List.range_add, List.map_append, List.takeWhile_append_of_pos hpre]
  cases m with
  | zero => exact List.append_nil _
  | succ m =>
    rw [List.range_succ_eq_map, List.map_cons, List.map_cons, List.takeWhile_cons_of_neg, List.append_nil]
    rw [Nat.add_zero, hstop (by omega)]
    exact Bool.false_ne_true

/-- Row `j` of the operand of an SLOAD at window offset `a`. -/
def Station.sloadRow (t : Station) (a j : Nat) : List Word := wordsOf (t.rd (a + 512 * j) 512)

/-- A cache row's words may be tagged SGN or RES as asked (R97). -/
def sloadOk (sgn : Bool) (ws : List Word) : Bool := !sgn || ws.all fun w => decide (w.toInt.natAbs ≤ 2 ^ 15)

theorem sloadOk_iff {sgn : Bool} {ws : List Word} : sloadOk sgn ws = true ↔ (sgn = true → ∀ w ∈ ws, w.toInt.natAbs ≤ 2 ^ 15) := by
  cases sgn <;> simp [sloadOk]

/-- The station after the first `n` rows of an SLOAD have been written to its cache. -/
def Station.sloaded (t : Station) (v : Fin 2) (p : Skl) (a n : Nat) : Station :=
  { t with skillets := vupd t.skillets v fun k =>
    { k with cache := (List.range n).foldl (fun c j => c.put (p.crow + j) ⟨p.sgn, t.sloadRow a j⟩) k.cache } }

/-- An SLOAD writes the rows before the first that has a value out of range, and goes on where there is none. -/
theorem planSload_of {t : Station} {e : QEntry} {a n : Nat} (v : Fin 2) (s : State) (ha : e.ea0 = a) (halign : a % 512 = 0)
    (hwin : t.inWin a (512 * (t.sklOf e.iw).k) = true) (hrows : (t.sklOf e.iw).crow + (t.sklOf e.iw).k ≤ 128)
    (hn : n ≤ (t.sklOf e.iw).k) (hb : ∀ j < n, sloadOk (t.sklOf e.iw).sgn (t.sloadRow a j) = true)
    (hstop : n < (t.sklOf e.iw).k → sloadOk (t.sklOf e.iw).sgn (t.sloadRow a n) = false) :
    planSload v s t e = if n = (t.sklOf e.iw).k then .go (t.sloaded v (t.sklOf e.iw) a n) e
      else .stop (t.sloaded v (t.sklOf e.iw) a n) Code.badOperand := by
  have passed : firstFault [(decide (e.ea0 % 512 ≠ 0), Code.alignFault), (!t.inWin e.ea0 (512 * (t.sklOf e.iw).k), Code.boundFault),
      (decide (128 < (t.sklOf e.iw).crow + (t.sklOf e.iw).k), Code.badOperand)] = none := by
    rw [ha, hwin, decide_eq_false (by omega : ¬ ((a : Int) % 512 ≠ 0)), decide_eq_false (by omega)]
    rfl
  have good := takeWhile_map_range (p := fun r : Nat × List Word => sloadOk (t.sklOf e.iw).sgn r.2)
    (g := fun j => ((t.sklOf e.iw).crow + j, t.sloadRow a j)) hn hb hstop
  unfold sloadOk Station.sloadRow at good
  rw [planSload]
  dsimp only
  rw [passed, ha, Int.toNat_natCast]
  dsimp only
  rw [good, List.length_map, List.length_range]
  simp only [List.foldl_map]
  rfl

/-- Settles O7: each plan's checks pass, so that it loads what the statement lists. -/
theorem loadsFillStores : Obligations.LoadsFillStores := by
  intro st g s i a e t
  refine ⟨?_, ?_⟩
  · intro hi fmt percol raw m w ha halign hwin hfmt hmod hw side new
    exact opRead_plan hi (planGload_go g s ha halign hwin hfmt hmod hw)
  · intro hi p row loaded ha halign hwin hrows
    refine ⟨fun hok => opRead_plan hi ?_, fun n hn hsgn hb hstop => opRead_plan hi ?_⟩
    · refine (planSload_of g s ha halign hwin hrows (Nat.le_refl _) (fun j hj => sloadOk_iff.mpr fun h => hok h j hj)
        fun h => absurd h (Nat.lt_irrefl _)).trans (if_pos rfl)
    · refine (planSload_of g s ha halign hwin hrows (Nat.le_of_lt hn) (fun j hj => sloadOk_iff.mpr fun _ => hb j hj) fun _ => ?_).trans
        (if_neg (Nat.ne_of_lt hn))
      obtain ⟨w, hw, hbig⟩ := hstop
      exact Bool.eq_false_iff.mpr fun h => absurd (sloadOk_iff.mp h hsgn w hw) (by omega)

end Sys2Proof.Machine
end

section
/-! The check units of the Griddles and the Whisks that pass (R75, R76, R82, R89, R92): what a unit leaves of its station. -/

namespace Sys2Proof.Machine

/-! ## Bytes of a window -/

/-- Writes at window offsets change the bytes of the Pantry alone. -/
theorem Station.wrAll_eq (t : Station) (ws : List (Nat × List Byte)) :
    t.wrAll ws = { t with pantry := { t.pantry with mem := (t.wrAll ws).pantry.mem } } := by
  unfold Station.wrAll
  induction ws generalizing t with
  | nil => rfl
  | cons w ws ih => rw [List.foldl_cons, ih]; rfl

/-- A byte outside every piece written stays. -/
theorem Station.wrAll_read_out {t : Station} {ws : List (Nat × List Byte)} {a : Nat}
    (h : ∀ x ∈ ws, a < t.phys x.1 ∨ t.phys x.1 + x.2.length ≤ a) : (t.wrAll ws).pantry.mem.read a = t.pantry.mem.read a := by
  induction ws generalizing t with
  | nil => rfl
  | cons w ws ih =>
    obtain ⟨hw, hws⟩ := List.forall_mem_cons.mp h
    exact (ih (t := t.wr w.1 w.2) hws).trans (Mem.read_writeN_out _ hw)

theorem Station.blur_eq (t : Station) (n : Nat) (ws : List (Nat × List Byte)) :
    t.blur n ws = { t with pantry := { t.pantry with mem := (t.blur n ws).pantry.mem } } := Station.wrAll_eq ..

theorem Station.blur_read_out {t : Station} {n : Nat} {ws : List (Nat × List Byte)} {a : Nat}
    (h : ∀ x ∈ ws, a < t.phys x.1 ∨ t.phys x.1 + x.2.length ≤ a) : (t.blur n ws).pantry.mem.read a = t.pantry.mem.read a :=
  Station.wrAll_read_out fun x hx => by
    obtain ⟨y, hy, rfl⟩ := List.mem_map.mp hx
    simpa using h y hy

@[simp] theorem Station.blur_griddles (t : Station) (n : Nat) (ws : List (Nat × List Byte)) :
    (t.blur n ws).griddles = t.griddles := by rw [Station.blur_eq]
@[simp] theorem Station.blur_queues (t : Station) (n : Nat) (ws : List (Nat × List Byte)) :
    (t.blur n ws).queues = t.queues := by rw [Station.blur_eq]
@[simp] theorem Station.blur_ctrs (t : Station) (n : Nat) (ws : List (Nat × List Byte)) :
    (t.blur n ws).ctrs = t.ctrs := by rw [Station.blur_eq]
@[simp] theorem Station.blur_flags (t : Station) (n : Nat) (ws : List (Nat × List Byte)) :
    (t.blur n ws).flags = t.flags := by rw [Station.blur_eq]
@[simp] theorem Station.blur_descs (t : Station) (n : Nat) (ws : List (Nat × List Byte)) :
    (t.blur n ws).descs = t.descs := by rw [Station.blur_eq]

/-- Successive changes of one station with the counter moved on in between are one change. -/
theorem State.updStn_tick_updStn (s : State) (st : Fin 16) (f g : Station → Station) :
    (s.updStn st f).tick.updStn st g = (s.putStn st (g (f s.stations[st]))).tick :=
  congrArg State.tick (State.updStn_putStn s st (f s.stations[st]) g)

/-! ## Griddles -/

@[simp] theorem Griddle.afterPass_rows (x : Griddle) (p : Gmac) (sums ins outs : List (List Nat)) (n : Nat) :
    (x.afterPass p sums ins outs n).rows = x.rows := rfl

@[simp] theorem Griddle.afterPass_slots (x : Griddle) (p : Gmac) (sums ins outs : List (List Nat)) (n : Nat) :
    (x.afterPass p sums ins outs n).slots = x.slots := rfl

section
variable {s : State} {st : Fin 16} {g : Fin 2} {i : Nat} {e : QEntry}

/-- The station after a pass of a GMAC whose compare agreed. -/
def Station.passed (t : Station) (g : Fin 2) (i : Nat) (e : QEntry) (fresh : Nat) : Station :=
  let p := t.gmacOf e.iw
  let chain := t.chain g e.iw p
  let w := t.griddles[g].width
  (((t.updGriddle g fun x => { x with rows := wrapAdd x.rows (p.passRows e.done) }).passDone g p chain w e.ea0.toNat e.ea1.toNat e.done
    fresh).updAt (qGriddle g) i fun x => x.unitOut (t.passOut p chain w e.ea0.toNat e.ea1.toNat e.done))

/-- A running entry stands at its place of the queue. -/
theorem Station.runningOp_get {t : Station} {q : Fin 22} {ops : List Nat} (h : t.runningOp q ops = some (i, e)) :
    t.queues[q][i]? = some e := by
  obtain ⟨j, _, hj⟩ := Option.bind_eq_some_iff.mp h
  obtain ⟨e', he, hij⟩ := Option.map_eq_some_iff.mp hj
  cases hij
  exact he

/-- Changes of an entry that agree on the one that stands there are the same. -/
theorem Station.updAt_congr {t : Station} {q : Fin 22} {f f' : QEntry → QEntry} (h : t.queues[q][i]? = some e) (hf : f e = f' e) :
    t.updAt q i f = t.updAt q i f' := by
  have : lupd t.queues[q] i f = lupd t.queues[q] i f' := by
    refine List.ext_getElem? fun j => ?_
    rw [lupd, lupd, List.getElem?_modify, List.getElem?_modify]
    split
    · next hj => subst hj; rw [h]; exact congrArg some hf
    · rfl
  rw [Station.updAt, Station.updAt, vupd, vupd, this]

theorem execGriddlePass_passes (hb : s.isBorrowed st (qGriddle g) = false) (h : s.Running st (qGriddle g) 0x21 i e)
    (hok : s.stations[st].passOk (s.stations[st].gmacOf e.iw) e.ea0.toNat e.done = true) :
    exec (.griddlePass st g .pass .clean) s = .next (s.putStn st (s.stations[st].passed g i e s.fresh)).tick := by
  change execGriddlePass st g .pass .clean s = _
  rw [execGriddlePass, if_neg (by rw [hb]; exact Bool.false_ne_true), runRow_of h rfl]
  dsimp only
  rw [State.eccSeen_clean, if_pos hok, State.checked_pass, if_pos rfl, Nat.mul_one, State.updStn_tick_updStn, State.updStn_same,
    State.updStn_eq_putStn, State.putStn_putStn]
  rfl

/-- What a pass leaves of its Griddle's counts and slots, of the queues, of the bytes outside its results' places and of the
scoreboard. -/
theorem Station.passed_frame (t : Station) (g : Fin 2) (i : Nat) (e : QEntry) (fresh : Nat) :
    let p := t.gmacOf e.iw
    let out := t.passOut p (t.chain g e.iw p) t.griddles[g].width e.ea0.toNat e.ea1.toNat e.done
    let u := t.passed g i e fresh
    u.griddles[g].rows = wrapAdd t.griddles[g].rows (p.passRows e.done) ∧ u.griddles[g].slots = t.griddles[g].slots ∧
      u.queues = (t.updAt (qGriddle g) i fun x => x.unitOut out).queues ∧
      (∀ a, (∀ x ∈ out, a < t.phys x.1 ∨ t.phys x.1 + x.2.length ≤ a) → u.pantry.mem.read a = t.pantry.mem.read a) ∧
      u.ctrs = t.ctrs ∧ u.flags = t.flags := by
  intro p out u
  have hrows : u.griddles[g].rows = wrapAdd t.griddles[g].rows (p.passRows e.done) := by
    simp only [u, p, Station.passed, Station.passDone, Station.updAt, Station.blur_griddles, Station.updGriddle, vupd_vupd, vupd_same,
      Griddle.afterPass_rows]
  have hslots : u.griddles[g].slots = t.griddles[g].slots := by
    simp only [u, Station.passed, Station.passDone, Station.updAt, Station.blur_griddles, Station.updGriddle, vupd_vupd, vupd_same,
      Griddle.afterPass_slots]
  have hq : u.queues = (t.updAt (qGriddle g) i fun x => x.unitOut out).queues := by
    simp only [u, Station.passed, Station.passDone, Station.updAt, Station.blur_queues]
    rfl
  refine ⟨hrows, hslots, hq, fun a ha => ?_, ?_, ?_⟩
  · simp only [u, Station.passed, Station.passDone, Station.updAt]
    exact Station.blur_read_out (t := Station.updGriddle _ g _) ha
  · simp only [u, Station.passed, Station.passDone, Station.updAt, Station.blur_ctrs, Station.updGriddle]
  · simp only [u, Station.passed, Station.passDone, Station.updAt, Station.blur_flags, Station.updGriddle]

theorem Station.blur_kdD (t : Station) (n : Nat) (ws : List (Nat × List Byte)) (iw : BitVec 128) : (t.blur n ws).kdD iw = t.kdD iw := by
  rw [Station.blur_eq]; rfl

theorem execGkeydotBlock_passes (hb : s.isBorrowed st (qGriddle g) = false) (h : s.Running st (qGriddle g) 0x22 i e)
    (hkeys : 256 * s.stations[st].kdD e.iw ≤ s.stations[st].griddles[g].keyFifo.length)
    (hcanon : ∀ r ∈ s.stations[st].blockDigits e, ∀ x ∈ r, x < (s.stations[st].modAt (s.stations[st].mod0 e.iw +
      e.done / ((Hdr.ofBytes ((e.hdrs.headD ⟨0, [], false⟩).bytes)).n / 128))).q) :
    let t := s.stations[st]
    exec (.gkeydotBlock st g (.pass, .clean)) s = .next (s.putStn st (((t.blur s.fresh (t.blockOut g e)).updGriddle g fun x =>
      { x with keyFifo := x.keyFifo.drop (256 * t.kdD e.iw), krows := wrapAdd x.krows (t.kdD e.iw) }).updAt (qGriddle g) i fun e' =>
        e'.unitOut (t.blockOut g e))).tick := by
  intro t
  change execGkeydotBlock st g (.pass, .clean) s = _
  rw [execGkeydotBlock, if_neg (by rw [hb]; exact Bool.false_ne_true), runRow_of h (decide_eq_true hkeys)]
  dsimp only
  rw [State.eccSeen_clean, if_pos (by simpa only [List.all_eq_true, decide_eq_true_eq] using hcanon), State.checked_pass,
    State.updStn_tick_updStn, Station.blur_kdD]

/-! ## Whisks -/

theorem Station.whiskQueue_running {t : Station} (h : t.runningOp (qWhisk g) [0x30] = some (i, e)) : t.whiskQueue g = qWhisk g := by
  rw [Station.whiskQueue, h]; rfl

/-- A stage of a WNTT on one Whisk. -/
theorem execWhiskStage_passes (hb : s.isBorrowed st (qWhisk g) = false) (h : s.Running st (qWhisk g) 0x30 i e)
    (hone : (s.stations[st].wnttOf e.iw).both = false)
    (hleft : e.done < stagesOf (Hdr.ofBytes ((e.hdrs.headD ⟨0, [], false⟩).bytes))
      ((Hdr.ofBytes ((e.hdrs.headD ⟨0, [], false⟩).bytes)).polys * (s.stations[st].wnttOf e.iw).limbs)) :
    exec (.whiskStage st g .pass) s = .next (s.putStn st (s.stations[st].stagePassed g (qWhisk g) i e)) := by
  have ⟨_, _, hr⟩ := h
  have ready : stageReady g (qWhisk g) s.stations[st] e = true := by
    rw [stageReady, hone, beq_self_eq_true, Bool.or_true, Bool.true_and]
    exact decide_eq_true hleft
  change execWhiskStage st g .pass s = _
  rw [execWhiskStage, if_neg (by rw [hb]; exact Bool.false_ne_true)]
  dsimp only
  rw [Station.whiskQueue_running hr, runRow_of h ready]
  rfl
end

/-- Settles O16: a unit whose compare agrees takes its row's one path. -/
theorem passesEnd : Obligations.PassesEnd := by
  intro st g s i e
  dsimp only
  refine ⟨fun hb h hok _ => ⟨_, execGriddlePass_passes hb h hok, ?_⟩,
    fun hb h hkeys hcanon => execGkeydotBlock_passes hb h hkeys hcanon, fun hb h hone hleft => ?_, fun q x => checkAgrees_barrett⟩
  · obtain ⟨hrows, hslots, hqueues, hmem, hctrs, hflags⟩ := s.stations[st].passed_frame g i e s.fresh
    obtain ⟨_, _, hr⟩ := h
    exact ⟨hrows, hslots, hqueues.trans (congrArg Station.queues (Station.updAt_congr (Station.runningOp_get hr) rfl)), hmem, hctrs,
      hflags⟩
  · refine (execWhiskStage_passes hb h hone hleft).trans ?_
    simp only [Station.stagePassed, stagesDone, groupLimbs, hone, Bool.false_and, Bool.false_eq_true, if_false, Nat.zero_add]
    rfl

end Sys2Proof.Machine
end

section
/-! The loss of a reference (R360): nothing but the pins, the log's writing and the TAP acts on a module left unspecified, and the
loss of a FAB_REFCLK drops the ports of its die alone. -/

namespace Sys2Proof.Machine

section
variable {s : State}

/-! ## A module left unspecified -/

/-- No event occurs on a module left unspecified. -/
theorem occurs_of_lost {c : Bool} {f : State → State} (h : s.power.unspecified = true) : occurs s c f = .next s := by
  rw [occurs, h, Bool.not_true, Bool.and_false, if_neg Bool.false_ne_true]

theorem controlRow_of_lost {st : Fin 16} {op : Nat} {f : State → Station → BitVec 128 → State} (h : s.power.unspecified = true) :
    controlRow st op f s = .next s := occurs_of_lost h

theorem opRow_of_lost {st : Fin 16} {q : Fin 22} {op : Nat} {plan : State → Station → QEntry → Plan}
    (h : s.power.unspecified = true) : opRow st q op plan s = .next s := occurs_of_lost h

theorem opRead_of_lost {st : Fin 16} {q : Fin 22} {op : Nat} {ecc : EccEvent} {plan : State → Station → QEntry → Plan}
    (h : s.power.unspecified = true) : opRead st q op ecc plan s = .next s := occurs_of_lost h

theorem seRow_of_lost {st : Fin 16} {e : Fin 4} {op : Nat} {plan : State → Station → QEntry → Plan}
    (h : s.power.unspecified = true) : seRow st e op plan s = .next s := occurs_of_lost h

theorem runRow_of_lost {st : Fin 16} {q : Fin 22} {ops : List Nat} {ready : State → Station → QEntry → Bool}
    {f : State → Station → Nat → QEntry → State} (h : s.power.unspecified = true) : runRow st q ops ready f s = .next s :=
  occurs_of_lost h

theorem borrowedRow_of_lost {st : Fin 16} {q : Fin 22} {chk : Fin 12} {v : Verdict} (h : s.power.unspecified = true) :
    borrowedRow st q chk v s = .next s := occurs_of_lost h

theorem cmdRow_of_lost {f : Fin 64} {op : Nat} {fields : List (Nat × Nat)} {pf owner : Bool}
    {run : State → ReqRef → List Byte → State} (h : s.power.unspecified = true) : cmdRow f op fields pf owner run s = .next s :=
  occurs_of_lost h

theorem frameRow_of_lost {p : Fin 14} {frame : List Byte} {ftype : Nat} {ready : State → Bool} {f : State → FrameHdr → State}
    (h : s.power.unspecified = true) : frameRow p frame ftype ready f s = .next s := by
  unfold frameRow
  exact occurs_of_lost h

theorem answerRow_of_lost {p : Fin 14} {frame : List Byte} {ftype : Nat} {ready : State → Bool} {f : State → FrameHdr → State}
    (h : s.power.unspecified = true) : answerRow p frame ftype ready f s = .next s := by
  unfold answerRow
  split
  · exact occurs_of_lost h
  · exact frameRow_of_lost h

theorem bndRow_of_lost {u : Fin 4} {w : BndWrite} (h : s.power.unspecified = true) : bndRow u w s = .next s := occurs_of_lost h

theorem ite_stays {c : Prop} [Decidable c] {a b : Host.Outcome State Fault Refusal} (ha : a = .next s) (hb : b = .next s) :
    (if c then a else b) = .next s := by
  split
  · exact ha
  · exact hb

/-- A module left unspecified stays as it is under every command but the pins of power and reset, the log's writing and the TAP. -/
theorem exec_of_lost {c : Instr} (h : s.power.unspecified = true) (hc : c ≠ .perstNAssert ∧ c ≠ .thermtrip ∧
    c ≠ .undervoltageLockout ∧ c ≠ .refclk100Present ∧ c ≠ .p1PowerUp ∧ c ≠ .errorLogWrite ∧ ∀ i, c ≠ .tapInstruction i) :
    exec c s = .next s := by
  obtain ⟨hperst, htrip, hlockout, hrefclk, hp1, hlog, htap⟩ := hc
  unfold exec
  cases c with
  -- The commands that act.
  | perstNAssert => exact absurd rfl hperst
  | thermtrip => exact absurd rfl htrip
  | undervoltageLockout => exact absurd rfl hlockout
  | refclk100Present => exact absurd rfl hrefclk
  | p1PowerUp => exact absurd rfl hp1
  | errorLogWrite => exact absurd rfl hlog
  | tapInstruction i => exact absurd rfl (htap i)
  -- Rows of the sequencer and the engines.
  | nop | endCode | cset | cmpset | cload | cstore | loop => exact controlRow_of_lost h
  | mload | esync => exact opRow_of_lost h
  | ahdr | gload | gmac | gkeydot | wntt | sadd | ssub | sneg | saddc | snegm | smul | smulc | smac | srescale | smodsw | ssum |
    sload | krefresh | cxpose | cauto | cperm | bextract | bpack => exact opRead_of_lost h
  | xfer | xgather => exact seRow_of_lost h
  | kettleRotationStart | kettleElementStep | bextractPass | descriptorFetch | sieveRead => exact runRow_of_lost h
  | griddlePass | gkeydotBlock | whiskStage | keySwitchRound => exact ite_stays (borrowedRow_of_lost h) (runRow_of_lost h)
  -- Rows of the mailboxes, of frames and of Band.
  | deviceInfo | funcConfig | powerCap | resetWarm | resetCold | stationReset | memMargin | monSnapshot | sessionOpen |
    sessionClose | sessionModlist | sessionQuery | keysetRegister | keysetVerify | keysetActivate | keysetRetire | bufAlloc |
    bufFree | bufCommit | bufQuery | bufMap | bufUnmap | bufDma | jobSubmit | jobAbort | jobQuery | fwStage | fwActivate | attest |
    fabConfig | fabStatus | fabExport | fabUnexport => exact cmdRow_of_lost h
  | creditFrame | ackFrame | staleFrame | rdataFrame | holdFrame | capFrame => exact frameRow_of_lost h
  | dataFrame | readFrame => exact answerRow_of_lost h
  | bndInit | bndFeed8 | bndFeed16 | bndFeed32 | bndRunWrite | bndAnextWrite | bndAchk | bndAstatClr => exact bndRow_of_lost h
  -- Choices between events, the access to a unit, and single events.
  | functionLevelReset | imageConfirm | watchdogExpiry => exact ite_stays (occurs_of_lost h) (occurs_of_lost h)
  | memUnitAccess => exact if_neg (by rw [h, Bool.not_true, Bool.and_false]; exact Bool.false_ne_true)
  | frameRelay => unfold execFrameRelay; exact frameRow_of_lost h
  | remotePantryAccess => unfold execRemotePantryAccess; exact occurs_of_lost h
  | portTrain => unfold execPortTrain; exact occurs_of_lost h
  | endToEndRetransmit => unfold execEndToEndRetransmit; exact occurs_of_lost h
  | reservedFtypeFrame => unfold execReservedFtypeFrame; exact occurs_of_lost h
  | referenceLoss => unfold execReferenceLoss; exact occurs_of_lost h
  | _ => exact occurs_of_lost h

end

/-! ## The ports of an I/O die -/

/-- The transfers that a lost link ends leave every port. -/
theorem State.linkLost_ports (s : State) (p : Fin 14) : (s.linkLost p).fab.ports = s.fab.ports := by
  have kept : State.Keeps engineParts { s with fab := { s.fab with reads := s.fab.reads.filter fun r => r.port != p } }
      (s.linkLost p) := by
    unfold State.linkLost
    refine .next (State.foldl_keeps fun t y => ?_) (State.foldl_keeps fun _ _ => State.seLogged_keeps)
    split
    · exact State.foldl_keeps fun _ _ => State.seLogged_keeps
    · exact .refl ..
  have fab : (s.linkLost p).fab = _ := kept.same .fab (by decide)
  rw [fab]

theorem State.dropPort_ports (s : State) (p : Fin 14) (x : PState) :
    (s.dropPort p x).fab.ports = vupd s.fab.ports p fun y => y.clearLink x := by
  have h : (s.dropPort p x).fab.ports = vupd (s.linkLost p).fab.ports p fun y => y.clearLink x := rfl
  rw [h, State.linkLost_ports]

/-- What the loss of a die's reference makes of a port: one of the die that is not disabled falls to DOWN (R360). -/
def Port.dieFell (d : Fin 4) (p : Fin 14) (x : Port) : Port :=
  if portDie p = d.val ∧ x.state ≠ .disabled then x.clearLink .down else x

theorem Port.dieFell_idem (d : Fin 4) (p : Fin 14) (x : Port) : Port.dieFell d p (x.dieFell d p) = x.dieFell d p := by
  by_cases h : portDie p = d.val ∧ x.state ≠ .disabled
  · have fell : x.dieFell d p = x.clearLink .down := if_pos h
    rw [fell]
    exact if_pos ⟨h.1, PState.noConfusion⟩
  · have stays : x.dieFell d p = x := if_neg h
    rw [stays, stays]

/-- One port when a die's reference is lost: the step that dieDown repeats. -/
def State.portFell (d : Fin 4) (s : State) (q : Fin 14) : State :=
  if portDie q = d.val ∧ s.fab.ports[q].state ≠ .disabled then s.dropPort q .down else s

theorem State.portFell_ports (d : Fin 4) (s : State) (q : Fin 14) :
    (s.portFell d q).fab.ports = vupd s.fab.ports q (Port.dieFell d q) := by
  unfold State.portFell
  split
  · next h => rw [State.dropPort_ports, vupd, vupd, Port.dieFell, if_pos h]
  · next h => exact (vupd_id _ _ (if_neg h)).symm

theorem State.dieDown_eq (s : State) (d : Fin 4) : s.dieDown d = (List.finRange 14).foldl (State.portFell d) s := rfl

theorem State.dieDown_port (s : State) (d : Fin 4) (p : Fin 14) : (s.dieDown d).fab.ports[p] = s.fab.ports[p].dieFell d p := by
  have run (l : List (Fin 14)) : ∀ s : State, (l.foldl (State.portFell d) s).fab.ports[p] =
      if p ∈ l then s.fab.ports[p].dieFell d p else s.fab.ports[p] := by
    induction l with
    | nil => intro s; rfl
    | cons q l ih =>
      intro s
      rw [List.foldl_cons, ih]
      simp only [State.portFell_ports, vupd_get, List.mem_cons]
      by_cases hpq : p = q
      · subst hpq
        simp only [if_true, true_or, Port.dieFell_idem, ite_self]
      · simp only [hpq, if_false, false_or]
  rw [State.dieDown_eq, run, if_pos (List.mem_finRange p)]

/-! ## The loss -/

/-- The loss is noted in CLK_STATUS and logged (R360). -/
def State.noteLoss (s : State) (ref : RefLoss) (e : LogEvt) : State := ({ s with power := s.power.lose ref }.logEvt e).tick

theorem State.noteLoss_power (s : State) (ref : RefLoss) (e : LogEvt) : (s.noteLoss ref e).power = s.power.lose ref :=
  State.logEvt_power ..

theorem State.noteLoss_fab (s : State) (ref : RefLoss) (e : LogEvt) : (s.noteLoss ref e).fab = s.fab := State.logEvt_fab ..

theorem execReferenceLoss_refclk100 {s : State} (h : s.Specified) (hp : s.boot.state ≠ .off) :
    ∃ e, exec (.referenceLoss .refclk100) s = .next (s.noteLoss .refclk100 e) := by
  have row : exec (.referenceLoss .refclk100) s = execReferenceLoss .refclk100 s := rfl
  rw [row]
  unfold execReferenceLoss
  exact ⟨_, occurs_of h (by rw [bne_iff_ne.mpr hp]; rfl)⟩

theorem execReferenceLoss_fab {s : State} {d : Fin 4} (h : s.Specified) (hp : s.boot.state ≠ .off)
    (hd : bitAt s.grade.iodies.toNat d.val = true) :
    ∃ e, exec (.referenceLoss (.fab d)) s = .next ((s.noteLoss (.fab d) e).dieDown d) := by
  have row : exec (.referenceLoss (.fab d)) s = execReferenceLoss (.fab d) s := rfl
  rw [row]
  unfold execReferenceLoss
  exact ⟨_, occurs_of h (by rw [bne_iff_ne.mpr hp]; exact hd)⟩

end Sys2Proof.Machine
end

section
/-! The power cap's samples, temperatures and the writes of single registers (R84, R147, R169, R170, R215, R273, R278, R324, R364, R365):
what each operation makes of the field that it writes, bit by bit where the register is written by bits. -/

namespace Sys2Proof.Machine

/-! ## Bits of words -/

theorem bitAt_toNat {w : Nat} (x : BitVec w) (i : Nat) : bitAt x.toNat i = x.getLsbD i := by
  rw [bitAt_eq_testBit, BitVec.testBit_toNat]

theorem getLsbD_ofNat_two_pow {w i j : Nat} (h : j < w) : (BitVec.ofNat w (2 ^ i)).getLsbD j = decide (i = j) := by
  rw [BitVec.getLsbD_ofNat, Nat.testBit_two_pow, decide_eq_true h, Bool.true_and]

/-- A field kept as a word has the field's bits. -/
theorem getLsbD_ofNat_fld (v lo : Nat) {w i : Nat} (h : i < w) : (BitVec.ofNat w (fld v lo w)).getLsbD i = bitAt v (lo + i) := by
  rw [BitVec.getLsbD_ofNat, fld, Nat.testBit_mod_two_pow, Nat.testBit_div_two_pow, bitAt_eq_testBit, decide_eq_true h,
    Bool.true_and, Bool.true_and, Nat.add_comm]

/-- A mask's bits come from one word, the others from another. -/
theorem getLsbD_mix {w i : Nat} (keep old new : BitVec w) (h : i < w) :
    ((old &&& keep) ||| (new &&& ~~~keep)).getLsbD i = if keep.getLsbD i then old.getLsbD i else new.getLsbD i := by
  rw [BitVec.getLsbD_or, BitVec.getLsbD_and, BitVec.getLsbD_and, BitVec.getLsbD_not, decide_eq_true h]
  cases keep.getLsbD i <;> simp

/-- One bit of a word is set or cleared. -/
theorem getLsbD_putBit {w : Nat} (x : BitVec w) (i : Nat) {j : Nat} (b : Prop) [Decidable b] (h : j < w) :
    (if b then x ||| BitVec.ofNat w (2 ^ i) else x &&& ~~~BitVec.ofNat w (2 ^ i)).getLsbD j =
      if j = i then decide b else x.getLsbD j := by
  have bit : (BitVec.ofNat w (2 ^ i)).getLsbD j = decide (j = i) := by rw [getLsbD_ofNat_two_pow h, decide_eq_decide, eq_comm]
  by_cases hb : b
  · rw [if_pos hb, BitVec.getLsbD_or, bit]
    by_cases hj : j = i <;> simp [hb, hj]
  · rw [if_neg hb, BitVec.getLsbD_and, BitVec.getLsbD_not, bit, decide_eq_true h]
    by_cases hj : j = i <;> simp [hb, hj]

/-! ## Power and temperatures -/

/-- With a cap, the controller's fraction lies from 1 to 64. -/
theorem Power.fraction_bounds {p : Power} (h : p.cap ≠ 0) (frac : Nat) : 1 ≤ p.fraction frac ∧ p.fraction frac ≤ 64 := by
  rw [Power.fraction, if_neg h]
  omega

theorem Power.sample_frac_nat (p : Power) (watts mv frac : Nat) : (p.sample watts mv frac).frac.toNat = p.fraction frac := by
  refine Nat.mod_eq_of_lt (Nat.lt_of_le_of_lt (m := 64) ?_ (by decide))
  by_cases h : p.cap = 0
  · exact Nat.le_of_eq (if_pos h)
  · exact (Power.fraction_bounds h frac).2

/-- FLOOR is the cap exceeded at the least fraction (R364, log entry 38). -/
theorem Power.sample_floorBit (p : Power) (watts mv frac : Nat) : (p.sample watts mv frac).floorBit = true ↔
    p.cap ≠ 0 ∧ (p.sample watts mv frac).frac = 1 ∧ p.cap.toNat < watts := by
  have one : (p.sample watts mv frac).frac = 1 ↔ p.fraction frac = 1 := by
    rw [← BitVec.toNat_inj, Power.sample_frac_nat]; rfl
  rw [one]
  simp only [Power.sample, Bool.and_eq_true, bne_iff_ne, beq_iff_eq, decide_eq_true_eq, and_assoc]

theorem le_foldl_max (n : Nat) (l : List Nat) (a : Nat) : n ≤ l.foldl max a ↔ n ≤ a ∨ ∃ x ∈ l, n ≤ x := by
  induction l generalizing a with
  | nil => exact (or_iff_left fun ⟨_, hx, _⟩ => absurd hx List.not_mem_nil).symm
  | cons x l ih =>
    have step : n ≤ max a x ↔ n ≤ a ∨ n ≤ x := by omega
    rw [List.foldl_cons, ih, step, or_assoc]
    simp only [List.mem_cons, or_and_right, exists_or, exists_eq_left]

theorem capInForce_of_lt {w : Nat} (h : w < 2 ^ 16) : capInForce w = if w = 0 then 0 else max w 900 := by
  unfold capInForce
  split
  · rfl
  · split <;> omega

/-- The cap that PWR_CAP takes from a word fits its register. -/
theorem toNat_capInForce (v : Nat) :
    (BitVec.ofNat 16 (capInForce (fld v 0 16))).toNat = if v % 2 ^ 16 = 0 then 0 else max (v % 2 ^ 16) 900 := by
  have low : fld v 0 16 = v % 2 ^ 16 := by rw [fld, Nat.pow_zero, Nat.div_one]
  rw [low, capInForce_of_lt (Nat.mod_lt v (by decide)), BitVec.toNat_ofNat]
  exact Nat.mod_eq_of_lt (by split <;> omega)

/-! ## Stations -/

/-- The base of a key page map, after a write in any station's Funnel (R147). -/
theorem State.setKpmBase_base (s : State) (f : Dword → Dword) (st : Fin 16) :
    (s.setKpmBase f).stations[st].funnel.base = f s.stations[st].funnel.base := by
  simp only [State.setKpmBase, State.mapStns_get, if_true]

/-- FNL_KPM_BASE_HI keeps the low half of every Funnel's base. -/
theorem State.writeReg_kpmBaseHi (s : State) (st x : Fin 16) (val : Word) :
    (s.writeReg (.fnlKpmBaseHi st) val).stations[x].funnel.base.toNat =
      val.toNat * 2 ^ 32 + s.stations[x].funnel.base.toNat % 2 ^ 32 := by
  have hv := val.isLt
  rw [State.writeReg, State.setKpmBase_base, BitVec.toNat_ofNat, Nat.mod_eq_of_lt (by omega)]

/-- FNL_KPM_BASE_LO keeps the high half of every Funnel's base, and clears what lies below 1 MiB. -/
theorem State.writeReg_kpmBaseLo (s : State) (st x : Fin 16) (val : Word) :
    (s.writeReg (.fnlKpmBaseLo st) val).stations[x].funnel.base.toNat =
      s.stations[x].funnel.base.toNat / 2 ^ 32 * 2 ^ 32 + val.toNat / 2 ^ 20 * 2 ^ 20 := by
  have hv := val.isLt
  have hb := s.stations[x].funnel.base.isLt
  rw [State.writeReg, State.setKpmBase_base, BitVec.toNat_ofNat, Nat.mod_eq_of_lt (by omega)]

theorem State.setBypass_griddle (s : State) (st : Fin 16) (g : Fin 2) (v : Nat) :
    (s.setBypass st g v).stations[st].griddles[g] = { s.stations[st].griddles[g] with pending := BitVec.ofNat 16 v } := by
  have h : (s.setBypass st g v).stations[st] = _ := State.updStn_same ..
  rw [h]
  exact vupd_same ..

/-- PENDING is the low half of the word written. -/
theorem ofNat_low_half (v : Word) : BitVec.ofNat 16 (v.toNat % 2 ^ 16) = v.setWidth 16 := by
  rw [← BitVec.toNat_inj, BitVec.toNat_ofNat, BitVec.toNat_setWidth, Nat.mod_mod]

/-- An instruction of the station is running. -/
theorem Station.any_running (t : Station) : (t.queues.toList.any fun q => q.any fun e => e.phase == .running) = true ↔
    ∃ q : Fin 22, ∃ e ∈ t.queues[q], e.phase = .running := by
  simp only [List.any_eq_true, beq_iff_eq, Vector.mem_toList_iff, Vector.mem_iff_getElem]
  constructor
  · rintro ⟨_, ⟨i, hi, rfl⟩, e, he, hr⟩
    exact ⟨⟨i, hi⟩, e, he, hr⟩
  · rintro ⟨q, e, he, hr⟩
    exact ⟨_, ⟨q.val, q.isLt, rfl⟩, e, he, hr⟩

/-- A running instruction holds the regions of its job's window (R169). -/
def Station.HoldsRegions (t : Station) : Prop :=
  t.held = true ∧ (∃ q : Fin 22, ∃ e ∈ t.queues[q], e.phase = .running) ∧ t.window.valid = true

/-- The regions whose views and timing a write of PAN_REGION leaves (R169; log entry 54). -/
def Station.keptRegions (t : Station) : Byte :=
  if (t.held && t.queues.toList.any fun q => q.any fun e => e.phase == .running) && t.window.valid then
    regionBits t.window.base.toNat t.window.size.toNat
  else 0

theorem Station.setRegion_pantry (t : Station) (v : Nat) : (t.setRegion v).pantry = { t.pantry with
    timed := (t.pantry.timed &&& t.keptRegions) ||| (BitVec.ofNat 8 (fld v 8 8) &&& ~~~t.keptRegions)
    dual := (t.pantry.dual &&& t.keptRegions) ||| (BitVec.ofNat 8 (fld v 0 8) &&& ~~~t.keptRegions) } := rfl

theorem Station.holdsRegions_iff (t : Station) : t.HoldsRegions ↔
    ((t.held && t.queues.toList.any fun q => q.any fun e => e.phase == .running) && t.window.valid) = true := by
  rw [Bool.and_eq_true, Bool.and_eq_true, Station.any_running, and_assoc, Station.HoldsRegions]

theorem Station.setRegion_free {t : Station} (h : ¬ t.HoldsRegions) (v : Nat) :
    (t.setRegion v).pantry = { t.pantry with timed := BitVec.ofNat 8 (fld v 8 8), dual := BitVec.ofNat 8 (fld v 0 8) } := by
  have empty : t.keptRegions = 0#8 := if_neg (mt t.holdsRegions_iff.mpr h)
  rw [Station.setRegion_pantry, empty]
  simp only [BitVec.and_zero, BitVec.zero_or, BitVec.not_zero, BitVec.and_allOnes]

/-- Region by region: a held one keeps its view and its timing, another takes those of the word. -/
theorem Station.setRegion_held {t : Station} (h : t.HoldsRegions) (v : Nat) {r : Nat} (hr : r < 8) :
    let fixed := bitAt (regionBits t.window.base.toNat t.window.size.toNat).toNat r
    bitAt (t.setRegion v).pantry.dual.toNat r = (if fixed then bitAt t.pantry.dual.toNat r else bitAt v r) ∧
      bitAt (t.setRegion v).pantry.timed.toNat r = (if fixed then bitAt t.pantry.timed.toNat r else bitAt v (8 + r)) := by
  have held : t.keptRegions = regionBits t.window.base.toNat t.window.size.toNat := if_pos (t.holdsRegions_iff.mp h)
  simp only [Station.setRegion_pantry, held, bitAt_toNat, getLsbD_mix _ _ _ hr, getLsbD_ofNat_fld _ _ hr, Nat.zero_add, and_self]

/-- What R170 asks of a window beside the others of its Pantry. -/
theorem Pantry.winOk_iff (p : Pantry) (i : Fin 4) (x : Win) : p.winOk i x = true ↔
    (x.valid = true → 1 ≤ x.size.toNat ∧ x.base.toNat + x.size.toNat ≤ 512 ∧ ∀ k : Fin 4, k ≠ i → p.wins[k].valid = true →
      x.base.toNat + x.size.toNat ≤ p.wins[k].base.toNat ∨ p.wins[k].base.toNat + p.wins[k].size.toNat ≤ x.base.toNat) := by
  have implies (a b : Bool) : (!a || b) = true ↔ (a = true → b = true) := by cases a <;> simp
  have other (k : Fin 4) (b : Bool) (P : Prop) [Decidable P] :
      (k == i || !b || decide P) = true ↔ (k ≠ i → b = true → P) := by
    by_cases hk : k = i <;> cases b <;> simp [hk]
  simp only [Pantry.winOk, implies, other, Bool.and_eq_true, decide_eq_true_eq, List.all_eq_true, List.mem_finRange, true_imp_iff,
    and_assoc]

theorem Station.setWin_taken {t : Station} {i : Fin 4} {v : Nat} (hok : t.pantry.winOk i (winOfWord v) = true)
    (hfree : ¬ (t.held = true ∧ t.win = i)) : (t.setWin i v).pantry.wins[i] = winOfWord v := by
  have free : (t.held && t.win == i) = false := by
    rw [← Bool.not_eq_true, Bool.and_eq_true, beq_iff_eq]
    exact hfree
  rw [Station.setWin, free, hok, if_neg (by decide)]
  exact vset_same ..

theorem Station.setWin_refused {t : Station} {i : Fin 4} {v : Nat}
    (h : ¬ t.pantry.winOk i (winOfWord v) = true ∨ (t.held = true ∧ t.win = i)) : t.setWin i v = t := by
  refine if_pos ?_
  rcases h with hbad | ⟨hheld, hwin⟩
  · rw [Bool.not_eq_true] at hbad
    rw [hbad, Bool.not_false, Bool.or_true]
  · rw [hheld, hwin, beq_self_eq_true]
    rfl

/-! ## Module memory, mailbox pages, Band units and Mortar -/

theorem State.setMarginReg_stack (s : State) (site : Fin 8) (v : Nat) :
    (s.setMarginReg site v).mem.stackRegs[site] = { s.mem.stackRegs[site] with
      chan := BitVec.ofNat 4 (fld v 28 4)
      rdly := BitVec.ofNat 7 (fld v 21 7)
      wdly := BitVec.ofNat 7 (fld v 14 7)
      vref := BitVec.ofNat 5 (fld v 9 5)
      vddq := BitVec.ofNat 5 (fld v 4 5)
      running := s.mem.stackRegs[site].running || (s.mem.margin && bitAt v 0) } := by
  unfold State.setMarginReg State.setMargin
  split
  · next h => simp only [State.updStack_same, h, Bool.or_true]
  · next h => simp only [State.updStack_same, Bool.eq_false_iff.mpr h, Bool.or_false]

/-- A function's power state is its bit of D3HOT, and no other function's. -/
theorem State.writeReg_cfgPower (s : State) (f : Fin 64) (val : Word) (g : Fin 64) :
    bitAt (s.writeReg (.cfgPower f) val).cfg.d3hot.toNat g.val =
      if g = f then decide (val.toNat % 4 = 3) else bitAt s.cfg.d3hot.toNat g.val := by
  rw [bitAt_toNat, bitAt_toNat, State.writeReg, State.writeCfg, getLsbD_putBit _ _ _ g.isLt]
  by_cases hg : g = f
  · rw [if_pos hg, if_pos (congrArg Fin.val hg)]
  · rw [if_neg hg, if_neg (Fin.val_ne_of_ne hg)]

/-- A message, or the pending bit in its place, leaves the MSI-X table. -/
theorem State.msi_msix (s : State) (f x : Fin 64) (vec : Nat) : (s.msi f vec).mbx[x].msix = s.mbx[x].msix := by
  unfold State.msi
  split
  · rw [State.updMbx_get]; split <;> rfl
  · rfl

theorem State.setMsix_word (s : State) (f : Fin 64) (vec : Fin 32) (k : Fin 4) (val : Word) :
    (s.setMsix f vec k val).mbx[f].msix.get? (4 * vec.val + k.val) = some val := by
  unfold State.setMsix
  dsimp only
  split <;> simp only [State.msi_msix, State.updMbx_same, Tab.get?_put_same]

theorem Mbx.setBase_enabled {m : Mbx} (h : m.en = true) (k : Fin 4) (val : Word) : m.setBase k val = m := if_pos h

theorem Mbx.setBase_disabled {m : Mbx} (h : m.en = false) (k : Fin 4) (val : Word) :
    (m.setBase k val).base[k] = if k.val % 2 = 0 then val &&& 0xFFFFF000 else val := by
  rw [Mbx.setBase, h, if_neg Bool.false_ne_true]
  exact vset_same ..

theorem State.updMbx_id {s : State} {f : Fin 64} {g : Mbx → Mbx} (h : g s.mbx[f] = s.mbx[f]) : s.updMbx f g = s := by
  rw [State.updMbx, vupd_id _ _ h]

/-- A write that finds the queue empty waits alone. -/
theorem State.bndWrite_queue {s : State} {u : Fin 4} (h : s.band[u].queue = []) (w : BndWrite) :
    (s.bndWrite u w).band[u].queue = [w] := by
  have unit : (s.bndWrite u w).band[u] = (s.band[u].drain (Config.freeNat s.fresh)).arrive w := vupd_same ..
  have empty : (s.band[u].drain (Config.freeNat s.fresh)).queue = [] := by
    rw [BndUnit.drain, h, List.drop_nil]
  rw [unit, BndUnit.arrive, empty, if_pos (by decide)]
  rfl

end Sys2Proof.Machine
end

section
/-! Pins, temperatures and single registers: the statement, clause by clause. -/

namespace Sys2Proof.Machine

section
variable {s : State}

theorem execPowerCapSample_of (h : s.Specified) (hp : s.boot.state ≠ .off) (watts mv frac : Nat) :
    exec (.powerCapSample watts mv frac) s = .next { s with power := s.power.sample watts mv frac } :=
  show execPowerCapSample watts mv frac s = _ from occurs_of h (bne_iff_ne.mpr hp)

theorem execRegisterWrite_of (h : s.Specified) (hp : s.boot.state ≠ .off) (reg : RegTarget) (val : Word) :
    exec (.registerWrite reg val) s = .next (s.writeReg reg val) :=
  show execRegisterWrite reg val s = _ from occurs_of h (bne_iff_ne.mpr hp)

end

/-- Settles O52: without its reference no event occurs, a die's ports fall one by one, and each write changes its own field. -/
theorem pinsAndRegisters : Obligations.PinsAndRegisters := by
  intro s hs
  refine ⟨fun hp => ⟨fun watts mv frac => ?_, fun temps => ?_, ?_, ?_, fun d hd => ?_⟩, fun ins => ⟨_, rfl, rfl, rfl⟩,
    fun hp val => ?_⟩
  · refine ⟨_, execPowerCapSample_of hs hp watts mv frac, rfl, rfl, rfl, fun h => ?_, fun h => ?_,
      s.power.sample_floorBit watts mv frac⟩
    · rw [← BitVec.toNat_inj, Power.sample_frac_nat, Power.fraction, if_pos h]
      rfl
    · rw [Power.sample_frac_nat]
      exact Power.fraction_bounds h frac
  · refine ⟨_, show execDieTemperatureReading temps s = _ from occurs_of hs (bne_iff_ne.mpr hp), rfl, ?_⟩
    exact decide_eq_true_iff.trans ((le_foldl_max 105 temps 0).trans (or_iff_right (by decide)))
  · exact show execSmbusAlertResponse s = _ from occurs_of hs (bne_iff_ne.mpr hp)
  · obtain ⟨e, ht⟩ := execReferenceLoss_refclk100 hs hp
    have power : (s.noteLoss .refclk100 e).power = s.power.lose .refclk100 := s.noteLoss_power ..
    exact ⟨_, ht, by rw [power]; rfl, by rw [power]; rfl, fun c hc => exec_of_lost (by rw [power]; rfl) hc⟩
  · obtain ⟨e, ht⟩ := execReferenceLoss_fab hs hp hd
    have power : ((s.noteLoss (.fab d) e).dieDown d).power = s.power.lose (.fab d) :=
      (State.dieDown_keeps.same .power (by decide)).trans (s.noteLoss_power ..)
    have port (p : Fin 14) : ((s.noteLoss (.fab d) e).dieDown d).fab.ports[p] = s.fab.ports[p].dieFell d p := by
      rw [State.dieDown_port, State.noteLoss_fab]
    refine ⟨_, ht, by rw [power]; exact hs, ?_, fun p hdie hon => ?_, fun p hdie => ?_⟩
    · rw [power, bitAt_toNat, Power.lose, BitVec.getLsbD_or, getLsbD_ofNat_two_pow d.isLt, decide_eq_true rfl, Bool.or_true]
    · rw [port, Port.dieFell, if_pos ⟨hdie, hon⟩]
      rfl
    · rw [port, Port.dieFell, if_neg fun h => hdie h.1]
  · intro w v
    have write (reg : RegTarget) : w reg = .next (s.writeReg reg val) := execRegisterWrite_of hs hp reg val
    have write_of {reg : RegTarget} {t : State} (ht : s.writeReg reg val = t) : w reg = .next t := ht ▸ write reg
    refine ⟨fun st g => ?grd, fun st => ?baseHi, fun st => ?baseLo, fun st => ?region, fun st i => ?win, fun i hrom => ?locked,
      fun i hrom => ?rgn, fun site hsite => ?margin, fun f vec k => ?msix, fun u hu => ?band, write _, fun vf => ?bar2, fun f => ?d3hot,
      fun hv => ?mps, fun hv => ?mrrs, fun k => ?submit, ?clk, fun p hport => ?eth, fun f k => ?base, write _, ?cap, write _⟩
    case grd =>
      refine ⟨_, write _, (State.setBypass_griddle ..).trans ?_, rfl⟩
      rw [ofNat_low_half]
    case baseHi => exact ⟨_, write _, fun st' => by rw [State.writeReg_kpmBaseHi]⟩
    case baseLo => exact ⟨_, write _, fun st' => by rw [State.writeReg_kpmBaseLo]⟩
    case region =>
      have stn : (s.writeReg (.panRegion st) val).stations[st] = s.stations[st].setRegion v := State.updStn_same ..
      refine ⟨fun hfree => ⟨_, write _, ?_⟩, fun hheld => ⟨_, write _, fun r hr => ?_⟩⟩
      · rw [stn]
        exact Station.setRegion_free hfree v
      · rw [stn]
        exact Station.setRegion_held hheld v hr
    case win =>
      have stn : (s.writeReg (.panWin st i) val).stations[st] = s.stations[st].setWin i v := State.updStn_same ..
      refine ⟨fun hfits hfree => ⟨_, write _, ?_⟩, fun hbad => ⟨_, write _, ?_⟩⟩
      · rw [stn]
        exact Station.setWin_taken ((Pantry.winOk_iff ..).mpr hfits) hfree
      · rw [stn]
        exact Station.setWin_refused (hbad.imp_left (mt (Pantry.winOk_iff ..).mp))
    case locked => exact ⟨write_of (if_pos hrom), write_of (if_pos hrom)⟩
    case rgn =>
      have rom : ¬ s.boot.state ≠ .rom := fun h => h hrom
      exact ⟨⟨_, write_of (if_neg rom), vupd_same ..⟩, ⟨_, write_of (if_neg rom), vupd_same ..⟩⟩
    case margin => exact ⟨_, write_of (if_pos hsite), s.setMarginReg_stack site v⟩
    case msix => exact ⟨_, write _, s.setMsix_word f vec k val⟩
    case band =>
      have queued (x : BndWrite) : (s.bndWrite u x).band[u].queue = [x] := State.bndWrite_queue hu x
      exact ⟨⟨_, write _, queued _⟩, ⟨_, write _, queued _⟩, ⟨_, write _, queued _⟩⟩
    case bar2 =>
      refine ⟨fun hsize => write_of ?_, fun hsize => write_of ?_⟩
      · have taken : ¬ (!barSizeOk v) = true := by rw [hsize]; decide
        cases vf <;> exact if_neg taken
      · exact if_pos (by rw [hsize]; rfl)
    case d3hot =>
      have bit := s.writeReg_cfgPower f val
      exact ⟨_, write _, (bit f).trans (if_pos rfl), fun g hg => (bit g).trans (if_neg hg)⟩
    case mps => exact write_of (if_pos hv)
    case mrrs => exact write_of (if_pos hv)
    case submit =>
      have word : (vupd s.mortar.submit k.castSucc fun _ => val)[k.castSucc] = val := vupd_same ..
      rw [← vupdN_val] at word
      exact ⟨_, write _, word, rfl⟩
    case clk => exact ⟨_, write _, rfl, rfl, rfl⟩
    case eth => exact ⟨⟨_, write_of (if_pos hport), State.updPort_same ..⟩, ⟨_, write_of (if_pos hport), State.updPort_same ..⟩⟩
    case base =>
      refine ⟨fun hen => write_of (State.updMbx_id (Mbx.setBase_enabled hen k val)), fun hen => ⟨_, write _, ?_⟩⟩
      have page : (s.writeReg (.mbxBase f k) val).mbx[f] = s.mbx[f].setBase k val := State.updMbx_same ..
      rw [page]
      exact Mbx.setBase_disabled hen k val
    case cap =>
      refine ⟨_, write _, rfl, ?_⟩
      rw [State.writeReg, toNat_capInForce]

end Sys2Proof.Machine
end

section
/-! The steps of a running refresh and the passes of a conversion (R102, R109 to R112, R139): each row's one path, and what an
element-step leaves of its Kettle. -/

namespace Sys2Proof.Machine

/-! ## Rows of a running KREFRESH and BEXTRACT -/

section
variable {s : State} {st : Fin 16} {k : Fin 8} {i : Nat} {e : QEntry}

theorem execKettleRotationStart_starts (n : Nat) (h : s.Running st (qKettle k) 0x50 i e)
    (hp : s.stations[st].kettles[k].phase = .initialise) (hb : s.stations[st].kettles[k].stepHeld 0 = true) :
    exec (.kettleRotationStart st k n) s = .next (s.updStn st fun t => t.updKettle k fun x =>
      { x with phase := .rotation, stall := wrapAdd x.stall n }) :=
  show execKettleRotationStart st k n s = _ from runRow_of h (by rw [hp, hb]; rfl)

theorem execKeySwitchRound_passes (n : Nat) (hb : s.isBorrowed st (qKettle k) = false) (h : s.Running st (qKettle k) 0x50 i e)
    (hp : s.stations[st].kettles[k].phase = .keySwitch)
    (hkeys : roundWords s.stations[st].kettles[k].psid ≤ s.stations[st].kettles[k].ksq.length) :
    exec (.keySwitchRound st k (.pass, n)) s =
      .next (s.putStn st ((s.stations[st].addStall k n).afterRound k i e s.fresh)).tick := by
  change execKeySwitchRound st k (.pass, n) s = _
  rw [execKeySwitchRound, if_neg (by rw [hb]; exact Bool.false_ne_true),
    runRow_of h (by rw [hp, decide_eq_true hkeys]; rfl), State.checked_pass, State.updStn_eq_putStn]

theorem execBextractPass_writes (h : s.Running st qBlocker 0x70 i e) (hp : s.stations[st].blocker.phase = 2)
    (hkeys : s.stations[st].blocker.keys.length = convWords (s.stations[st].bextOf e.iw).dps) :
    exec (.bextractPass st) s = .next (s.updStn st fun t =>
      ((t.wrAll (t.bextWrites e e.done)).updBlocker fun b => { b with keys := [], pass := b.pass + 1 }).updAt qBlocker i
        QEntry.unitDone) :=
  show execBextractPass st s = _ from runRow_of h (by rw [hp, hkeys, beq_self_eq_true, beq_self_eq_true]; rfl)
end

/-! ## Key buffers of a Kettle -/

section
variable (k : Kettle) (i : Nat) (ws : List Word)

@[simp] theorem Kettle.setKbuf_accs : (k.setKbuf i ws).accs = k.accs := by unfold Kettle.setKbuf; split <;> rfl
@[simp] theorem Kettle.setKbuf_elem : (k.setKbuf i ws).elem = k.elem := by unfold Kettle.setKbuf; split <;> rfl
@[simp] theorem Kettle.setKbuf_phase : (k.setKbuf i ws).phase = k.phase := by unfold Kettle.setKbuf; split <;> rfl

@[simp] theorem Kettle.kbuf_setKbuf_same : (k.setKbuf i ws).kbuf i = ws := by
  unfold Kettle.kbuf Kettle.setKbuf
  split <;> rfl

/-- The two buffers hold successive steps, so that one step's words leave the next one's. -/
theorem Kettle.kbuf_setKbuf_succ : (k.setKbuf i ws).kbuf (i + 1) = k.kbuf (i + 1) := by
  unfold Kettle.kbuf Kettle.setKbuf
  by_cases even : i % 2 = 0
  · have odd_succ : ¬ (i + 1) % 2 = 0 := by omega
    simp only [if_pos even, if_neg odd_succ]
  · have even_succ : (i + 1) % 2 = 0 := by omega
    simp only [if_neg even, if_pos even_succ]
end

/-! ## What an element-step leaves of its Kettle (R109, R111) -/

section
variable {k : Kettle} {ms : List ModEntry}

/-- The Kettle once the running element's accumulator holds its blind-rotation step. -/
def Kettle.accumulated (k : Kettle) (ms : List ModEntry) : Kettle :=
  { k with accs := lupd k.accs k.elem fun _ =>
      blindStep ms k.psid (ofWords (k.kbuf k.step)) ((k.entry.getD k.elem []).getD k.step 0) (k.accs.getD k.elem ⟨[], []⟩) }

/-- The Kettle once a step has passed for every element of the batch: the next element is the first, and the step's buffer is
released. -/
def Kettle.stepReleased (k : Kettle) (ms : List ModEntry) : Kettle := { k.accumulated ms with elem := 0 }.setKbuf k.step []

theorem Kettle.stepped_within (h : k.elem + 1 < k.batch) : k.stepped ms = { k.accumulated ms with elem := k.elem + 1 } := if_pos h

theorem Kettle.stepped_next (h : k.batch ≤ k.elem + 1) (hn : k.step + 1 < lweN k.psid) :
    k.stepped ms = { k.stepReleased ms with step := k.step + 1 } := (if_neg (Nat.not_lt.mpr h)).trans (if_pos hn)

theorem Kettle.stepped_last (h : k.batch ≤ k.elem + 1) (hn : lweN k.psid ≤ k.step + 1) :
    k.stepped ms = { k.stepReleased ms with
      phase := .keySwitch, step := 0, pass := 0, run := ((k.stepReleased ms).passInit 0).map fun e => e.map toWords } :=
  (if_neg (Nat.not_lt.mpr h)).trans (if_neg (Nat.not_lt.mpr hn))

/-- A batch's last element leaves what the release of its step leaves of the accumulators, the element and the key buffers,
whether another step follows or the key switch. -/
theorem Kettle.stepped_released (h : k.batch ≤ k.elem + 1) :
    (k.stepped ms).accs = (k.stepReleased ms).accs ∧ (k.stepped ms).elem = (k.stepReleased ms).elem ∧
      (k.stepped ms).kbuf = (k.stepReleased ms).kbuf := by
  rcases Nat.lt_or_ge (k.step + 1) (lweN k.psid) with hn | hn
  · rw [Kettle.stepped_next h hn]; exact ⟨rfl, rfl, rfl⟩
  · rw [Kettle.stepped_last h hn]; exact ⟨rfl, rfl, rfl⟩

theorem Kettle.stepped_accs (k : Kettle) (ms : List ModEntry) : (k.stepped ms).accs = (k.accumulated ms).accs := by
  rcases Nat.lt_or_ge (k.elem + 1) k.batch with h | h
  · rw [Kettle.stepped_within h]
  · rw [(Kettle.stepped_released h).1, Kettle.stepReleased, Kettle.setKbuf_accs]

theorem Kettle.accumulated_accs_ne {x : Nat} (h : x ≠ k.elem) : (k.accumulated ms).accs[x]? = k.accs[x]? :=
  List.getElem?_modify_ne _ _ h.symm

theorem Kettle.accumulated_accs_length (k : Kettle) (ms : List ModEntry) : (k.accumulated ms).accs.length = k.accs.length :=
  List.length_modify ..

theorem Kettle.stepReleased_kbuf (k : Kettle) (ms : List ModEntry) : (k.stepReleased ms).kbuf k.step = [] :=
  Kettle.kbuf_setKbuf_same ..

theorem Kettle.stepReleased_kbuf_succ (k : Kettle) (ms : List ModEntry) :
    (k.stepReleased ms).kbuf (k.step + 1) = k.kbuf (k.step + 1) := Kettle.kbuf_setKbuf_succ ..
end

/-- Settles O17: each row takes its one path, and an element-step is followed to the next element, the next step or the key switch. -/
theorem refreshSteps : Obligations.RefreshSteps := by
  intro st k s i n e
  refine ⟨fun h hp hb => execKettleRotationStart_starts n h hp hb, fun h hp hb => execKettleElementStep_checked .pass n h hp hb,
    fun hb h hp hkeys => execKeySwitchRound_passes n hb h hp hkeys, fun h hp hkeys => execBextractPass_writes h hp hkeys,
    fun k ms => ⟨fun x hx => ?others, ?count, fun h => ?within, fun h => ?batchEnds⟩⟩
  case others => rw [Kettle.stepped_accs, Kettle.accumulated_accs_ne hx]
  case count => rw [Kettle.stepped_accs, Kettle.accumulated_accs_length]
  case within => rw [Kettle.stepped_within h]; exact ⟨rfl, rfl, rfl, rfl, rfl⟩
  case batchEnds =>
    obtain ⟨-, helem, hbuf⟩ := Kettle.stepped_released (ms := ms) h
    refine ⟨?_, ?_, ?_, fun hn => ?_, fun hn => ?_⟩
    · rw [helem, Kettle.stepReleased, Kettle.setKbuf_elem]
    · rw [hbuf, Kettle.stepReleased_kbuf]
    · rw [hbuf, Kettle.stepReleased_kbuf_succ]
    · rw [Kettle.stepped_next h hn]
      exact ⟨rfl, Kettle.setKbuf_phase ..⟩
    · rw [Kettle.stepped_last h hn]
      exact ⟨rfl, rfl, rfl⟩

end Sys2Proof.Machine
end

section
/-! Starting the stream operations (R151, R191, R244, R245): an XFER and an XGATHER whose checks pass, FSTREAM and FCLOSE. -/

namespace Sys2Proof.Machine

/-- No test fails where none of them holds. -/
theorem firstFault_eq_none {l : List (Bool × Byte)} (h : ∀ x ∈ l, x.1 = false) : firstFault l = none := by
  induction l with
  | nil => rfl
  | cons x l ih =>
    obtain ⟨hx, hl⟩ := List.forall_mem_cons.mp h
    rw [firstFault, hx, if_neg Bool.false_ne_true, ih hl]

/-! ## Stream engines -/

/-- A stream engine's row starts what its plan answers, where the plan finds no fault. -/
theorem seRow_go {s : State} {st : Fin 16} {e : Fin 4} {op i : Nat} {q r : QEntry} {t : Station}
    {plan : State → Station → QEntry → Plan} (h : s.Issued st (qStream e) op i q) (hp : plan s s.stations[st] q = .go t r) :
    seRow st e op plan s = .next (s.startOp st (qStream e) i (.go t r)) := by
  obtain ⟨hs, hrun, hq⟩ := h
  rw [seRow, occurs_of hs (by rw [hrun, hq]; rfl), hq]
  dsimp only
  rw [hp]

theorem planXfer_go {t : Station} {q : QEntry} (s : State)
    (h : t.listInMem q.iw = true ∨ (q.ea0 % 32 = 0 ∧ t.inWin q.ea0 (32 * t.ndesc q.iw) = true)) :
    planXfer s t q = .go t { q with left := t.ndesc q.iw } := by
  rw [planXfer, firstFault_eq_none]
  rw [List.forall_mem_cons, List.forall_mem_singleton]
  rcases h with hbuf | ⟨halign, hwin⟩
  · simp [hbuf]
  · simp [halign, hwin]

theorem planXgather_go {s : State} {t : Station} {q : QEntry} (halign : q.ea0 % 512 = 0) (halignX : q.eaX % 512 = 0)
    (hwin : t.inWin q.ea0 (ceilDiv (t.nidx q.iw) 128 * 512) = true) (hwinX : t.inWin q.eaX (ceilDiv (t.nidx q.iw) 16 * 512) = true)
    (hbound : (s.handleOf t (t.gatherHandle q.iw)).isSome = true) :
    planXgather s t q = .go t { q with left := t.nidx q.iw } := by
  rw [planXgather, firstFault_eq_none]
  rw [List.forall_mem_cons, List.forall_mem_cons, List.forall_mem_singleton]
  refine ⟨?_, ?_, ?_⟩
  · simp [halign, halignX]
  · simp [Station.allIn, hwin, hwinX]
  · simpa [Option.isNone_eq_false_iff] using hbound

/-! ## The Funnel -/

theorem execFstream_starts {s : State} {st : Fin 16} {i : Nat} {q : QEntry} (h : s.Issued st qFunnel 0x18 i q)
    (hc : fstreamFault (s.stnKeySet s.stations[st]) s.stations[st] q.iw = none) :
    execFstream st s = .next (s.startOp st qFunnel i (.go s.stations[st] { q with left := 1 })) := by
  obtain ⟨hs, hrun, hq⟩ := h
  rw [execFstream, occurs_of hs (by rw [hrun, hq]; rfl), hq]
  dsimp only
  rw [hc]

/-- An issued FCLOSE waits for nothing but the pre-check of its group's stream. -/
theorem State.closable_of {s : State} {st : Fin 16} {i : Nat} {q : QEntry} (h : s.Issued st qFunnel 0x19 i q)
    (hopen : ∀ l, s.streamOf (s.stations[st].groupOf q.iw) = some l → l.2.2.phase ≠ .precheck) : s.closable st = some (i, q) := by
  obtain ⟨-, -, hq⟩ := h
  rw [State.closable, hq, Option.filter_eq_some_iff]
  refine ⟨rfl, ?_⟩
  dsimp only
  cases hx : s.streamOf (s.stations[st].groupOf q.iw) with
  | none => rfl
  | some l => simpa using hopen l hx

theorem execFclose_none {s : State} {st : Fin 16} {i : Nat} {q : QEntry} (h : s.Issued st qFunnel 0x19 i q)
    (hx : s.streamOf (s.stations[st].groupOf q.iw) = none) :
    execFclose st s = .next (s.startOp st qFunnel i (.go s.stations[st] q)) := by
  have hc := State.closable_of h fun l hl => absurd (hx.symm.trans hl) (Option.some_ne_none l).symm
  rw [execFclose, occurs_of h.1 (by rw [h.2.1, hc]; rfl), hc]
  dsimp only
  rw [hx]

/-- An FCLOSE closes its group's stream at once where no row of the repetition has launched, and otherwise leaves it closing
(log entry 22). -/
theorem execFclose_some {s : State} {st lead : Fin 16} {i j : Nat} {q : QEntry} {x : KeyStream} (h : s.Issued st qFunnel 0x19 i q)
    (hx : s.streamOf (s.stations[st].groupOf q.iw) = some (lead, j, x)) (hph : x.phase ≠ .precheck) :
    execFclose st s = .next (
      let s1 := s.startOp st qFunnel i (.go s.stations[st] { q with left := 1 })
      if x.rows = 0 then s1.closeStream lead j (s.stations[st].groupOf q.iw)
      else s1.updStream lead j fun y => { y with phase := .closing }) := by
  have hc := State.closable_of h fun l hl => by
    rw [hx, Option.some_inj] at hl
    exact hl ▸ hph
  rw [execFclose, occurs_of h.1 (by rw [h.2.1, hc]; rfl), hc]
  dsimp only
  rw [hx]

/-- Settles O19: the checks of each operation pass, and FCLOSE takes the branch of what has launched. -/
theorem streamOperationsStart : Obligations.StreamOperationsStart := by
  intro st e s i q
  refine ⟨fun h hlist => seRow_go h (planXfer_go s hlist), fun h ha haX hw hwX hb => seRow_go h (planXgather_go ha haX hw hwX hb),
    fun h hc => execFstream_starts h hc, fun h hx => execFclose_none h hx, fun lead j x h hx hph => ⟨fun h0 => ?_, fun h0 => ?_⟩⟩
  · exact (execFclose_some h hx hph).trans (congrArg _ (if_pos h0))
  · exact (execFclose_some h hx hph).trans (congrArg _ (if_neg h0))

end Sys2Proof.Machine
end

section
/-! Key streams open (R150, R151, R158, R160): the limits, the pre-check's two outcomes, and the map cache. -/

namespace Sys2Proof.Machine

/-! ## Reads of module memory without poison -/

theorem State.memGet_clean {s : State} {ma n : Nat} (h : s.poisonIn ma n = []) : s.memGet ma n = (s, some (s.memBytes ma n)) := by
  rw [State.memGet, h]
  rfl

/-- The count of Sieve reads is no byte, place or poison of module memory. -/
theorem State.countSieve_eq (s : State) (ma : Nat) :
    s.countSieve ma = { s with mem := { s.mem with stackRegs := (s.countSieve ma).mem.stackRegs } } := by
  unfold State.countSieve
  split <;> rfl

@[simp] theorem State.countSieve_stations (s : State) (ma : Nat) : (s.countSieve ma).stations = s.stations := by
  rw [State.countSieve_eq]

@[simp] theorem State.countSieve_data (s : State) (ma : Nat) : (s.countSieve ma).mem.data = s.mem.data := by
  rw [State.countSieve_eq]

theorem State.sieve_clean {s : State} {ma : Nat} (h : s.poisonIn ma 32 = []) :
    s.sieve ma = (s.countSieve ma, some (s.memBytes ma 32)) := by
  have hp : (s.countSieve ma).poisonIn ma 32 = [] := by rw [State.countSieve_eq]; exact h
  have hb : (s.countSieve ma).memBytes ma 32 = s.memBytes ma 32 := by rw [State.countSieve_eq]; rfl
  rw [State.sieve, State.memGet_clean hp, hb]

/-! ## The map cache -/

/-- An entry that has come into the cache is found there. -/
theorem Funnel.cached_fill (f : Funnel) (m : Nat) (e : KpmEntry) : (f.fill m e).cached m = some e := by
  simp [Funnel.cached, Funnel.fill]

@[simp] theorem Funnel.fill_miss (f : Funnel) (m : Nat) (e : KpmEntry) : (f.fill m e).miss = f.miss := rfl

/-- A pair brings the entry that was asked for. -/
theorem Funnel.cached_fillPair (f : Funnel) (m : Nat) (b : List Byte) :
    (f.fillPair m b).cached m = some (KpmEntry.ofBytes (b.drop (16 * (m % 2)))) := Funnel.cached_fill ..

@[simp] theorem Funnel.fillPair_miss (f : Funnel) (m : Nat) (b : List Byte) : (f.fillPair m b).miss = f.miss := rfl

@[simp] theorem State.updFunnel_same (s : State) (st : Fin 16) (f : Funnel → Funnel) :
    (s.updFunnel st f).stations[st].funnel = f s.stations[st].funnel := by rw [State.updFunnel, State.updStn_same]

/-- A miss whose pair is not poisoned is counted at the Funnel and at the stack, and fills the cache. -/
theorem State.mapMiss_clean {s : State} {st : Fin 16} {m : Nat} {b : List Byte}
    (hp : s.poisonIn (s.stations[st].funnel.mapAddr (m / 2 * 2)) 32 = [])
    (hb : s.memBytes (s.stations[st].funnel.mapAddr (m / 2 * 2)) 32 = b) :
    s.mapMiss st m = (((s.updFunnel st fun f => { f with miss := wrapAdd f.miss 1 }).countSieve
        (s.stations[st].funnel.mapAddr (m / 2 * 2))).updFunnel st fun f => f.fillPair m b,
      some (KpmEntry.ofBytes (b.drop (16 * (m % 2))))) := by
  subst hb
  have hs := State.sieve_clean (s := s.updFunnel st fun f => { f with miss := wrapAdd f.miss 1 }) hp
  rw [State.mapMiss, hs]
  rfl

theorem execMapCacheFill_of {s : State} {st : Fin 16} {m : Nat} (hs : s.Specified) (hrun : s.jobRuns s.stations[st] = true)
    (hw : (s.stations[st].funnel.walks m).isSome = true) (hc : s.stations[st].funnel.cached m = none) {u : State} {e : KpmEntry}
    (hm : s.mapMiss st m = (u, some e)) : execMapCacheFill st m s = .next u := by
  rw [execMapCacheFill, occurs_of hs (by rw [hrun, hw, hc]; rfl), hm]

/-! ## Opening and the pre-check -/

/-- The FSTREAM that a failing pre-check finds, if any, has raised its signal (R151). -/
def State.fstreamRaised (s : State) (st : Fin 16) : Option QEntry → State
  | some e => s.raise st e.iw
  | none => s

section
variable {s : State} {st : Fin 16} (hs : s.Specified) (hrun : s.jobRuns s.stations[st] = true)
include hs hrun

theorem execStreamOpen_opens {i : Nat} {e : QEntry} (ho : s.openable st = some (i, e)) :
    execStreamOpen st s = .next (s.putStn st
      { s.stations[st].updAt qFunnel i (fun e => { e with done := 1 }) with
        funnel := { s.stations[st].funnel with streams := s.stations[st].funnel.streams ++
          [⟨s.stations[st].groupOf e.iw, .precheck, s.stations[st].partsOf e.iw, s.stations[st].param e.iw 34 16,
            0, 0, 0, 0, 0, 0, [], [], [], 0, 0⟩] } }) := by
  rw [execStreamOpen, occurs_of hs (by rw [hrun, ho]; rfl), ho]

variable {j : Nat} {x : KeyStream} {hdrs : List PageRead} {s1 : State}
  (hx : s.stations[st].funnel.streams[j]? = some x) (hph : x.phase = .precheck)
include hx hph

theorem execPrecheckDone_passes
    (hgo : State.precheckGo st (s.stnTag s.stations[st]) (s.stations[st].funnel.pagesOf x) hdrs s = (s1, none)) :
    execPrecheckDone st j hdrs s = .next ((s1.updStream st j fun x => { x with phase := .running }).updStn st fun t =>
      t.prechecked x.grp) := by
  rw [execPrecheckDone, occurs_of hs (by rw [hrun, hx, Option.map_some, hph]; rfl), hx]
  dsimp only
  rw [hgo]

/-- A failing page lets FSTREAM signal, and ends the stream with that page's code (log entry 22). -/
theorem execPrecheckDone_fails {c : Byte} {d : ObjDesc} {n : Nat}
    (hgo : State.precheckGo st (s.stnTag s.stations[st]) (s.stations[st].funnel.pagesOf x) hdrs s = (s1, some (c, d, n))) :
    execPrecheckDone st j hdrs s =
      .next ((s1.fstreamRaised st (s.stations[st].fstreamOf x.grp)).streamFail st c (d.first + n) (some d)) := by
  rw [execPrecheckDone, occurs_of hs (by rw [hrun, hx, Option.map_some, hph]; rfl), hx]
  dsimp only
  rw [hgo]
  rfl

end

/-- Settles O24: each row takes its one path, and the pair that a miss brings holds the entry asked for. -/
theorem keyStreamsOpen : Obligations.KeyStreamsOpen := by
  intro st s hs hrun t
  refine ⟨fun i e ho => ⟨_, _, execStreamOpen_opens hs hrun ho, rfl, rfl, rfl, rfl, rfl, rfl, rfl, rfl⟩,
    fun j x hdrs hx hph => ⟨fun s1 hgo => execPrecheckDone_passes hs hrun hx hph hgo, fun s1 c d n hgo => ?fails⟩,
    fun m hw hc hp => ?fill⟩
  case fails =>
    have hfail := execPrecheckDone_fails hs hrun hx hph hgo
    refine ⟨fun e he => ?_, fun he => ?_⟩
    · rw [he] at hfail
      exact hfail
    · rw [he] at hfail
      exact hfail
  case fill =>
    refine ⟨_, execMapCacheFill_of hs hrun hw hc (State.mapMiss_clean hp rfl), ?_, ?_, ?_⟩
    · rw [State.updFunnel_same, Funnel.cached_fillPair]
    · rw [State.updFunnel_same, Funnel.fillPair_miss, State.countSieve_stations, State.updFunnel_same]
    · rw [State.updFunnel_mem, State.countSieve_data, State.updFunnel_mem]

end Sys2Proof.Machine
end

section
/-! Key pages arrive and key rows launch (R152, R153, R157, R159): the branches of a page that passes, and what a launch does to a
consumer's station. -/

namespace Sys2Proof.Machine

/-! ## What a lead's stream leaves of a station -/

/-- A station apart from its Funnel and its queues, which are all that a stream's going on touches. -/
def Station.sansStreams (t : Station) : Station := { t with funnel := Funnel.reset, queues := Vector.replicate 22 [] }

section
variable {t v : Station} (h : v.sansStreams = t.sansStreams)
include h

theorem Station.job_of_sansStreams : v.job = t.job := (congrArg Station.job h :)
theorem Station.pantry_of_sansStreams : v.pantry = t.pantry := (congrArg Station.pantry h :)
theorem Station.griddles_of_sansStreams : v.griddles = t.griddles := (congrArg Station.griddles h :)
theorem Station.updGriddle_sansStreams (g : Fin 2) (f : Griddle → Griddle) :
    (v.updGriddle g f).sansStreams = (t.updGriddle g f).sansStreams :=
  (congrArg (fun t => t.updGriddle g f) h :)
end

@[simp] theorem Station.updGriddle_griddles (t : Station) (g : Fin 2) (f : Griddle → Griddle) :
    (t.updGriddle g f).griddles = vupd t.griddles g f := rfl

@[simp] theorem Station.updGriddle_pantry (t : Station) (g : Fin 2) (f : Griddle → Griddle) :
    (t.updGriddle g f).pantry = t.pantry := rfl

theorem Station.funnel_sansStreams (t : Station) (f : Funnel) : Station.sansStreams { t with funnel := f } = t.sansStreams := rfl

theorem Station.closedGroup_sansStreams (t : Station) (grp : Nat) : (t.closedGroup grp).sansStreams = t.sansStreams := rfl

/-- A change of a Funnel is none of its station's other parts. -/
theorem State.updFunnel_sansStreams (s : State) (st m : Fin 16) (f : Funnel → Funnel) :
    (s.updFunnel st f).stations[m].sansStreams = s.stations[m].sansStreams := by
  rw [State.updFunnel, State.updStn_get]
  split <;> rfl

theorem State.mapStns_sansStreams {s : State} {p : Fin 16 → Bool} {f : Station → Station}
    (h : ∀ t, (f t).sansStreams = t.sansStreams) (m : Fin 16) :
    (s.mapStns p f).stations[m].sansStreams = s.stations[m].sansStreams := by
  rw [State.mapStns_get]
  split
  · exact h _
  · rfl

theorem State.closeStream_sansStreams (s : State) (st m : Fin 16) (j grp : Nat) :
    (s.closeStream st j grp).stations[m].sansStreams = s.stations[m].sansStreams :=
  (State.mapStns_sansStreams (fun t => t.closedGroup_sansStreams grp) m).trans (State.updFunnel_sansStreams ..)

theorem State.goOn_sansStreams (s : State) (st m : Fin 16) (j : Nat) (d : ObjDesc) (x : KeyStream) :
    (s.goOn st j d x).stations[m].sansStreams = s.stations[m].sansStreams := by
  unfold State.goOn
  split
  · split
    · exact State.updFunnel_sansStreams ..
    · exact State.closeStream_sansStreams ..
  · exact State.updFunnel_sansStreams ..

theorem State.launched_sansStreams (s : State) (st m : Fin 16) (j : Nat) (x : KeyStream) :
    (s.launched st j x).stations[m].sansStreams = s.stations[m].sansStreams := by
  unfold State.launched
  split
  · rfl
  · exact State.goOn_sansStreams ..

/-- Whether a station's job runs is seen apart from its Funnel and its queues. -/
theorem State.jobRuns_of_sansStreams {s u : State} {t v : Station} (hc : u.crown = s.crown) (h : v.sansStreams = t.sansStreams) :
    u.jobRuns v = s.jobRuns t := by
  rw [State.jobRuns, State.stnJob, Station.job_of_sansStreams h, hc]
  rfl

/-! ## A page that passes its checks -/

theorem execPageArrival_passes {s s1 s2 : State} {st : Fin 16} {j : Nat} {x : KeyStream} {d : ObjDesc} {ks : KeySet}
    {remote : PageRead} {e : KpmEntry} {hdr bs : List Byte} (hs : s.Specified) (hrun : s.jobRuns s.stations[st] = true)
    (hf : s.fetching st j = some (x, d)) (hks : s.stnKeySet s.stations[st] = some ks)
    (hpage : s.checkPage st (s.stnTag s.stations[st]) d x.pages remote false = (s1, .ok (e, hdr)))
    (hbytes : s1.pageBytes e 512 (field hdr 24 4) remote = (s2, .ok bs)) :
    execPageArrival st j remote s = .next (
      let y := (s2.updFunnel st fun f => { f with pagesOk := wrapAdd f.pagesOk 1 }).expand st ks d
        { x with pages := x.pages + 1, body := x.body ++ bs, seed := slice hdr 28 32 }
      y.1.goOn st j d y.2) := by
  rw [execPageArrival, occurs_of hs (by rw [hrun, hf]; rfl), hf, hks]
  dsimp only
  rw [hpage]
  dsimp only
  rw [hbytes]

/-! ## A row that launches -/

/-- The segments of a group's dies have counted how long each held a granted slot idle (R157). -/
def State.slotsHeld (s : State) (grp : Nat) (wait : List Nat) : State :=
  (s.groupDies grp).foldl (fun s d => s.mapStns (fun m => m.val / 4 == d) fun t =>
    { t with funnel := { t.funnel with slotwait := wrapAdd t.funnel.slotwait (wait.getD d 0) } }) s

theorem State.slotsHeld_sansStreams (s : State) (grp : Nat) (wait : List Nat) (m : Fin 16) :
    (s.slotsHeld grp wait).stations[m].sansStreams = s.stations[m].sansStreams :=
  foldl_same (g := fun s : State => s.stations[m].sansStreams) (fun _ _ => State.mapStns_sansStreams (fun t => t.funnel_sansStreams _) m) ..

@[simp] theorem State.slotsHeld_crown (s : State) (grp : Nat) (wait : List Nat) : (s.slotsHeld grp wait).crown = s.crown :=
  foldl_same (g := State.crown) (fun _ _ => State.mapStns_crown ..) ..

/-- A launch counts the waits, delivers the row to each consumer in turn, and the lead's stream goes on where its job still runs. -/
theorem execKeyRowLaunch_of {s : State} {grp : Fin 64} {st : Fin 16} {j : Nat} {x : KeyStream} (wait : List Nat) (hs : s.Specified)
    (hl : s.launchable grp.val = some (st, j, x)) :
    execKeyRowLaunch grp wait s = .next (
      let s2 := (s.groupConsumers grp.val).foldl (State.deliver x.cur (x.launch.take 128)) (s.slotsHeld grp.val wait)
      if s2.jobRuns s2.stations[st] then s2.launched st j x else s2) := by
  rw [execKeyRowLaunch, occurs_of hs (by rw [hl]; rfl), hl]
  rfl

/-- A Griddle takes a row of a relinearisation or rotation key into its key FIFO (R83). -/
theorem State.deliver_griddle {s : State} {m : Fin 16} {p : KeyPart} (g : Fin 2) (ws : List Word)
    (hrun : s.jobRuns s.stations[m] = true) (hk : p.kind = 4 ∨ p.kind = 5) :
    State.deliver p ws s (m, .griddle g) =
      s.putStn m (s.stations[m].updGriddle g fun x => { x with keyFifo := x.keyFifo ++ ws }) := by
  have htakes : s.stations[m].takes (.griddle g) p = true := by simpa [Station.takes] using hk
  rw [State.deliver]
  dsimp only
  rw [hrun, htakes]
  rfl

/-- Where a group's one consumer is a Griddle, the launch leaves its station, but for Funnel and queues, as the row finds it with the
row in that Griddle's key FIFO. -/
theorem execKeyRowLaunch_griddle {s : State} {grp : Fin 64} {st m : Fin 16} {g : Fin 2} {j : Nat} {x : KeyStream} (wait : List Nat)
    (hs : s.Specified) (hl : s.launchable grp.val = some (st, j, x)) (hc : s.groupConsumers grp.val = [(m, .griddle g)])
    (hrun : s.jobRuns s.stations[m] = true) (hk : x.cur.kind = 4 ∨ x.cur.kind = 5) :
    ∃ u : State, execKeyRowLaunch grp wait s = .next u ∧ u.stations[m].sansStreams =
      (s.stations[m].updGriddle g fun y => { y with keyFifo := y.keyFifo ++ x.launch.take 128 }).sansStreams := by
  have held : (s.slotsHeld grp.val wait).stations[m].sansStreams = s.stations[m].sansStreams := State.slotsHeld_sansStreams ..
  have runs := (State.jobRuns_of_sansStreams (State.slotsHeld_crown s grp.val wait) held).trans hrun
  refine ⟨_, execKeyRowLaunch_of wait hs hl, ?_⟩
  rw [hc, List.foldl_cons, List.foldl_nil, State.deliver_griddle g _ runs hk]
  dsimp only
  split
  · rw [State.launched_sansStreams, State.putStn_same, Station.updGriddle_sansStreams held]
  · rw [State.putStn_same, Station.updGriddle_sansStreams held]

/-- Settles O25: a page that passes takes the branch of R159, and a launch appends its row to the one key FIFO that takes it. -/
theorem keyStreamsDeliver : Obligations.KeyStreamsDeliver := by
  intro st s hs
  refine ⟨fun j x d ks remote s1 s2 e hdr bs hrun hf hks hpage hbytes => execPageArrival_passes hs hrun hf hks hpage hbytes,
    fun grp j wait x m g hl hc hrun hk => ?_⟩
  obtain ⟨u, hu, hm⟩ := execKeyRowLaunch_griddle wait hs hl hc hrun hk
  refine ⟨u, hu, ?_, ?_⟩
  · rw [Station.griddles_of_sansStreams hm, Station.updGriddle_griddles, vupd_same]
  · rw [Station.pantry_of_sansStreams hm, Station.updGriddle_pantry]

end Sys2Proof.Machine
end

section
/-! The memories' canonical form along every step (log entry 40): each command keeps it, and the reset state has it. -/

namespace Sys2Proof.Machine

/-- A command that answers a next state keeps the memories' form, the access to a unit alone being one that may stop instead. -/
theorem exec_canonical {c : Instr} {s t : State} (hs : s.Canonical) (h : exec c s = .next t) : t.Canonical := by
  have of_answers (ha : State.Answers c.parts s (exec c s)) : t.Canonical := by
    obtain ⟨u, hu, hk⟩ := ha
    obtain rfl : u = t := by injection hu.symm.trans h
    exact hk.canonical hs
  by_cases hc : ∃ ma acc, c = .memUnitAccess ma acc
  · obtain ⟨ma, acc, rfl⟩ := hc
    rcases execMemUnitAccess_answers (s := s) ma acc with ha | ⟨-, hf⟩
    · exact of_answers ha
    · exact nomatch hf.symm.trans h
  · exact of_answers (exec_answers c fun ma acc e => hc ⟨ma, acc, e⟩)

/-- Settles O57: the idle step changes nothing, and the front command keeps the form of a state whose queue alone has moved on. -/
theorem memoriesStayCanonical : Obligations.MemoriesStayCanonical := by
  intro s t hs h
  unfold step at h
  split at h
  · obtain rfl : s = t := by injection h
    exact hs
  · next c rest _ => exact exec_canonical (s := { s with pending := rest }) hs h

/-- Settles O58: no byte of a memory is listed after a reset, and an unlisted byte reads 0. -/
theorem resetIsCanonical : Obligations.ResetIsCanonical := by
  refine ⟨State.reset_canonical, fun _ => rfl, fun st a => ?_, rfl⟩
  have hst : State.reset.stations[st] = Station.reset := Vector.getElem_replicate ..
  rw [hst]
  rfl

end Sys2Proof.Machine
end

section
/-! The Pantry's 8-byte words (R168): CLOAD and CSTORE of a word that may be accessed narrowly take their one path. -/

namespace Sys2Proof.Machine

/-- A word that may be accessed narrowly passes the checks of R168 and R171. -/
theorem Station.narrowFault_of {t : Station} {a : Nat} (h : t.Narrow a) : t.narrowFault a = none := by
  obtain ⟨halign, hwin, hdual⟩ := h
  have hmod : ¬ ((a : Int) % 8 ≠ 0) := by omega
  simp [Station.narrowFault, firstFault, hmod, hwin, hdual]

theorem execCload_of {s : State} {st : Fin 16} {iw : BitVec 128} {a : Nat} (hx : s.Executes st 0x05 iw)
    (ha : s.stations[st].ea (d0Of iw) = a) (hn : s.stations[st].Narrow a) :
    execCload st .clean s = .next (s.putStn st { s.stations[st].advance with
      load := some ⟨iw, BitVec.ofNat 5 (modsFld iw 0 5), BitVec.ofNat 64 (leNat (s.stations[st].rd a 8))⟩ }) := by
  rw [execCload, controlRow_of hx, ha, Station.narrowFault_of hn]
  simp only [State.eccSeen_clean, State.updStn_eq_putStn, ha, Int.toNat_natCast]

theorem execCstore_of {s : State} {st : Fin 16} {iw : BitVec 128} {a : Nat} (hx : s.Executes st 0x06 iw)
    (ha : s.stations[st].ea (d0Of iw) = a) (hn : s.stations[st].Narrow a) :
    execCstore st s =
      .next (s.controlDone st iw (s.stations[st].wr a (natLe 8 (s.stations[st].ctr (modsFld iw 0 5)).toNat))) := by
  rw [execCstore, controlRow_of hx, ha, Station.narrowFault_of hn, Int.toNat_natCast]

theorem execCloadWordArrival_of {s : State} {st : Fin 16} {l : LoadPend} (hs : s.Specified)
    (hrun : s.jobRuns s.stations[st] = true) (hl : s.stations[st].load = some l) :
    execCloadWordArrival st s = .next ((s.putStn st { s.stations[st] with
      ctrs := vupdN s.stations[st].ctrs l.ctr.toNat fun _ => l.word.setWidth 32
      load := none }).raise st l.iw) := by
  have five_bits : l.ctr.toNat % 32 = l.ctr.toNat := Nat.mod_eq_of_lt l.ctr.isLt
  rw [execCloadWordArrival, occurs_of hs (by rw [hrun, hl]; rfl), hl]
  simp only [Station.setCtr, five_bits]

/-- Settles O3: a narrow word's checks pass, and the word that arrives names its counter in five bits. -/
theorem scratchpadWords : Obligations.ScratchpadWords := by
  intro st s iw a ha hn
  exact ⟨fun hx => execCload_of hx ha hn, fun hx => execCstore_of hx ha hn, fun l hs hrun hl => execCloadWordArrival_of hs hrun hl⟩

end Sys2Proof.Machine
end

section
/-! What the Pantry's code finds (R181): corrected errors only count, and an uncorrectable word ends the reading instruction's job. -/

namespace Sys2Proof.Machine

/-- An abort leaves every Pantry and every Skillet as it was. -/
theorem State.abortJob_pantry_skillets (s : State) (j : Nat) (cause : Byte) (timeout : Bool) (st : Fin 16) :
    (s.abortJob j cause timeout).stations[st].pantry = s.stations[st].pantry ∧
      (s.abortJob j cause timeout).stations[st].skillets = s.stations[st].skillets := by
  by_cases h : ∃ x, s.crown.jobs.get? j = some x ∧ x.state.abortable = true
  · obtain ⟨x, hx, ha⟩ := h
    rw [State.abortJob_stn cause timeout hx ha]
    split <;> exact ⟨rfl, rfl⟩
  · rw [State.abortJob_none cause timeout fun x hx => Bool.eq_false_iff.mpr fun ha => h ⟨x, hx, ha⟩]
    exact ⟨rfl, rfl⟩

/-! ## Corrected errors -/

/-- The station once so many corrected errors have been counted, while the count is below its limit. -/
def Station.corrected (t : Station) (n : Nat) : Station :=
  { t with pantry := { t.pantry with corr := BitVec.ofNat 16 (t.pantry.corr.toNat + n) } }

/-- Corrected errors below the count's limit are counted, and nothing is logged. -/
theorem State.eccCount_corrected {s : State} {st : Fin 16} {n : Nat} (h : s.stations[st].pantry.corr.toNat + n < 2 ^ 16 - 1) :
    s.eccCount st (.corrected n) = s.putStn st (s.stations[st].corrected n) := by
  have counted : satAdd s.stations[st].pantry.corr n = BitVec.ofNat 16 (s.stations[st].pantry.corr.toNat + n) := by
    rw [satAdd, Nat.min_eq_left (Nat.le_of_lt h)]
  have below : justSat s.stations[st].pantry.corr (satAdd s.stations[st].pantry.corr n) = false := by
    rw [counted, justSat, BitVec.toNat_ofNat, beq_eq_false_iff_ne.mpr (by omega), Bool.and_false]
  rw [State.eccCount]
  dsimp only
  rw [below, State.noteIf, if_neg Bool.false_ne_true, State.updStn_eq_putStn, counted, Station.corrected]

theorem State.Issued.corrected {s : State} {st : Fin 16} {q : Fin 22} {op i : Nat} {e : QEntry} (h : s.Issued st q op i e)
    (n : Nat) :
    (s.putStn st (s.stations[st].corrected n)).Issued st q op i e := by
  obtain ⟨hs, hrun, hq⟩ := h
  refine ⟨hs, ?_, ?_⟩
  · rw [State.putStn_same]; exact hrun
  · rw [State.putStn_same]; exact hq

/-- Corrected errors are counted, and the operation starts as it would without them. -/
theorem opRead_corrected {s : State} {st : Fin 16} {q : Fin 22} {op i n : Nat} {e : QEntry}
    {plan : State → Station → QEntry → Plan}
    (h : s.Issued st q op i e) (hn : s.stations[st].pantry.corr.toNat + n < 2 ^ 16 - 1) :
    opRead st q op (.corrected n) plan s = opRead st q op .clean plan (s.putStn st (s.stations[st].corrected n)) := by
  rw [opRead_clean (h.corrected n)]
  obtain ⟨hs, hrun, hq⟩ := h
  rw [opRead, occurs_of hs (by rw [hrun, hq]; rfl), hq]
  dsimp only
  rw [State.eccSeen, State.eccCount_corrected hn]
  exact nofun

/-! ## An uncorrectable word -/

/-- The state once an uncorrectable word has been counted, at the Pantry and as an INTERNAL fault of the engine that read it. -/
def State.wordLost (s : State) (st : Fin 16) (unit : Nat) (bank : BitVec 5) (row : BitVec 11) : State :=
  (s.eccCount st (.uncorrectable bank row)).countInternal st unit

theorem State.wordLost_stn (s : State) (st : Fin 16) (unit : Nat) (bank : BitVec 5) (row : BitVec 11) :
    (s.wordLost st unit bank row).stations[st] = { s.stations[st] with
      internals := s.stations[st].internals.put unit (s.stations[st].internals.getD unit 0 + 1)
      pantry := { s.stations[st].pantry with uncorr := satAdd s.stations[st].pantry.uncorr 1, bank := bank, row := row } } := by
  rw [State.wordLost, State.countInternal, State.updStn_same, State.eccCount]
  dsimp only
  rw [State.noteIf_stations, State.updStn_same]

theorem State.wordLost_crown (s : State) (st : Fin 16) (unit : Nat) (bank : BitVec 5) (row : BitVec 11) :
    (s.wordLost st unit bank row).crown = s.crown := State.noteIf_crown ..

theorem opRead_uncorrectable {s : State} {st : Fin 16} {q : Fin 22} {op i : Nat} {e : QEntry}
    {plan : State → Station → QEntry → Plan}
    (h : s.Issued st q op i e) (bank : BitVec 5) (row : BitVec 11) :
    opRead st q op (.uncorrectable bank row) plan s = .next ((s.wordLost st (engineIndex q) bank row).loggedFault st 22
      Code.internal (natLe 4 (bank.toNat * 2048 + row.toNat))) := by
  obtain ⟨hs, hrun, hq⟩ := h
  rw [opRead, occurs_of hs (by rw [hrun, hq]; rfl), hq]
  rfl

section
variable {s : State} {st : Fin 16} {j : Nat} (unit : Nat) (c : Byte) (d : List Byte) (hj : s.stations[st].job = some j)
include hj

/-- A logged fault of a station with a job is that job's abort, once the log has taken its event. -/
theorem State.loggedFault_of : s.loggedFault st unit c d = (s.logEvt (s.jobEvt st unit c d)).abortJob j c :=
  State.instrFault_of c (by rw [State.logEvt_stations, hj])

theorem State.loggedFault_aborts {x : Job} (hx : s.crown.jobs.get? j = some x) (ha : x.state.abortable = true) :
    (s.loggedFault st unit c d).crown.jobs.get? j = some { x with state := .aborting, cause := c, timeout := false } := by
  have hx' : (s.logEvt (s.jobEvt st unit c d)).crown.jobs.get? j = some x := by rw [State.logEvt_crown, hx]
  rw [State.loggedFault_of unit c d hj, State.abortJob_job c false hx' ha, Tab.get?_upd_same, hx', Option.map_some]

theorem State.loggedFault_pantry_skillets :
    (s.loggedFault st unit c d).stations[st].pantry = s.stations[st].pantry ∧
      (s.loggedFault st unit c d).stations[st].skillets = s.stations[st].skillets := by
  have h := (s.logEvt (s.jobEvt st unit c d)).abortJob_pantry_skillets j c false st
  rwa [State.logEvt_stations, ← State.loggedFault_of unit c d hj] at h
end

/-- Settles O15: both reads run up to the code's finding, which goes on from the new count or ends the job in place of the plan. -/
theorem pantryCodeFindings : Obligations.PantryCodeFindings := by
  intro st v s i n e he
  refine ⟨fun hn => opRead_corrected he hn, fun bank row j hj => ⟨_, opRead_uncorrectable he bank row, ?_⟩⟩
  have hjob : (s.wordLost st (engineIndex (qSkillet v)) bank row).stations[st].job = some j := by
    rw [State.wordLost_stn]; exact hj
  refine ⟨fun x hx hrun => ?_, ?_⟩
  · have hx' : (s.wordLost st (engineIndex (qSkillet v)) bank row).crown.jobs.get? j = some x := by rw [State.wordLost_crown, hx]
    exact ⟨_, State.loggedFault_aborts _ _ _ hjob hx' (by rw [hrun]; rfl), rfl, rfl⟩
  · obtain ⟨hpantry, hskillets⟩ := State.loggedFault_pantry_skillets 22 Code.internal
      (natLe 4 (bank.toNat * 2048 + row.toNat)) hjob
    rw [hpantry, hskillets, State.wordLost_stn]
    exact ⟨rfl, rfl, rfl, rfl⟩

end Sys2Proof.Machine
end

section
/-! Zeroing and margin points (R172, R213, R215): what each event leaves of the window, of module memory and of a stack's registers. -/

namespace Sys2Proof.Machine

/-- A bit that is masked out reads 0. -/
theorem bitAt_and_not_pow {w i : Nat} (a : BitVec w) (h : i < w) : bitAt (a &&& ~~~ BitVec.ofNat w (2 ^ i)).toNat i = false := by
  rw [bitAt_toNat, BitVec.getLsbD_and, BitVec.getLsbD_not, BitVec.getLsbD_ofNat, Nat.testBit_two_pow_self, decide_eq_true h]
  exact Bool.and_false _

@[simp] theorem State.tryReady_mem (s : State) : s.tryReady.mem = s.mem := State.tryReady_keeps.same .mem (by decide)

theorem State.stackAt_val (s : State) (site : Fin 8) : s.stackAt site.val = s.mem.stackRegs[site] := by
  simp [State.stackAt]

/-- An event that finds room makes the log's queue one longer. -/
theorem State.logEvt_queue_length {s : State} {e : LogEvt} (h : s.mon.queue.length < 256) :
    (s.logEvt e).mon.queue.length = s.mon.queue.length + 1 := by
  rw [State.logEvt_room _ h]
  exact List.length_append

section
variable {s : State} (hs : s.Specified)
include hs

theorem execWindowZeroingDone_of {st : Fin 16} {w : Fin 4} (h : bitAt s.stations[st].pantry.zwin.toNat w.val = true) :
    execWindowZeroingDone st w s = .next (s.putStn st
      (let x := s.stations[st].pantry.wins[w]
       { s.stations[st] with pantry := { s.stations[st].pantry with
          mem := s.stations[st].pantry.mem.zeroRange x.baseAddr x.bytes
          wins := s.stations[st].pantry.wins.set w { x with valid := false }
          zwin := s.stations[st].pantry.zwin &&& ~~~ BitVec.ofNat 4 (2 ^ w.val) } })) :=
  occurs_of hs h

/-- Without a fault memory is ready, and the module with it where nothing else is missing. -/
theorem execMemZeroingDone_passes (hb : s.boot.state ≠ .off) (hz : s.mem.zeroing = true) :
    execMemZeroingDone true s = .next ({ s with mem := { s.mem with ready := true, zeroing := false } } : State).tryReady :=
  occurs_of hs (by rw [hz, Bool.and_true]; exact bne_iff_ne.mpr hb)

/-- A fault leaves READY at 0, and its event joins the log. -/
theorem execMemZeroingDone_fails (hb : s.boot.state ≠ .off) (hz : s.mem.zeroing = true) (hroom : s.mon.queue.length < 256) :
    ∃ t, execMemZeroingDone false s = .next t ∧ t.mem = { s.mem with ready := false, zeroing := false } ∧
      t.mon.queue.length = s.mon.queue.length + 1 := by
  refine ⟨_, occurs_of hs (by rw [hz, Bool.and_true]; exact bne_iff_ne.mpr hb), ?_, ?_⟩
  · rw [if_neg Bool.false_ne_true, State.tick_mem, State.logEvt_mem]
  · rw [if_neg Bool.false_ne_true, State.tick_mon]
    exact State.logEvt_queue_length hroom

theorem execMarginPointTest_shows {site : Fin 8} (pass : Bool) (hm : s.mem.margin = true)
    (hr : s.mem.stackRegs[site].running = true) (hreq : s.crown.marginReq = none) :
    execMarginPointTest site pass s = .next (s.updStack site.val fun x => { x with passed := pass, running := false }) := by
  rw [execMarginPointTest, occurs_of hs (by rw [hm, State.stackAt_val, hr]; rfl), hreq]
end

/-- Settles O29: each event occurs, and its effect is read off its one change. -/
theorem zeroingAndMargin : Obligations.ZeroingAndMargin := by
  intro s hs
  refine ⟨fun st w hw => ⟨_, execWindowZeroingDone_of hs hw, ?window⟩,
    fun hb hz => ⟨?ready, execMemZeroingDone_fails hs hb hz⟩,
    fun site pass hm hr hreq => ⟨_, execMarginPointTest_shows hs pass hm hr hreq, ?margin⟩⟩
  case window =>
    rw [State.putStn_same]
    refine ⟨fun a hlo hhi => ?_, fun a ha => ?_, vset_same .., bitAt_and_not_pow _ w.isLt, fun st' h => State.putStn_ne _ h⟩
    · exact (Mem.read_zeroRange ..).trans (if_neg (by omega))
    · exact (Mem.read_zeroRange ..).trans (if_pos ha)
  case ready => exact ⟨_, execMemZeroingDone_passes hs hb hz, State.tryReady_mem _⟩
  case margin => exact ⟨State.updStack_same .., fun o ho => State.updStack_ne _ ho, State.updStack_data ..⟩

end Sys2Proof.Machine
end

section
/-! Accesses from one station to another's Pantry (R180, R258): the oldest one is answered, lands, or names a role that has ended. -/

namespace Sys2Proof.Machine

section
variable {src dst : Fin 16} {s : State} {i : Nat} {m : NetMsg} {e : Fin 4} {xid idx off a len : Nat} {bytes : List Byte}
  (hs : s.Specified) (hm : firstWith (fun n => n.isAccess && n.src == src && n.dst == dst) s.net = some (i, m))
include hs hm

/-- An access of a role that has ended is counted at its target and answered. -/
theorem execRemotePantryAccess_stale (hacc : s.stations[dst].accepts m.ses m.epoch = false) :
    execRemotePantryAccess src (dst, .clean) s =
      .next ({ s with net := s.net.eraseIdx i ++ [m.answer] }.putStn dst
        { s.stations[dst] with staleAcc := wrapAdd s.stations[dst].staleAcc 1 }) := by
  rw [execRemotePantryAccess, occurs_of hs (by rw [hm]; rfl), hm]
  dsimp only
  rw [hacc, Bool.not_false, if_pos rfl]
  rfl

variable (hacc : s.stations[dst].accepts m.ses m.epoch = true) (hsend : s.senderRuns m = true)
include hacc hsend

/-- A read of the window brings its bytes to the sender's chunk. -/
theorem execRemotePantryAccess_read (hk : m.kind = .paRead e xid idx off a len) (hwin : s.stations[dst].inWin a len = true) :
    execRemotePantryAccess src (dst, .clean) s =
      .next (({ s with net := s.net.eraseIdx i } : State).gotData src e xid idx off (s.stations[dst].rd a len)) := by
  rw [execRemotePantryAccess, occurs_of hs (by rw [hm]; rfl), hm]
  dsimp only
  rw [hacc, hk]
  dsimp only
  rw [hwin, hsend]
  rfl

/-- A write lands in the target's window and is accepted at its sender. -/
theorem execRemotePantryAccess_write (hne : src ≠ dst) (hk : m.kind = .paWrite e xid idx off a bytes)
    (hwin : s.stations[dst].inWin a bytes.length = true) :
    execRemotePantryAccess src (dst, .clean) s =
      .next ((({ s with net := s.net.eraseIdx i } : State).putStn dst (s.stations[dst].wr a bytes)).putStn src
        (s.stations[src].updSe e fun x => x.accepted xid idx off bytes.length)) := by
  rw [execRemotePantryAccess, occurs_of hs (by rw [hm]; rfl), hm]
  dsimp only
  rw [hacc, hk]
  dsimp only
  rw [hwin, hsend, Bool.not_true, if_neg Bool.false_ne_true, if_neg Bool.false_ne_true, if_pos rfl, State.updStn_eq_putStn,
    State.updStn_eq_putStn, State.putStn_ne _ hne]
end

/-- Settles O23: each access takes its row's one path. -/
theorem remotePantry : Obligations.RemotePantry := by
  intro src dst s i m e xid idx off a len bytes hs hm hne
  exact ⟨fun hacc hsend hk hwin => execRemotePantryAccess_read hs hm hacc hsend hk hwin,
    fun hacc hsend hk hwin => execRemotePantryAccess_write hs hm hacc hsend hne hk hwin,
    fun hacc => execRemotePantryAccess_stale hs hm hacc⟩

end Sys2Proof.Machine
end

section
/-! Chunks and gathered rows (R167, R189, R193, R210, R244): a chunk takes its tag and is answered by its source, lands at its
destination, and an XGATHER's next bytes join the row being gathered. -/

namespace Sys2Proof.Machine

/-! ## A chunk takes a tag -/

/-- The engine once the next chunk of a descriptor has its tag. -/
def StreamEng.tagged (x : StreamEng) (r : RDesc) : StreamEng :=
  { x with
    chunks := x.chunks ++ [⟨r.xid, r.idx, r.issued, r.chunkLen, none, 0, false⟩]
    run := x.run.map fun y => if y.xid = r.xid ∧ y.idx = r.idx then { y with issued := r.issued + r.chunkLen } else y }

/-- The engine once the bytes of that chunk have come too. -/
def StreamEng.answered (x : StreamEng) (r : RDesc) (b : List Byte) : StreamEng :=
  (x.tagged r).updChunk r.xid r.idx r.issued fun c => { c with data := some b }

section
variable {x : StreamEng} {r : RDesc}

theorem StreamEng.run?_tagged (hr : x.run? r.xid r.idx = some r) :
    (x.tagged r).run? r.xid r.idx = some { r with issued := r.issued + r.chunkLen } := by
  have names : ((fun y : RDesc => y.xid == r.xid && y.idx == r.idx) ∘ fun y : RDesc =>
      if y.xid = r.xid ∧ y.idx = r.idx then { y with issued := r.issued + r.chunkLen } else y) =
      fun y => y.xid == r.xid && y.idx == r.idx := by
    funext y
    dsimp only [Function.comp]
    split <;> rfl
  rw [StreamEng.run?] at hr
  rw [StreamEng.run?, StreamEng.tagged, List.find?_map, names, hr, Option.map_some, if_pos ⟨rfl, rfl⟩]

section
variable (hnew : ∀ k ∈ x.chunks, k.xid = r.xid → k.idx = r.idx → k.off ≠ r.issued)
include hnew

theorem StreamEng.chunk?_tagged :
    (x.tagged r).chunk? r.xid r.idx r.issued = some ⟨r.xid, r.idx, r.issued, r.chunkLen, none, 0, false⟩ := by
  have absent : x.chunks.find? (fun c => c.xid == r.xid && c.idx == r.idx && c.off == r.issued) = none := by
    simpa [List.find?_eq_none] using hnew
  simp [StreamEng.chunk?, StreamEng.tagged, List.find?_append, absent]

theorem StreamEng.answered_chunks (b : List Byte) :
    (x.answered r b).chunks = x.chunks ++ [⟨r.xid, r.idx, r.issued, r.chunkLen, some b, 0, false⟩] := by
  have others : (x.chunks.map fun c => if c.xid = r.xid ∧ c.idx = r.idx ∧ c.off = r.issued then { c with data := some b } else c) =
      x.chunks :=
    (List.map_congr_left fun c hc => if_neg fun ⟨hxid, hidx, hoff⟩ => hnew c hc hxid hidx hoff).trans (List.map_id _)
  rw [StreamEng.answered, StreamEng.updChunk, StreamEng.tagged, List.map_append, others, List.map_singleton,
    if_pos ⟨rfl, rfl, rfl⟩]
end
end

theorem State.gotData_local {s : State} {st : Fin 16} {e : Fin 4} {xid idx off : Nat} {k : Chunk} {r : RDesc} (b : List Byte)
    (hk : s.stations[st].ses4[e].chunk? xid idx off = some k) (hr : s.stations[st].ses4[e].run? xid idx = some r)
    (hd : (dscDst r.bytes).space ≠ spRpantry) :
    s.gotData st e xid idx off b =
      s.updStn st fun t => t.updSe e fun x => x.updChunk xid idx off fun c => { c with data := some b } := by
  rw [State.gotData]
  dsimp only
  rw [hk, hr]
  exact if_neg fun h => hd h.1

section
variable {s : State} {st : Fin 16} {e : Fin 4} {r : RDesc}
  (hr : s.stations[st].ses4[e].run? r.xid r.idx = some r) (hd : (dscDst r.bytes).space ≠ spRpantry)
  (hnew : ∀ k ∈ s.stations[st].ses4[e].chunks, k.xid = r.xid → k.idx = r.idx → k.off ≠ r.issued)
include hr hd hnew

/-- A source on the station answers in the step. -/
theorem State.gotData_tagged (b : List Byte) :
    (s.updStn st fun t => t.updSe e fun x => x.tagged r).gotData st e r.xid r.idx r.issued b =
      s.putStn st (s.stations[st].updSe e fun x => x.answered r b) := by
  have htag : ((s.updStn st fun t => t.updSe e fun x => x.tagged r).stations[st]).ses4[e] = s.stations[st].ses4[e].tagged r := by
    rw [State.updStn_same, Station.updSe, vupd_same]
  have hrun := StreamEng.run?_tagged hr
  have hchunk := StreamEng.chunk?_tagged hnew
  rw [← htag] at hrun hchunk
  rw [State.gotData_local b hchunk hrun hd, State.updStn_eq_putStn s, State.updStn_putStn]
  simp only [Station.updSe, vupd_vupd, StreamEng.answered]

theorem State.chunkRead_pantry (h : (dscSrc r.bytes).space = spPantry) :
    s.chunkRead st e r = s.putStn st (s.stations[st].updSe e fun x =>
      x.answered r (s.stations[st].rd ((dscSrc r.bytes).off + r.issued) r.chunkLen)) := by
  rw [State.chunkRead]
  dsimp only
  rw [h, if_pos rfl]
  exact State.gotData_tagged hr hd hnew _

theorem State.chunkRead_zeros (h : (dscSrc r.bytes).space = spNone) :
    s.chunkRead st e r = s.putStn st (s.stations[st].updSe e fun x => x.answered r (zeros r.chunkLen)) := by
  rw [State.chunkRead]
  dsimp only
  rw [h, if_neg (by decide), if_pos rfl]
  exact State.gotData_tagged hr hd hnew _

theorem State.chunkRead_mem {h : Handle} (hsp : (dscSrc r.bytes).space = spMem)
    (hh : s.handleOf s.stations[st] (dscSrc r.bytes).handle = some h)
    (hp : s.poisonIn (h.addr + (dscSrc r.bytes).off + r.issued) r.chunkLen = []) :
    s.chunkRead st e r = s.putStn st (s.stations[st].updSe e fun x =>
      x.answered r (s.memBytes (h.addr + (dscSrc r.bytes).off + r.issued) r.chunkLen)) := by
  rw [State.chunkRead]
  dsimp only
  rw [hsp, if_neg (by decide), if_neg (by decide), if_pos rfl, hh]
  dsimp only
  rw [State.memGet_clean]
  · exact State.gotData_tagged hr hd hnew _
  · exact hp
end

theorem State.chunkRead_host {s : State} {st : Fin 16} {e : Fin 4} {r : RDesc} (h : (dscSrc r.bytes).space = spHost) :
    s.chunkRead st e r = s.putStn st (s.stations[st].updSe e fun x => x.tagged r) := by
  rw [State.chunkRead]
  dsimp only
  rw [h, if_neg (by decide), if_neg (by decide), if_neg (by decide), if_neg (by decide), if_neg (by decide)]
  rfl

theorem execChunkIssue_clean {s : State} {st : Fin 16} {e : Fin 4} {r : RDesc} (hs : s.Specified)
    (hrun : s.jobRuns s.stations[st] = true) (hi : s.stations[st].ses4[e].issuing = some r) :
    execChunkIssue st (e, .clean) s = .next (s.chunkRead st e r) := by
  rw [execChunkIssue, occurs_of hs (by rw [hrun, hi]; rfl)]
  dsimp only
  rw [hi]
  rfl

/-! ## A chunk lands -/

/-- The station once a landed chunk has released its tag. -/
def Station.released (t : Station) (e : Fin 4) (c : Nat) (k : Chunk) : Station :=
  (t.updSe e fun x => { x with chunks := x.chunks.eraseIdx c }).landBytes e k.xid k.idx k.len

/-- A chunk that begins and ends on a row's bounds has no row to share. -/
theorem StreamEng.wholeRows_whole {x : StreamEng} {k : Chunk} (b : List Byte) (hhead : k.off % 512 = 0)
    (htail : (k.off + k.len) % 512 = 0) : x.wholeRows k b = (k.off, b) := by
  simp only [StreamEng.wholeRows, hhead, htail, if_true]

theorem execChunkLand_clean {s : State} {st : Fin 16} {e : Fin 4} {c : Nat} {k : Chunk} {r : RDesc} {b : List Byte}
    (hs : s.Specified) (hrun : s.jobRuns s.stations[st] = true) (hl : s.stations[st].ses4[e].landable c = some (k, r, b))
    (hkind : dscKind r.bytes ≠ 3) :
    execChunkLand st e c .clean s = .next ((s.chunkWrite st e r k b).updStn st fun t => t.released e c k) := by
  rw [execChunkLand, occurs_of hs (by rw [hrun, hl]; rfl)]
  dsimp only
  rw [hl]
  dsimp only
  rw [State.eccSeen_clean, if_neg hkind]
  rfl

theorem State.chunkWrite_pantry {s : State} {st : Fin 16} {e : Fin 4} {k : Chunk} {r : RDesc} {b : List Byte}
    (h : (dscDst r.bytes).space = spPantry) :
    s.chunkWrite st e r k b = s.putStn st (s.stations[st].wr
      ((dscDst r.bytes).off + (s.stations[st].ses4[e].wholeRows k b).1) (s.stations[st].ses4[e].wholeRows k b).2) := if_pos h

theorem State.chunkWrite_mem {s : State} {st : Fin 16} {e : Fin 4} {k : Chunk} {r : RDesc} {b : List Byte} {h : Handle}
    (hsp : (dscDst r.bytes).space = spMem) (hh : s.handleOf s.stations[st] (dscDst r.bytes).handle = some h) :
    s.chunkWrite st e r k b = s.memPut (h.addr + (dscDst r.bytes).off + k.off) b := by
  rw [State.chunkWrite]
  dsimp only
  rw [hsp, if_neg (by decide), if_pos rfl, hh]

/-! ## XGATHER's next bytes -/

/-- Where in its buffer the next index of an XGATHER points. -/
def Station.gatherOff (t : Station) (q : QEntry) : Nat := 32 * leNat (slice (t.indexRow q) (4 * (q.done % 128)) 4)

/-- The row being gathered, once the next index's bytes have joined it. -/
def State.gathered (s : State) (t : Station) (q : QEntry) (h : Handle) : List Byte :=
  q.acc ++ s.memBytes (h.addr + t.gatherOff q) 32

/-- The bytes of an index that is in its buffer, and not poisoned, are written with a row that they fill or end, and kept otherwise. -/
theorem execSieveRead_clean {s : State} {st : Fin 16} {e : Fin 4} {i : Nat} {q : QEntry} {h : Handle}
    (hq : s.Running st (qStream e) 0x11 i q) (hfree : gatherFree e s s.stations[st] q = true)
    (hh : s.handleOf s.stations[st] (s.stations[st].gatherHandle q.iw) = some h)
    (hin : s.stations[st].gatherOff q + 32 ≤ h.len) (hp : s.poisonIn (h.addr + s.stations[st].gatherOff q) 32 = []) :
    let acc := s.gathered s.stations[st] q h
    let row := s.stations[st].indexRow q
    execSieveRead st e .clean s = .next
      (if acc.length = 512 ∨ q.left = 1 then
        (s.countSieve (h.addr + s.stations[st].gatherOff q)).updStn st fun t =>
          ((t.wr (q.eaX.toNat + 512 * q.rows) (padTo 512 acc)).updSe e fun x =>
            { x with bytes := wrapAdd x.bytes 512 }).updAt (qStream e) i fun q =>
              { q.unitDone with acc := [], idx := row, rows := q.rows + 1 }
      else (s.countSieve (h.addr + s.stations[st].gatherOff q)).updStn st fun t =>
        t.updAt (qStream e) i fun q => { q.unitDone with acc := acc, idx := row }) := by
  intro acc row
  have fits : ¬ h.len < 32 * leNat (slice (s.stations[st].indexRow q) (4 * (q.done % 128)) 4) + 32 := Nat.not_lt.mpr hin
  rw [execSieveRead, runRow_of hq (by rw [hfree]; rfl), State.eccSeen_clean]
  dsimp only [State.eccMark]
  rw [hh]
  dsimp only
  rw [if_neg fits, State.sieve_clean]
  · rfl
  · exact hp

/-- Settles O21: a chunk's read is answered by the source that it names, a landing writes at the one place that it names, and a
gathered row is written when it is full or the last. -/
theorem chunksMove : Obligations.ChunksMove := by
  intro st e s t x
  refine ⟨fun r hs hrun hi hr hd hnew => ?issue, fun c k r b hs hrun hl hkind => ?land, fun i q h hq hfree hh => ?gather⟩
  case issue =>
    have issued := execChunkIssue_clean hs hrun hi
    have chunks (b : List Byte) : ((t.updSe e fun x => x.answered r b).ses4[e]).chunks =
        x.chunks ++ [⟨r.xid, r.idx, r.issued, r.chunkLen, some b, 0, false⟩] := by
      rw [Station.updSe, vupd_same, StreamEng.answered_chunks hnew]
    refine ⟨fun hsp => ?_, fun hsp => ?_, fun h hsp hh hp => ?_, fun hsp => ?_⟩
    · exact ⟨_, issued.trans (congrArg _ (State.chunkRead_pantry hr hd hnew hsp)), rfl, chunks _⟩
    · exact ⟨_, issued.trans (congrArg _ (State.chunkRead_zeros hr hd hnew hsp)), rfl, chunks _⟩
    · exact ⟨_, issued.trans (congrArg _ (State.chunkRead_mem hr hd hnew hsp hh hp)), rfl, chunks _⟩
    · refine ⟨_, issued.trans (congrArg _ (State.chunkRead_host hsp)), rfl, ?_⟩
      rw [Station.updSe, vupd_same, StreamEng.tagged]
  case land =>
    have landed := execChunkLand_clean hs hrun hl hkind
    refine ⟨StreamEng.wholeRows_whole b, fun hsp => landed.trans ?_, fun h hsp hh => landed.trans ?_⟩
    · rw [State.chunkWrite_pantry hsp, State.updStn_putStn]
      rfl
    · rw [State.chunkWrite_mem hsp hh]
      rfl
  case gather =>
    intro row n acc hin hp
    have read := execSieveRead_clean hq hfree hh hin hp
    exact ⟨fun hmore hleft => read.trans (congrArg _ (if_neg fun hfull => hfull.elim hmore (by omega))),
      fun hfull => read.trans (congrArg _ (if_pos hfull))⟩

end Sys2Proof.Machine
end

section
/-! The roles of stations at the end of a job (R172, R267, R268): what ends a job or a session afterwards frees buffers, key sets and
records, and gives no station a role, a window or another Pantry. -/

namespace Sys2Proof.Machine

/-- The count of commits, and every station apart from its Funnel and its queues. -/
def State.roles (s : State) : Word × Vector Station 16 := (s.crown.commits, s.stations.map Station.sansStreams)

section
variable {s t : State}

theorem State.roles_of (hc : t.crown.commits = s.crown.commits) (hs : t.stations = s.stations) : t.roles = s.roles := by
  rw [State.roles, hc, hs, State.roles]

theorem State.commits_of_roles (h : t.roles = s.roles) : t.crown.commits = s.crown.commits := congrArg Prod.fst h

theorem State.sansStreams_of_roles (h : t.roles = s.roles) (st : Fin 16) :
    t.stations[st].sansStreams = s.stations[st].sansStreams := by
  have hst : (t.stations.map Station.sansStreams)[st] = (s.stations.map Station.sansStreams)[st] :=
    congrArg (fun r : Word × Vector Station 16 => r.2[st]) h
  rwa [Fin.getElem_fin, Fin.getElem_fin, Vector.getElem_map, Vector.getElem_map] at hst
end

theorem Station.held_of_sansStreams {t v : Station} (h : v.sansStreams = t.sansStreams) : v.held = t.held :=
  (congrArg Station.held h :)

/-! ## What a job's and a session's end leaves of them -/

theorem State.pushPlain_roles (s : State) (f : Fin 64) (r : Reply) : (s.pushPlain f r).roles = s.roles := by
  unfold State.pushPlain
  split <;> rfl

theorem State.msi_roles (s : State) (f : Fin 64) (v : Nat) : (s.msi f v).roles = s.roles :=
  State.roles_of (by rw [State.msi_crown]) (State.msi_stations ..)

theorem State.invalidate_clearEntries_roles (s : State) (first n : Nat) :
    ((s.invalidate first n).clearEntries first n).roles = s.roles := by
  have hstations : (s.invalidate first n).stations.map Station.sansStreams = s.stations.map Station.sansStreams := by
    refine vext fun i => ?_
    have hi : (s.invalidate first n).stations[i].sansStreams = s.stations[i].sansStreams :=
      State.mapStns_sansStreams (fun t => t.funnel_sansStreams _) i
    rwa [Fin.getElem_fin, Fin.getElem_fin, Vector.getElem_map, Vector.getElem_map]
  rw [State.roles, State.invalidate_clearEntries_crown, State.clearEntries_stations, hstations, State.roles]

theorem State.releaseKeySet_roles (s : State) (tag : Nat) : (s.releaseKeySet tag).roles = s.roles := by
  unfold State.releaseKeySet
  cases s.crown.keysets.get? tag with
  | none => rfl
  | some k => exact foldl_same (fun s (d : ObjDesc) => s.invalidate_clearEntries_roles d.first d.pages) k.dir s

theorem State.releaseRetired_roles (s : State) : s.releaseRetired.roles = s.roles := foldl_same State.releaseKeySet_roles _ s

theorem State.refuseWaiting_roles (s : State) (ses : Nat) : (s.refuseWaiting ses).roles = s.roles :=
  foldl_same (f := fun s j => s.refuseJob j Code.busy 0 0) (fun s j => State.pushPlain_roles (s.updJob j _) ..) _ s

theorem State.closeFinish_roles (s : State) (ses : Nat) : (s.closeFinish ses).roles = s.roles := by
  have freed : (((s.refuseWaiting ses).retireAll ses).releaseRetired).roles = s.roles :=
    (State.releaseRetired_roles _).trans (s.refuseWaiting_roles ses)
  have answered (rs : List ReqRef) (f : Session → Session) (g : ReqRef → Reply) :
      (rs.foldl (fun s r => s.pushPlain r.f (g r))
        (((((s.refuseWaiting ses).retireAll ses).releaseRetired).freeBuffers ses).updSession ses f)).roles = s.roles :=
    (foldl_same (fun _ _ => State.pushPlain_roles ..) rs _).trans freed
  unfold State.closeFinish
  dsimp only
  split
  · exact (State.msi_roles ..).trans (answered ..)
  · exact answered ..

theorem State.closeCheck_roles (s : State) (ses : Nat) : (s.closeCheck ses).roles = s.roles := by
  unfold State.closeCheck
  split
  · exact s.closeFinish_roles ses
  · rfl

theorem State.jobWritten_roles (s : State) (j : Nat) : (s.jobWritten j).roles = s.roles := by
  unfold State.jobWritten
  split
  · rfl
  · dsimp only
    split
    · rfl
    · refine (State.closeCheck_roles ..).trans ((State.releaseRetired_roles _).trans ?_)
      split <;> rfl

theorem State.completeJob_roles (s : State) (j : Nat) (c : Byte) : (s.completeJob j c).roles = s.roles := by
  unfold State.completeJob State.push
  dsimp only
  split
  · exact State.pushPlain_roles ..
  · exact State.jobWritten_roles ..

/-! ## The release of a job's stations -/

theorem bitAt_or_pow {w i : Nat} (a : BitVec w) (h : i < w) : bitAt (a ||| BitVec.ofNat w (2 ^ i)).toNat i = true := by
  rw [bitAt_toNat, BitVec.getLsbD_or, BitVec.getLsbD_ofNat, Nat.testBit_two_pow_self, decide_eq_true h]
  exact Bool.or_true _

theorem State.jobAt_of {s : State} {j : Nat} {x : Job} (h : s.crown.jobs.get? j = some x) : s.jobAt j = x := by
  rw [State.jobAt, Tab.getD_eq, h, Option.getD_some]

section
variable (s : State) (j : Nat)

theorem State.releaseJob_stn (st : Fin 16) :
    (s.releaseJob j).stations[st] = if s.holds j st then s.stations[st].endRole else s.stations[st] := by
  rw [State.releaseJob]
  dsimp only
  rw [State.updSession_stations, State.mapStns_get]

@[simp] theorem State.releaseJob_mbx : (s.releaseJob j).mbx = s.mbx := State.releaseJob_keeps.same .mbx (by decide)
@[simp] theorem State.releaseJob_mem : (s.releaseJob j).mem = s.mem := State.releaseJob_keeps.same .mem (by decide)

/-- The release ends bindings of the job's session and gives up its groups. -/
theorem State.releaseJob_crown : (s.releaseJob j).crown = { s.crown with
    sessions := (s.releaseJob j).crown.sessions, groups := (s.releaseJob j).crown.groups } := by
  simp only [State.releaseJob, State.updSession, State.mapStns_crown]

@[simp] theorem State.releaseJob_jobs : (s.releaseJob j).crown.jobs = s.crown.jobs := by rw [State.releaseJob_crown]
@[simp] theorem State.releaseJob_buffers : (s.releaseJob j).crown.buffers = s.crown.buffers := by rw [State.releaseJob_crown]
@[simp] theorem State.releaseJob_commits : (s.releaseJob j).crown.commits = s.crown.commits := by rw [State.releaseJob_crown]

/-- The reply that a job's completion is (Table 16.7). -/
def Job.completion (x : Job) (j : Nat) (c : Byte) : Reply :=
  ⟨x.ref.op, x.ref.tag, c, true, x.ref.rqidx, jobPayload (jobId j x.gen) x.cause x.timeout 0 0, x.vec, some j⟩

variable {s j}

/-- While its function's page is enabled, a completion joins its replies and does nothing else. -/
theorem State.completeJob_enabled {x : Job} (c : Byte) (hx : s.crown.jobs.get? j = some x) (hen : s.mbx[x.ref.f].en = true) :
    s.completeJob j c = s.updMbx x.ref.f fun m => { m with replies := m.replies ++ [x.completion j c] } := by
  rw [State.completeJob, State.jobAt_of hx]
  exact (if_pos hen).trans (if_pos hen)

/-- The end of a job takes its stations' roles, and leaves their windows to be zeroed (R172). -/
theorem State.endedJob_stn (c : Byte) {st : Fin 16} (h : s.holds j st = true) :
    ((s.releaseJob j).completeJob j c).stations[st].held = false ∧ ((s.releaseJob j).completeJob j c).stations[st].job = none ∧
      bitAt ((s.releaseJob j).completeJob j c).stations[st].pantry.zwin.toNat s.stations[st].win.val = true := by
  have ended := State.sansStreams_of_roles ((s.releaseJob j).completeJob_roles j c) st
  rw [State.releaseJob_stn, if_pos h] at ended
  rw [Station.held_of_sansStreams ended, Station.job_of_sansStreams ended, Station.pantry_of_sansStreams ended]
  exact ⟨rfl, rfl, bitAt_or_pow _ s.stations[st].win.isLt⟩
end

end Sys2Proof.Machine
end

section
/-! Jobs are admitted, commit, time out and are cleaned up (R172, R265 to R268). -/

namespace Sys2Proof.Machine

/-! ## Admission -/

section
variable {s : State} {j : Nat} {x : Job}

theorem execJobAdmission_of {img btab ticket : HostRead} (hs : s.Specified) (hx : s.crown.jobs.get? j = some x)
    (hready : s.ready = true) (hstate : x.state = .admitting) (hmtag : x.mtag = none) :
    execJobAdmission j img btab ticket s = .next (s.tryAdmit j img btab ticket) :=
  occurs_of hs (by rw [State.jobAt_of hx, hready, hstate, hmtag]; rfl)

/-- A session that is not open, or has no room for another job, refuses it as BUSY. -/
theorem State.tryAdmit_refuses (img btab ticket : HostRead) (hx : s.crown.jobs.get? j = some x)
    (h : (s.session x.ses).body.state ≠ .opened ∨ (s.session x.ses).body.maxjobs.toNat ≤ (s.session x.ses).jobs) :
    s.tryAdmit j img btab ticket = s.refuseJob j Code.busy 0 0 := by
  rw [State.tryAdmit]
  rw [State.jobAt_of hx, if_pos h]
  rfl

theorem State.pushPlain_crown (s : State) (f : Fin 64) (r : Reply) : (s.pushPlain f r).crown = s.crown :=
  State.pushPlain_keeps.same .crown (by decide)

theorem State.pushPlain_enabled {f : Fin 64} {r : Reply} (hen : s.mbx[f].en = true) :
    s.pushPlain f r = s.updMbx f fun m => { m with replies := m.replies ++ [r] } := if_pos hen

@[simp] theorem State.updJob_buffers (s : State) (j : Nat) (f : Job → Job) : (s.updJob j f).crown.buffers = s.crown.buffers := rfl

/-- The record of a refused job. -/
theorem State.refuseJob_job (c : Byte) (sect recNo : Nat) (hx : s.crown.jobs.get? j = some x) :
    (s.refuseJob j c sect recNo).crown.jobs.get? j =
      some { x with state := .free, cause := c, mtag := none, img := [], btab := [] } := by
  rw [State.refuseJob]
  rw [State.pushPlain_crown, State.updJob_get?, if_pos rfl, hx, Option.map_some]

theorem State.refuseJob_stations (c : Byte) (sect recNo : Nat) : (s.refuseJob j c sect recNo).stations = s.stations :=
  State.refuseJob_keeps.same .stations (by decide)

theorem State.refuseJob_buffers (c : Byte) (sect recNo : Nat) : (s.refuseJob j c sect recNo).crown.buffers = s.crown.buffers := by
  rw [State.refuseJob]
  rw [State.pushPlain_crown, State.updJob_buffers]

theorem State.refuseJob_replies (c : Byte) (sect recNo : Nat) (hx : s.crown.jobs.get? j = some x)
    (hen : s.mbx[x.ref.f].en = true) :
    (s.refuseJob j c sect recNo).mbx[x.ref.f].replies = s.mbx[x.ref.f].replies ++
      [⟨x.ref.op, x.ref.tag, c, true, x.ref.rqidx, jobPayload (jobId j x.gen) 0 false sect recNo, x.vec, none⟩] := by
  rw [State.refuseJob, State.jobAt_of hx]
  rw [State.pushPlain_enabled (by rw [State.updJob_mbx]; exact hen), State.updMbx_same, State.updJob_mbx]

/-- An image and a table that pass steps 3 to 5 of R265 are granted. -/
theorem State.admitPlaced_grants {ks : KeySet} {ktag : Word} {ib bb : List Byte} {stns v : List (Fin 16)}
    (hx : s.crown.jobs.get? j = some x)
    (hcheck : (Img.of ib).check (field s.boot.header 0x11 1) ks.digitPs ks.packedPs = none)
    (hres : s.resourceErr (Img.of ib) (s.grantable (s.session x.ses).body) = .inr v)
    (hbt : s.btOk x.ses (btEntries x.nbuf bb) = true)
    (hplace : s.placeNow (Img.of ib) ((s.grantable (s.session x.ses).body).filter fun st => !s.stations[st].held) = some stns)
    (hgroups : (Img.of ib).ngrp ≤ s.freeGroups.length) (hwin : s.windowsFree (Img.of ib) stns = true)
    (hout : ∀ en ∈ btEntries x.nbuf bb, en.out = true → s.bufBusy en.buf = false) :
    s.admitPlaced j ks ktag ib bb = s.grantJob j (Img.of ib) ks ktag (btEntries x.nbuf bb) stns := by
  have outs_free : ((btEntries x.nbuf bb).any fun e => e.out && s.bufBusy e.buf) = false :=
    List.any_eq_false.mpr fun en hen hb => by
      obtain ⟨ho, hbusy⟩ := Bool.and_eq_true_iff.mp hb
      exact Bool.false_ne_true ((hout en hen ho).symm.trans hbusy)
  have placed : ¬ (s.freeGroups.length < (Img.of ib).ngrp ∨ s.windowsFree (Img.of ib) stns = false ∨
      ((btEntries x.nbuf bb).any fun e => e.out && s.bufBusy e.buf) = true) := by
    rw [hwin, outs_free]
    simpa using hgroups
  rw [State.admitPlaced]
  rw [State.jobAt_of hx, hcheck]
  dsimp only
  rw [hres]
  dsimp only
  rw [hbt, Bool.not_true, if_neg Bool.false_ne_true, hplace]
  exact if_neg placed

/-- A job of an open session with room, whose ticket is not asked for, comes to its placement. -/
theorem State.tryAdmit_placed {ks : KeySet} {ib bb : List Byte} (ticket : HostRead) (hx : s.crown.jobs.get? j = some x)
    (hopen : (s.session x.ses).body.state = .opened)
    (hroom : (s.session x.ses).jobs < (s.session x.ses).body.maxjobs.toNat) (hticket : x.ticket = none)
    (hjsig : bitAt (s.session x.ses).body.policy.toNat 1 = false)
    (hks : s.crown.keysets.get? (s.session x.ses).body.ktag.toNat = some ks) (hactive : ks.state = .active)
    (hib : ib.length = x.imgLen) (hbb : bb.length = 8 * x.nbuf) :
    s.tryAdmit j (some ib) (some bb) ticket = s.admitPlaced j ks (s.session x.ses).body.ktag ib bb := by
  have admitted : ¬ ((s.session x.ses).body.state ≠ .opened ∨
      (s.session x.ses).body.maxjobs.toNat ≤ (s.session x.ses).jobs) :=
    fun h => h.elim (fun hclosed => hclosed hopen) (Nat.not_le.mpr hroom)
  have himg : (some ib).filter (fun b => b.length == x.imgLen) = some ib := by rw [Option.filter_some, if_pos (by simp [hib])]
  have hbtab : (some bb).filter (fun b => b.length == 8 * x.nbuf) = some bb := by rw [Option.filter_some, if_pos (by simp [hbb])]
  have hkey : (some ks).filter (fun k => k.state == .active) = some ks := by rw [Option.filter_some, if_pos (by simp [hactive])]
  rw [State.tryAdmit]
  rw [State.jobAt_of hx, if_neg admitted, hticket]
  dsimp only
  rw [hks, hkey]
  dsimp only
  rw [himg, hbtab]
  dsimp only
  rw [hjsig, if_neg Bool.false_ne_true]
end

/-! ## The commit point -/

/-- A table of buffers once each one listed shows the CV listed with it. -/
def flipAll (bs : Tab Buffer) (outs : List (Nat × Bool)) : Tab Buffer :=
  outs.foldl (fun (bs : Tab Buffer) (o : Nat × Bool) => bs.upd o.1 fun b => { b with cv := o.2 }) bs

/-- Where every listing of a buffer gives it the same CV, it shows that CV if it is listed, and its own otherwise. -/
theorem flipAll_get? {outs : List (Nat × Bool)} {id : Nat} {v : Bool} (h : ∀ o ∈ outs, o.1 = id → o.2 = v) (bs : Tab Buffer) :
    (flipAll bs outs).get? id =
      (bs.get? id).map fun b => { b with cv := if outs.any (fun o => o.1 == id) then v else b.cv } := by
  induction outs generalizing bs with
  | nil => cases hb : bs.get? id <;> simp [flipAll, hb]
  | cons o outs ih =>
    have hstep : flipAll bs (o :: outs) = flipAll (bs.upd o.1 fun b => { b with cv := o.2 }) outs := rfl
    rw [hstep, ih fun p hp => h p (List.mem_cons_of_mem _ hp), Tab.get?_upd]
    by_cases ho : id = o.1
    · have hv : o.2 = v := h o List.mem_cons_self ho.symm
      cases hb : bs.get? id <;> simp [ho, hv]
    · have hne : (o.1 == id) = false := beq_eq_false_iff_ne.mpr (Ne.symm ho)
      rw [if_neg ho, List.any_cons, hne, Bool.false_or]

/-- The state of a job's commit before its stations are released: the journal's entry, the swap to COMMITTED, and the new CVs
(R267). -/
def State.commitSwapped (s : State) (j : Nat) : State :=
  { s with crown := { s.crown with
    journal := s.crown.journal ++ [s.journalOf j]
    commits := wrapAdd s.crown.commits 1
    jobs := s.crown.jobs.upd j fun x => { x with state := .committed }
    buffers := flipAll s.crown.buffers (s.journalOf j).outs } }

section
variable {s : State} {j : Nat} {x : Job}

theorem execCommitPoint_of (hs : s.Specified) (hx : s.crown.jobs.get? j = some x) (hstate : x.state = .running)
    (hparts : s.partsDone j = true) (hroom : s.crown.journal.length < 64) :
    execCommitPoint j s = .next (((s.commitSwapped j).releaseJob j).completeJob j Code.ok) :=
  occurs_of hs (by rw [State.jobAt_of hx, hstate, hparts, decide_eq_true hroom]; rfl)

theorem State.commitSwapped_job (hx : s.crown.jobs.get? j = some x) :
    (s.commitSwapped j).crown.jobs.get? j = some { x with state := .committed } := by
  rw [State.commitSwapped, Tab.get?_upd_same, hx, Option.map_some]

/-- The commit flips the CV of each buffer that the job holds as OUT. -/
theorem State.commitSwapped_buffer {id : Nat} {b : Buffer} (hx : s.crown.jobs.get? j = some x)
    (hb : s.crown.buffers.get? id = some b) :
    (s.commitSwapped j).crown.buffers.get? id =
      some { b with cv := if x.handles.any (fun h => h.out && h.buf == id) then !b.cv else b.cv } := by
  have listed : ∀ o ∈ (s.journalOf j).outs, o.1 = id → o.2 = !b.cv := by
    intro o ho hid
    rw [State.journalOf, List.mem_map] at ho
    obtain ⟨h, -, rfl⟩ := ho
    dsimp only at hid ⊢
    rw [hid, hb, Option.map_some, Option.getD_some]
  have outs : ((s.journalOf j).outs.any fun o => o.1 == id) = x.handles.any fun h => h.out && h.buf == id := by
    rw [State.journalOf, State.jobAt_of hx, List.any_map, List.any_filter]
    rfl
  rw [State.commitSwapped, flipAll_get? listed, hb, Option.map_some, outs]

/-! ## The end of a job whose function's page is enabled -/

theorem State.endedJob_enabled (c : Byte) (hx : s.crown.jobs.get? j = some x) (hen : s.mbx[x.ref.f].en = true) :
    (s.releaseJob j).completeJob j c =
      (s.releaseJob j).updMbx x.ref.f fun m => { m with replies := m.replies ++ [x.completion j c] } :=
  State.completeJob_enabled c (by rw [State.releaseJob_jobs, hx]) (by rw [State.releaseJob_mbx, hen])

/-- A station that the job does not hold stays as it was. -/
theorem State.releaseJob_stn_ne {st : Fin 16} (h : s.holds j st = false) : (s.releaseJob j).stations[st] = s.stations[st] := by
  rw [State.releaseJob_stn, if_neg (by rw [h]; exact Bool.false_ne_true)]

/-! ## Aborts -/

theorem State.abortJob_buffers (cause : Byte) (timeout : Bool) (hx : s.crown.jobs.get? j = some x) (ha : x.state.abortable = true) :
    (s.abortJob j cause timeout).crown.buffers = s.crown.buffers := by
  rw [State.abortJob_of cause timeout hx ha]
  cases x.mtag <;> simp only [State.mapStns_crown, State.updJob_buffers]

theorem execJobTimeLimit_of (hs : s.Specified) (hx : s.crown.jobs.get? j = some x) (hstate : x.state = .running)
    (hlimit : x.limit ≠ 0) : execJobTimeLimit j s = .next (s.abortJob j Code.aborted true) :=
  occurs_of hs (by rw [State.jobAt_of hx, hstate, bne_iff_ne.mpr hlimit]; rfl)

/-- The record of a job that an abort ends. -/
theorem State.abortJob_get? (cause : Byte) (timeout : Bool) (hx : s.crown.jobs.get? j = some x) (ha : x.state.abortable = true) :
    (s.abortJob j cause timeout).crown.jobs.get? j = some { x with state := .aborting, cause := cause, timeout := timeout } := by
  rw [State.abortJob_job cause timeout hx ha, Tab.get?_upd_same, hx, Option.map_some]

/-- The record of an aborted job whose clean-up has begun. -/
def Job.cleanedUp (x : Job) : Job := { x with cleaned := true, mtag := none, img := [], btab := [] }

theorem execJobAbortCleanup_of (hs : s.Specified) (hx : s.crown.jobs.get? j = some x) (hstate : x.state = .aborting)
    (hclean : x.cleaned = false) :
    execJobAbortCleanup j s =
      .next (((s.updJob j Job.cleanedUp).releaseJob j).completeJob j (finalStatus x.cause)) := by
  rw [execJobAbortCleanup, occurs_of hs (by rw [State.jobAt_of hx, hstate, hclean]; rfl), State.cleanup, State.jobAt_of hx]
  rfl
end

/-- Settles O38: an admission is refused or granted by one path of its checks, a limit aborts its job, and a commit and a clean-up are
each a change of records, the release of the job's stations, and a completion that an enabled page takes as a reply. -/
theorem jobsRunAndEnd : Obligations.JobsRunAndEnd := by
  intro j s x hs hx
  refine ⟨fun img btab ticket hready hstate hmtag => ?admission, fun hstate hparts hroom => ?commit,
    fun hstate hlimit => ?timeLimit, fun hstate hclean => ?cleanup⟩
  case admission =>
    refine ⟨fun hbusy => ?_, ?_⟩
    · have refused := State.tryAdmit_refuses img btab ticket hx hbusy
      exact ⟨_, _, (execJobAdmission_of hs hx hready hstate hmtag).trans (congrArg _ refused), State.refuseJob_job _ _ _ hx,
        rfl, rfl, State.refuseJob_stations .., State.refuseJob_buffers .., State.refuseJob_replies _ _ _ hx⟩
    · rintro ib bb ks stns ses granted m free hopen hroom hticket hjsig hks hactive rfl hib rfl hbb hcheck ⟨v, hres⟩ hbt hplace
        hgroups hwin hout
      exact (execJobAdmission_of hs hx hready hstate hmtag).trans (congrArg _
        ((State.tryAdmit_placed ticket hx hopen hroom hticket hjsig hks hactive hib hbb).trans
          (State.admitPlaced_grants hx hcheck hres hbt hplace hgroups hwin hout)))
  case commit =>
    refine ⟨_, execCommitPoint_of hs hx hstate hparts hroom, ?_, fun st hst => State.endedJob_stn Code.ok hst, fun hen => ?_⟩
    · rw [State.commits_of_roles (State.completeJob_roles ..), State.releaseJob_commits]
      rfl
    · rw [State.endedJob_enabled Code.ok (State.commitSwapped_job hx) hen]
      refine ⟨fun id b hb => ?_, ?_, ?_, ?_, fun st hst => ?_⟩
      · rw [State.updMbx_crown, State.releaseJob_buffers]
        exact ⟨_, State.commitSwapped_buffer hx hb, rfl, rfl, rfl⟩
      · rw [State.updMbx_crown, State.releaseJob_jobs, State.commitSwapped_job hx, Option.map_some]
      · rw [State.updMbx_same, State.releaseJob_mbx]
        rfl
      · rw [State.updMbx_mem, State.releaseJob_mem]
        rfl
      · exact State.releaseJob_stn_ne (s := s.commitSwapped j) hst
  case timeLimit =>
    have ha : x.state.abortable = true := by rw [hstate]; rfl
    refine ⟨_, _, execJobTimeLimit_of hs hx hstate hlimit, State.abortJob_get? _ _ hx ha, rfl, rfl, rfl, fun st hst => ?_,
      State.abortJob_buffers _ _ hx ha⟩
    rw [State.abortJob_stn _ _ hx ha, if_pos hst]
    exact ⟨rfl, rfl, rfl⟩
  case cleanup =>
    refine ⟨_, execJobAbortCleanup_of hs hx hstate hclean, fun st hst => ?_, fun hen => ?_⟩
    · exact (State.endedJob_stn (s := s.updJob j Job.cleanedUp) _ hst).1
    · have hx' : (s.updJob j Job.cleanedUp).crown.jobs.get? j = some x.cleanedUp := by
        rw [State.updJob_get?, if_pos rfl, hx, Option.map_some]
      rw [State.endedJob_enabled _ hx' hen]
      refine ⟨?_, fun st hst => ?_, fun id b hb => ⟨b, ?_, rfl, rfl, rfl⟩⟩
      · rw [State.updMbx_mem, State.releaseJob_mem, State.updJob_mem]
      · exact State.releaseJob_stn_ne (s := s.updJob j Job.cleanedUp) hst
      · rw [State.updMbx_crown, State.releaseJob_buffers, State.updJob_buffers, hb]

end Sys2Proof.Machine
end

section
/-! Descriptors of an XFER (R188, R191 to R194): a block of a list in the Pantry is fetched, the oldest descriptor that can start
starts, and an ended head leaves its queue with its signal. -/

namespace Sys2Proof.Machine

/-! ## A list block is fetched -/

/-- The next block of a list in the Pantry is read at its place, and changes nothing. -/
theorem State.listBlock_pantry {s : State} {t : Station} {e : Fin 4} {q : QEntry} {o : Nat} (hmem : t.listInMem q.iw = false)
    (ho : q.ea0 + 32 * (q.fetched : Int) = o) (halign : o % 32 = 0) :
    let n := fetchCount o q.left t.ses4[e].ahead.length
    s.listBlock t e q = (s, .ok (chunked 32 n (t.rd o (32 * n)))) := by
  have place : t.listOff q + 32 * (q.fetched : Int) = o := by rw [Station.listOff, hmem, if_neg Bool.false_ne_true, ho]
  have aligned : ¬ (o : Int) % 32 ≠ 0 := by omega
  simp only [State.listBlock, place, if_neg aligned, hmem, Bool.false_eq_true, if_false, Int.toNat_natCast]

/-- An engine with room, past its last fence, may fetch a block that reads. -/
theorem fetchReady_of {s : State} {t : Station} {e : Fin 4} {q : QEntry} {l : List (List Byte)} (hfence : t.ses4[e].fencing = false)
    (hroom : t.ses4[e].ahead.length < 64) (hblock : (s.listBlock t e q).2 = .ok l) : fetchReady e s t q = true := by
  rw [fetchReady, hfence, decide_eq_true hroom, hblock]
  rfl

/-- Descriptors that arrive join those fetched before, up to and with the first fence among them. -/
theorem execDescriptorFetch_clean {s : State} {st : Fin 16} {e : Fin 4} {i : Nat} {q : QEntry} {l : List (List Byte)}
    (hq : s.Running st (qStream e) 0x10 i q) (hready : fetchReady e s s.stations[st] q = true)
    (hblock : s.listBlock s.stations[st] e q = (s, .ok l)) :
    execDescriptorFetch st e .clean s = .next (s.putStn st ((s.stations[st].updSe e fun x =>
      { x with
        ahead := x.ahead ++ (toFence l).zipIdx.map fun d => (⟨q.xid, q.fetched + d.2, d.1⟩ : FDesc)
        fencing := (toFence l).any dscFence }).updAt (qStream e) i fun q =>
          { q with fetched := q.fetched + (toFence l).length, left := q.left - (toFence l).length })) := by
  rw [execDescriptorFetch, runRow_of hq (by rw [hready]; rfl), hblock]
  dsimp only
  rw [State.eccSeen_clean]
  rfl

/-! ## A descriptor starts -/

/-- The station once a descriptor runs that is neither a SEND nor a RECV: its XFER counts it, and a fence that starts lets the
engine fetch again. -/
def Station.started (t : Station) (e : Fin 4) (d : FDesc) : Station :=
  { t.updSe e fun x =>
    { x with
      ahead := x.ahead.tail
      run := x.run ++ [⟨d.xid, d.idx, d.bytes, 0, 0, 0⟩]
      fencing := if dscFence d.bytes then false else x.fencing } with
    queues := vupd t.queues (qStream e) fun l => l.map fun q =>
      if q.xid = d.xid ∧ opOf q.iw = 0x10 then { q with started := q.started + 1 } else q }

/-- A COPY or ZERO that passes R188 starts. -/
theorem execDescriptorStart_copy {s : State} {st : Fin 16} {e : Fin 4} {d : FDesc} (hs : s.Specified)
    (hrun : s.jobRuns s.stations[st] = true) (hd : s.stations[st].ses4[e].startable = some d) (hkind : dscKind d.bytes < 2)
    (hok : s.dscFault st d.bytes = none) :
    execDescriptorStart st e s = .next (s.putStn st (s.stations[st].started e d)) := by
  have noStream : (dscKind d.bytes == 2 || dscKind d.bytes == 3) = false := by simp; omega
  rw [execDescriptorStart, occurs_of hs (by rw [hrun, hd]; rfl)]
  dsimp only
  rw [hd]
  dsimp only
  rw [noStream, hok]
  rfl

/-! ## An XFER or XGATHER signals -/

theorem execXferSignal_of {s : State} {st : Fin 16} {e : Fin 4} {q : QEntry} (hs : s.Specified)
    (hrun : s.jobRuns s.stations[st] = true) (hq : s.stations[st].xferEnded e = some q) :
    execXferSignal st e s = .next ((s.putStn st (s.stations[st].dropAt (qStream e) 0)).raise st q.iw) := by
  rw [execXferSignal, occurs_of hs (by rw [hrun, hq]; rfl), hq]
  rfl

/-- Settles O20: the block that is read is appended up to its fence, a COPY or ZERO leaves the other engines and the Pantry, and the
ended head is dropped before its signal is raised. -/
theorem descriptorsStart : Obligations.DescriptorsStart := by
  intro st e s t x
  refine ⟨fun i o q hq hfence hroom hmem ho halign => ?fetch, fun d hs hrun hd hkind hok => ?start,
    fun q hs hrun hq => execXferSignal_of hs hrun hq⟩
  case fetch =>
    have block := State.listBlock_pantry (s := s) (e := e) hmem ho halign
    exact execDescriptorFetch_clean hq (fetchReady_of hfence hroom (congrArg Prod.snd block)) block
  case start =>
    have engine : (t.started e d).ses4[e] = { x with
        ahead := x.ahead.tail
        run := x.run ++ [⟨d.xid, d.idx, d.bytes, 0, 0, 0⟩]
        fencing := if dscFence d.bytes then false else x.fencing } := vupd_same ..
    exact ⟨t.started e d, execDescriptorStart_copy hs hrun hd hkind hok, by rw [engine], by rw [engine], rfl, rfl, rfl,
      fun e' he' => vupd_ne _ he'⟩

end Sys2Proof.Machine
end

section
/-! DATA frames (R306, R315) and the landing of their chunks (R189, R193): a frame is refused, taken in, acknowledged again or dropped,
and held by an Ethernet port during a warm reset. -/

namespace Sys2Proof.Machine

/-! ## A frame that is taken -/

theorem Port.takeFrame_eth (x : Port) (frame : List Byte) : (x.takeFrame frame).eth = x.eth := by
  unfold Port.takeFrame
  split
  · rfl
  · dsimp only
    split <;> rfl

/-- The port reads a frame the same way once one has left its buffer. -/
theorem State.takeFrame_dev (s : State) (p : Fin 14) (frame b : List Byte) :
    ((s.takeFrame p frame).fab.ports[p]).dev b = s.fab.ports[p].dev b := by
  rw [State.takeFrame, State.updPort_same, Port.dev, Port.takeFrame_eth, Port.dev]

@[simp] theorem State.takeFrame_frameAccepted (s : State) (p : Fin 14) (frame : List Byte) (h : FrameHdr) :
    (s.takeFrame p frame).frameAccepted h = s.frameAccepted h := rfl

@[simp] theorem State.takeFrame_rxNextOf (s : State) (p : Fin 14) (frame : List Byte) (ses slot : Nat) :
    (s.takeFrame p frame).rxNextOf ses slot = s.rxNextOf ses slot := rfl

@[simp] theorem State.takeFrame_recvFor (s : State) (p : Fin 14) (frame : List Byte) (h : FrameHdr) :
    (s.takeFrame p frame).recvFor h = s.recvFor h := rfl

theorem Port.isUp_of_frameAt {x : Port} {frame : List Byte} (h : x.frameAt frame = true) : x.isUp = true := by
  cases hup : x.isUp with
  | true => rfl
  | false => simp [Port.frameAt, hup] at h

/-- A frame names one of a session's eight slots. -/
theorem frameHdr_slot_lt (b : List Byte) : (frameHdr b).slot < 8 := Nat.mod_lt _ (by decide)

section
variable {s : State} {p : Fin 14} {frame : List Byte} {ftype : Nat} {ready : State → Bool} {effect : State → FrameHdr → State}

/-- A frame that is met leaves its buffer and takes its effect. -/
theorem frameRow_of (hm : s.Meets p frame ftype) (hr : ready s = true) :
    frameRow p frame ftype ready effect s = .next (effect (s.takeFrame p frame) (frameHdr (s.fab.ports[p].dev frame))) := by
  obtain ⟨hs, hat, htype, hgood, hhere⟩ := hm
  rw [frameRow, occurs_of hs (by rw [hat, htype, hr, beq_self_eq_true]; rfl)]
  dsimp only
  rw [hgood, hhere]
  rfl

theorem answerRow_of (hm : s.Meets p frame ftype) (hb : s.boot.state ≠ .activating) (hr : ready s = true) :
    answerRow p frame ftype ready effect s = .next (effect (s.takeFrame p frame) (frameHdr (s.fab.ports[p].dev frame))) := by
  rw [answerRow, if_neg hb, frameRow_of hm hr]

/-- During a warm reset an Ethernet frame that needs an answer waits in the port's buffer. -/
theorem answerRow_held (hm : s.Meets p frame ftype) (hb : s.boot.state = .activating) (heth : s.fab.ports[p].eth = true) :
    answerRow p frame ftype ready effect s = .next (s.updPort p fun x => { x with inbox := x.inbox ++ [⟨0, 0, frame⟩] }) := by
  obtain ⟨hs, hat, htype, -, -⟩ := hm
  rw [answerRow, if_pos hb, occurs_of hs (by rw [Port.isUp_of_frameAt hat, heth, htype, beq_self_eq_true]; rfl)]
end

/-! ## A DATA frame's four answers -/

section
variable {s : State} {p : Fin 14} {frame : List Byte} {h : FrameHdr} (hh : frameHdr (s.fab.ports[p].dev frame) = h)
include hh

/-- Only a frame that is next waits, for a RECV with room. -/
theorem dataReady_of (hroom : s.frameAccepted h = true → aliveClass 32 (s.rxNextOf h.dses h.slot).toNat h.seq = .pass →
    (s.recvFor h).isSome = true) : dataReady p frame s = true := by
  rw [dataReady, hh]
  cases hacc : s.frameAccepted h with
  | false => simp
  | true =>
    cases hcls : aliveClass 32 (s.rxNextOf h.dses h.slot).toNat h.seq with
    | pass => rw [hroom hacc hcls, Bool.or_true]
    | rep => simp
    | gap => simp

variable (hm : s.Meets p frame 1) (hb : s.boot.state ≠ .activating)
include hm hb

theorem execDataFrame_stale (hacc : s.frameAccepted h = false) :
    execDataFrame p frame s = .next (((s.takeFrame p frame).updPort p fun x => { x with stale := wrapAdd x.stale 1 }).sendRx h.dses
      h.slot { h.answer (frameSmod (s.fab.ports[p].dev frame)) 4 with status := Code.roleEpochStale.toNat }) := by
  have ready : dataReady p frame s = true := dataReady_of hh fun hyes => by simp [hacc] at hyes
  rw [execDataFrame, answerRow_of hm hb ready, hh]
  simp only [State.takeFrame_dev, State.takeFrame_frameAccepted, hacc, Bool.not_false, if_true]

theorem execDataFrame_next {x : Fin 4 × RDesc} (hacc : s.frameAccepted h = true)
    (hcls : aliveClass 32 (s.rxNextOf h.dses h.slot).toNat h.seq = .pass) (hrecv : s.recvFor h = some x) :
    execDataFrame p frame s = .next ((s.takeFrame p frame).dataPass h (frameSmod (s.fab.ports[p].dev frame))
      (framePayload (s.fab.ports[p].dev frame))) := by
  have ready : dataReady p frame s = true := dataReady_of hh fun _ _ => by rw [hrecv]; rfl
  rw [execDataFrame, answerRow_of hm hb ready, hh]
  simp only [State.takeFrame_dev, State.takeFrame_frameAccepted, State.takeFrame_rxNextOf, hacc, hcls, Bool.not_true,
    Bool.false_eq_true, if_false]

theorem execDataFrame_repeated (hacc : s.frameAccepted h = true)
    (hcls : aliveClass 32 (s.rxNextOf h.dses h.slot).toNat h.seq = .rep) :
    execDataFrame p frame s =
      .next (((s.takeFrame p frame).countFrame p false).ackAgain h (frameSmod (s.fab.ports[p].dev frame))) := by
  have ready : dataReady p frame s = true := dataReady_of hh fun _ hpass => by simp [hcls] at hpass
  rw [execDataFrame, answerRow_of hm hb ready, hh]
  simp only [State.takeFrame_dev, State.takeFrame_frameAccepted, State.takeFrame_rxNextOf, hacc, hcls, Bool.not_true,
    Bool.false_eq_true, if_false]

theorem execDataFrame_gap (hacc : s.frameAccepted h = true)
    (hcls : aliveClass 32 (s.rxNextOf h.dses h.slot).toNat h.seq = .gap) :
    execDataFrame p frame s = .next ((s.takeFrame p frame).countFrame p true) := by
  have ready : dataReady p frame s = true := dataReady_of hh fun _ hpass => by simp [hcls] at hpass
  rw [execDataFrame, answerRow_of hm hb ready, hh]
  simp only [State.takeFrame_frameAccepted, State.takeFrame_rxNextOf, hacc, hcls, Bool.not_true, Bool.false_eq_true, if_false]
end

/-! ## What ACKs and slots leave of a session -/

theorem State.sendRx_crown (s : State) (ses slot : Nat) (h : FrameHdr) : (s.sendRx ses slot h).crown = s.crown :=
  State.sendRx_keeps.same .crown (by decide)

theorem State.updSlot_alive (s : State) (ses slot k : Nat) (f : StreamSlot → StreamSlot) :
    ((s.updSlot ses slot f).session k).alive = (s.session k).alive := by
  rw [State.session_eq, State.updSlot, State.updSession_get?, State.session_eq]
  split
  · cases s.crown.sessions.get? k <;> rfl
  · rfl

theorem State.updSlot_listed (s : State) (ses slot k : Nat) (f : StreamSlot → StreamSlot) :
    ((s.updSlot ses slot f).crown.sessions.get? k).isSome = (s.crown.sessions.get? k).isSome := by
  rw [State.updSlot, State.updSession_get?]
  split
  · exact Option.isSome_map
  · rfl

theorem State.ioMoved_alive (s : State) (n k : Nat) : ((s.ioMoved n).session k).alive = (s.session k).alive := by
  rw [State.session_eq, State.ioMoved_keeps.same .crown (by decide), ← State.session_eq]

/-- ACKs that leave count nothing on in a session. -/
theorem State.settleAcks_alive (s : State) (st : Fin 16) (ses slot k : Nat) :
    ((s.settleAcks st ses slot).session k).alive = (s.session k).alive := by
  rw [State.settleAcks, State.session_eq, foldl_same (g := State.crown) (fun _ _ => State.sendRx_crown ..), ← State.session_eq,
    State.updSlot_alive]

theorem State.rxNextOf_congr {s t : State} {ses slot : Nat} (h : (t.session ses).alive = (s.session ses).alive) :
    t.rxNextOf ses slot = s.rxNextOf ses slot := by
  rw [State.rxNextOf, h, State.rxNextOf]

/-- A session's record once RXNEXT of a slot has counted on. -/
def Session.countRx (x : Session) (slot : Nat) : Session :=
  { x with alive := vupdN x.alive slot fun a => (a.1, a.2 + 1) }

theorem State.rxNextOf_countRx {s : State} {ses slot : Nat} (hses : (s.crown.sessions.get? ses).isSome = true)
    (hslot : slot < 8) : (s.updSession ses fun x => x.countRx slot).rxNextOf ses slot = s.rxNextOf ses slot + 1 := by
  obtain ⟨y, hy⟩ := Option.isSome_iff_exists.mp hses
  rw [State.rxNextOf, State.session_updSession _ hy, State.rxNextOf, State.session_eq, hy]
  simp [Session.countRx, vupdN, hslot]

/-! ## The bytes of a frame come in -/

/-- The engine once n more bytes of a RECV have come in a frame. -/
def StreamEng.received (x : StreamEng) (r : RDesc) (n : Nat) (payload : List Byte) : StreamEng :=
  { x with
    chunks := x.chunks ++ (r.recvChunks n).map fun c =>
      ⟨r.xid, r.idx, c.1, c.2, some (slice payload (c.1 - r.issued) c.2), 0, false⟩
    run := x.run.map fun y => if y.xid = r.xid ∧ y.idx = r.idx then { y with issued := y.issued + n } else y }

section
variable {s : State} {h : FrameHdr} {e : Fin 4} {r : RDesc} (hr : s.recvFor h = some (e, r)) (smod : Nat) (payload : List Byte)
include hr

theorem State.dataPass_stations : (s.dataPass h smod payload).stations =
    (s.updStn h.stn fun t => t.updSe e fun x => x.received r h.len payload).stations := by
  rw [State.dataPass, hr]
  exact (State.settleAcks_keeps.same .stations (by decide)).trans (State.ioMoved_keeps.same .stations (by decide))

/-- RXNEXT of the frame's slot counts on. -/
theorem State.dataPass_rxNextOf (hses : (s.crown.sessions.get? h.dses).isSome = true) (hslot : h.slot < 8) :
    (s.dataPass h smod payload).rxNextOf h.dses h.slot = s.rxNextOf h.dses h.slot + 1 := by
  rw [State.dataPass, hr]
  dsimp only
  rw [State.rxNextOf_congr (State.settleAcks_alive ..), State.rxNextOf_congr (State.ioMoved_alive ..)]
  refine (State.rxNextOf_countRx ?_ hslot).trans ?_
  · rw [State.updSlot_listed]
    exact hses
  · rw [State.rxNextOf_congr (State.updSlot_alive ..)]
    rfl
end

/-! ## A chunk of a RECV lands -/

theorem execChunkLand_recv {s : State} {st : Fin 16} {e : Fin 4} {c : Nat} {k : Chunk} {r : RDesc} {b : List Byte}
    (hs : s.Specified) (hrun : s.jobRuns s.stations[st] = true) (hl : s.stations[st].ses4[e].landable c = some (k, r, b))
    (hkind : dscKind r.bytes = 3) :
    execChunkLand st e c .clean s = .next (((s.chunkWrite st e r k b).updStn st fun t => t.released e c k).settleAcks st
      s.stations[st].ses.toNat (dscSrc r.bytes).handle) := by
  rw [execChunkLand, occurs_of hs (by rw [hrun, hl]; rfl)]
  dsimp only
  rw [hl]
  dsimp only
  rw [State.eccSeen_clean, if_pos hkind]
  rfl

/-- Settles O45: a frame takes the one answer that its role and SEQ call for, the bytes of one in order enter the one engine of its
RECV, and a landing sends the ACKs that it makes due. -/
theorem dataFrames : Obligations.DataFrames := by
  refine ⟨fun p frame s hm => ?frame, fun st e c s k r b => ?land⟩
  case frame =>
    intro dev h u cls
    refine ⟨fun hb => ⟨execDataFrame_stale rfl hm hb, fun e r y hacc hcls hrecv hy => ?_, execDataFrame_repeated rfl hm hb,
      execDataFrame_gap rfl hm hb⟩, answerRow_held hm⟩
    have stations := State.dataPass_stations (s := u) hrecv (frameSmod dev) (framePayload dev)
    refine ⟨_, execDataFrame_next rfl hm hb hacc hcls hrecv, ?_,
      State.dataPass_rxNextOf (s := u) hrecv _ _ (by rw [State.takeFrame_crown, hy]; rfl) (frameHdr_slot_lt dev), ?_, fun st hst => ?_,
      State.dataPass_keeps.same .mem (by decide)⟩
    · rw [stations, State.updStn_same, Station.updSe, vupd_same]
      rfl
    · rw [stations, State.updStn_same]
      rfl
    · rw [stations, State.updStn_ne _ hst]
      rfl
  case land =>
    intro t rows hs hrun hl hkind hsp
    refine (execChunkLand_recv hs hrun hl hkind).trans ?_
    rw [State.chunkWrite_pantry hsp, State.updStn_putStn]
    rfl

end Sys2Proof.Machine
end

section
/-! Single units of module memory (R201, R203, R205 to R207): what a write of a unit leaves of memory, that reads and re-reads move no
byte, and what a failed compare counts while the counts are below their limits. -/

namespace Sys2Proof.Machine

/-! ## A write of a unit -/

/-- The 64 bytes of a unit touch that unit alone. -/
theorem unitsOf_unit (u : Nat) : unitsOf (u * 64) 64 = [u] := by
  rw [unitsOf, if_neg (by decide), show (u * 64 + 64 - 1) / 64 - u * 64 / 64 + 1 = 1 by omega, Nat.mul_div_cancel _ (by decide)]
  rfl

section
variable {s : State} {u : Nat} {bytes : List Byte} (h : bytes.length = 64)
include h

/-- A written unit is poisoned no more, and the others as before. -/
theorem State.memPut_unit_poison (v : Nat) : v ∈ (s.memPut (u * 64) bytes).mem.poison ↔ v ∈ s.mem.poison ∧ v ≠ u := by
  rw [State.memPut, h, unitsOf_unit]
  exact List.mem_filter.trans (and_congr_right fun _ => by simp)

/-- The CRC beside a written unit is that of its bytes and its place. -/
theorem State.memPut_unit_crc {p : Nat × Nat} (hwf : s.mem.data.wf = true) (hp : s.place (u * 64) = some p) :
    (s.memPut (u * 64) bytes).mem.crcs.get? u = some (unitCrc bytes p.2) := by
  have stored : (s.mem.data.writeN (u * 64) bytes).readN (u * 64) 64 = bytes := h ▸ Mem.readN_writeN_same _ bytes hwf
  simp only [State.memPut, State.memStore, h, unitsOf_unit, List.foldl_cons, List.foldl_nil, hp, stored, Tab.get?_put_same]
end

/-! ## Reads -/

@[simp] theorem State.noteStack_mem (s : State) (site : Nat) (old : Stack) : (s.noteStack site old).mem = s.mem :=
  State.noteStack_keeps.same .mem (by decide)

/-- A failed compare changes no byte and, by itself, no poison: it counts at its stack. -/
theorem State.crcEvent_memory (s : State) (ma site fails : Nat) :
    (s.crcEvent ma site fails).mem.data = s.mem.data ∧ (s.crcEvent ma site fails).mem.poison = s.mem.poison := by
  unfold State.crcEvent
  dsimp only
  split
  · rw [State.noteStack_mem]
    exact ⟨rfl, rfl⟩
  · rw [State.logEvt_mem, State.noteStack_mem]
    exact ⟨rfl, rfl⟩

theorem State.poisonSeen_memory (s : State) (u : Nat) :
    (s.poisonSeen u).mem.data = s.mem.data ∧ (s.poisonSeen u).mem.poison = s.mem.poison := by
  unfold State.poisonSeen
  split
  · exact ⟨rfl, rfl⟩
  · split
    · exact State.crcEvent_memory ..
    · exact ⟨rfl, rfl⟩

/-- A read, poisoned or not, leaves the bytes and the poison. -/
theorem State.memGet_memory (s : State) (ma n : Nat) :
    (s.memGet ma n).1.mem.data = s.mem.data ∧ (s.memGet ma n).1.mem.poison = s.mem.poison := by
  unfold State.memGet
  dsimp only
  split
  · exact ⟨rfl, rfl⟩
  · exact ⟨foldl_same (g := fun s => s.mem.data) (fun s u => (s.poisonSeen_memory u).1) _ s,
      foldl_same (g := fun s => s.mem.poison) (fun s u => (s.poisonSeen_memory u).2) _ s⟩

theorem State.memGet_stations (s : State) (ma n : Nat) : (s.memGet ma n).1.stations = s.stations :=
  State.memGet_keeps.same .stations (by decide)

/-! ## An access to a unit -/

section
variable {s : State} {ma off : Nat} {bytes : List Byte}

/-- Once memory is ready an access takes its effect at the controller, and one to an address outside every region stops the model:
it is never issued (R201). -/
theorem execMemUnitAccess_ready (acc : UnitAccess) (hs : s.Specified) (hr : s.mem.ready = true) :
    exec (.memUnitAccess ma acc) s =
      if (s.place ma).isSome then .next (s.unitAccess ma acc) else .fault .noSuchModuleAddress := by
  rw [State.Specified] at hs
  exact if_pos (by rw [hr, hs]; rfl)

theorem State.unitAccess_write (h : bytes.length = 64) : s.unitAccess ma (.write bytes) = s.memPut (ma / 64 * 64) bytes := if_pos h

/-- A read-modify-write of a unit without poison writes its bytes (R203). -/
theorem State.unitAccess_modify (h : off + bytes.length ≤ 64) (hp : s.poisonIn (ma / 64 * 64) 64 = []) :
    s.unitAccess ma (.modify off bytes) = s.memPut (ma / 64 * 64 + off) bytes := by
  rw [State.unitAccess, if_neg (by omega), unitBase, hp, if_pos List.isEmpty_nil]

/-- One that meets poison does not write the unit, and counts as a read (R207). -/
theorem State.unitAccess_modify_poisoned (h : off + bytes.length ≤ 64) (hp : s.poisonIn (ma / 64 * 64) 64 ≠ []) :
    s.unitAccess ma (.modify off bytes) = (s.memGet (ma / 64 * 64) 64).1 := by
  rw [State.unitAccess, if_neg (by omega), unitBase, if_neg (mt List.isEmpty_iff.mp hp)]
end

/-! ## Counts below their limits -/

/-- A saturating count adds while it stays below its limit. -/
theorem satAdd_of_lt {w n : Nat} {x : BitVec w} (h : x.toNat + n < 2 ^ w) : satAdd x n = x + BitVec.ofNat w n := by
  apply BitVec.eq_of_toNat_eq
  rw [satAdd, Nat.min_eq_left (by omega), BitVec.toNat_ofNat, BitVec.toNat_add, BitVec.toNat_ofNat, Nat.add_mod_mod]

theorem justSat_of_lt {w : Nat} {old new : BitVec w} (h : new.toNat < 2 ^ w - 1) : justSat old new = false := by
  rw [justSat, beq_eq_false_iff_ne.mpr (by omega), Bool.and_false]

/-- Counts that are below their limits leave no NOTE. -/
theorem State.noteStack_below {s : State} {site : Fin 8} (old : Stack) (hd : s.mem.stackRegs[site].detect.toNat < 2 ^ 16 - 1)
    (hr : s.mem.stackRegs[site].recov.toNat < 2 ^ 8 - 1) (hp : s.mem.stackRegs[site].poisonCnt.toNat < 2 ^ 7 - 1) :
    s.noteStack site.val old = s := by
  rw [State.noteStack, State.stackAt_val]
  dsimp only
  rw [justSat_of_lt hd, justSat_of_lt hr, justSat_of_lt hp]
  rfl

/-- A change of a stack matters by what it makes of the registers that it finds. -/
theorem State.updStack_congr {s : State} {site : Fin 8} {f g : Stack → Stack}
    (h : f s.mem.stackRegs[site] = g s.mem.stackRegs[site]) : s.updStack site.val f = s.updStack site.val g := by
  rw [State.updStack, State.updStack, vupdN_val, vupdN_val, vupd, vupd, h]

/-- A stack whose compare a re-read mended after so many that failed. -/
def Stack.mended (x : Stack) (fails : Nat) : Stack :=
  { x with detect := x.detect + 1 + BitVec.ofNat 16 fails, recov := x.recov + 1 }

/-- A stack one of whose units all re-reads found poisoned. -/
def Stack.poisoned (x : Stack) (ma : Nat) : Stack :=
  { x with detect := x.detect + 4, poisonCnt := x.poisonCnt + 1, erraddr := BitVec.ofNat 40 (ma / 64 * 64) }

section
variable {s : State} {ma : Nat} {site : Fin 8} (hd : s.mem.stackRegs[site].detect.toNat < 2 ^ 16 - 5)
  (hr : s.mem.stackRegs[site].recov.toNat < 2 ^ 8 - 2) (hp : s.mem.stackRegs[site].poisonCnt.toNat < 2 ^ 7 - 2)
include hd hr hp

theorem State.crcEvent_mended {fails : Nat} (h : fails < 3) :
    s.crcEvent ma site.val fails = s.updStack site.val fun x => x.mended fails := by
  rw [State.crcEvent, if_pos h, State.updStack_congr (g := fun x => x.mended fails), State.noteStack_below]
  case hd => rw [State.updStack_same, Stack.mended]; bv_omega
  case hr => rw [State.updStack_same, Stack.mended]; bv_omega
  case hp => rw [State.updStack_same, Stack.mended]; exact Nat.lt_of_lt_of_le hp (by decide)
  rw [satAdd_of_lt (by omega), satAdd_one (by omega), BitVec.ofNat_add, ← BitVec.add_assoc]
  rfl

theorem State.crcEvent_poisoned :
    s.crcEvent ma site.val 3 = (s.updStack site.val fun x => x.poisoned ma).logEvt
      (plainEvt clsJob Code.memPoison 2 (BitVec.ofNat 8 site.val) 0xFF (natLe 8 (ma / 64 * 64))) := by
  rw [State.crcEvent, if_neg (by decide), State.updStack_congr (g := fun x => x.poisoned ma), State.noteStack_below]
  case hd => rw [State.updStack_same, Stack.poisoned]; bv_omega
  case hr => rw [State.updStack_same, Stack.poisoned]; exact Nat.lt_of_lt_of_le hr (by decide)
  case hp => rw [State.updStack_same, Stack.poisoned]; bv_omega
  rw [satAdd_of_lt (by omega), satAdd_one (by omega)]
  rfl
end

/-! ## Re-reads -/

section
variable {s : State} {ma slocal : Nat} {site : Fin 8} (hs : s.Specified) (hr : s.mem.ready = true)
  (hp : s.place ma = some (site.val, slocal))
include hs hr hp

/-- Below three failing re-reads, the compare only counts. -/
theorem execMemCrcReread_mends {fails : Fin 4} (h : fails.val < 3) :
    execMemCrcReread ma fails s = .next (s.crcEvent ma site.val fails.val) := by
  rw [execMemCrcReread, occurs_of hs (by rw [hr, hp]; rfl), hp]
  exact congrArg _ (if_pos h)

/-- With all three the unit is poisoned besides. -/
theorem execMemCrcReread_poisons {fails : Fin 4} (h : fails.val = 3) (hu : ma / 64 ∉ s.mem.poison) :
    ∃ t, execMemCrcReread ma fails s = .next t ∧ t.mem.stackRegs = (s.crcEvent ma site.val 3).mem.stackRegs ∧
      t.mem.data = s.mem.data ∧ t.mem.poison = s.mem.poison ++ [ma / 64] ∧ t.mon = (s.crcEvent ma site.val 3).mon := by
  obtain ⟨hdata, hpoison⟩ := s.crcEvent_memory ma site.val 3
  rw [execMemCrcReread, occurs_of hs (by rw [hr, hp]; rfl), hp, h]
  dsimp only
  rw [if_neg (by decide), if_neg (by simpa using hu), hpoison]
  exact ⟨_, rfl, rfl, hdata, rfl, rfl⟩
end

/-- Settles O26: a write leaves what it wrote, reads move no byte, and a re-read counts at the stack of its unit. -/
theorem unitAccesses : Obligations.UnitAccesses := by
  intro ma s hs hr hwf
  refine ⟨fun hp bytes hlen => ?write, fun hp off bytes hfit => ?modify, fun hp => ?read, fun hp acc => ?outside,
    fun fails site slocal x hp hx hd hrec hcnt hroom hu => ?reread⟩
  case write =>
    refine ⟨_, (execMemUnitAccess_ready _ hs hr).trans (if_pos hp), ?_⟩
    rw [State.unitAccess_write hlen]
    refine ⟨fun k hk => Mem.read_writeN_in _ bytes hwf (hlen ▸ hk), fun a ha => Mem.read_writeN_out bytes (hlen ▸ ha),
      fun h => ((State.memPut_unit_poison hlen _).mp h).2 rfl, fun v hv => ?_, fun p => State.memPut_unit_crc hlen hwf, rfl, rfl, rfl⟩
    exact (State.memPut_unit_poison hlen v).trans (and_iff_left hv)
  case modify =>
    refine ⟨_, (execMemUnitAccess_ready _ hs hr).trans (if_pos hp), ?_⟩
    by_cases hclean : s.poisonIn (ma / 64 * 64) 64 = []
    · rw [State.unitAccess_modify hfit hclean]
      exact ⟨rfl, fun a ha => Mem.read_writeN_out bytes ha, fun _ k hk => Mem.read_writeN_in _ bytes hwf hk,
        fun h => absurd hclean h⟩
    · obtain ⟨hdata, hpoison⟩ := s.memGet_memory (ma / 64 * 64) 64
      rw [State.unitAccess_modify_poisoned hfit hclean]
      exact ⟨State.memGet_stations .., fun a _ => by rw [hdata], fun h => absurd h hclean, fun _ => ⟨hdata, hpoison⟩⟩
  case read =>
    obtain ⟨hdata, hpoison⟩ := s.memGet_memory (ma / 64 * 64) 64
    exact ⟨_, (execMemUnitAccess_ready .read hs hr).trans (if_pos hp), hdata, hpoison,
      fun h => congrArg Prod.fst (State.memGet_clean h)⟩
  case outside => exact (execMemUnitAccess_ready acc hs hr).trans (if_neg (by simpa using hp))
  case reread =>
    obtain ⟨hsite, rfl⟩ := Vector.getElem?_eq_some_iff.mp hx
    obtain ⟨site, rfl⟩ : ∃ i : Fin 8, i.val = site := ⟨⟨site, hsite⟩, rfl⟩
    by_cases h : fails.val < 3
    · refine ⟨_, _, execMemCrcReread_mends hs hr hp h, Vector.getElem?_eq_getElem hsite, ?_⟩
      rw [State.crcEvent_mended hd hrec hcnt h]
      exact ⟨rfl, fun _ => ⟨State.updStack_same .., rfl, rfl⟩, fun h3 => absurd h3 (Nat.ne_of_lt h)⟩
    · obtain ⟨t, hexec, hregs, hdata, hpoison, hmon⟩ := execMemCrcReread_poisons hs hr hp (show fails.val = 3 by omega) hu
      rw [State.crcEvent_poisoned hd hrec hcnt] at hregs hmon
      refine ⟨t, _, hexec, Vector.getElem?_eq_getElem hsite, hdata, fun hlt => absurd hlt h, fun _ => ⟨?_, hpoison, ?_⟩⟩
      · simp only [hregs, State.logEvt_mem]
        exact State.updStack_same ..
      · rw [hmon]
        exact State.logEvt_queue_length hroom

end Sys2Proof.Machine
end

section
/-! Refresh by temperature (R208, Table 12.3): the multiplier that each reading leaves, from the one it finds. -/

namespace Sys2Proof.Machine

/-- The refresh multiplier after a reading. -/
def refNext (r : BitVec 2) (temp : Nat) : BitVec 2 := BitVec.ofNat 2 (max (refUp temp) (min r.toNat (refHold temp)))

theorem refNext_hot {r : BitVec 2} {temp : Nat} (h : 95 ≤ temp) (hr : r ≤ 2) : refNext r temp = 2 := by
  have held : min r.toNat (refHold temp) ≤ 2 := Nat.le_trans (Nat.min_le_left ..) hr
  rw [refNext, refUp, if_pos h, Nat.max_eq_left held]
  rfl

/-- At 94 degrees the highest multiplier is held. -/
theorem refNext_holds_two {temp : Nat} (h : 93 < temp) (h' : temp < 95) : refNext 2 temp = 2 := by
  rw [refNext, refUp, refHold, if_neg (by omega), if_pos (by omega), if_pos h]
  rfl

theorem refNext_warm {r : BitVec 2} {temp : Nat} (h : 85 ≤ temp) (h' : temp < 95) (hr : r ≤ 1) : refNext r temp = 1 := by
  have held : min r.toNat (refHold temp) ≤ 1 := Nat.le_trans (Nat.min_le_left ..) hr
  rw [refNext, refUp, if_neg (by omega), if_pos h, Nat.max_eq_left held]
  rfl

/-- At 84 degrees the middle multiplier is held. -/
theorem refNext_holds_one {temp : Nat} (h : 83 < temp) (h' : temp < 85) : refNext 1 temp = 1 := by
  rw [refNext, refUp, refHold, if_neg (by omega), if_neg (by omega), if_neg (by omega), if_pos h]
  rfl

/-- Up to 83 degrees no reading asks for more refresh, and none is held. -/
theorem refNext_cool {r : BitVec 2} {temp : Nat} (h : temp ≤ 83) : refNext r temp = 0 := by
  rw [refNext, refUp, refHold, if_neg (by omega), if_neg (by omega), if_neg (by omega), if_neg (by omega), Nat.min_zero]
  rfl

/-- A stack's registers after a reading of its temperature. -/
def Stack.heated (x : Stack) (temp : Nat) : Stack :=
  { x with temp := BitVec.ofNat 8 (min temp 255), refmul := refNext x.refmul temp, hot := x.hot || decide (105 < temp) }

/-- A reading changes its stack's registers, and nothing else in module memory, whether or not it is logged. -/
theorem execStackTemperatureReading_mem {s : State} {site : Fin 8} (temp : Nat) (hs : s.Specified) (hb : s.boot.state ≠ .off)
    (hsite : bitAt s.grade.sites.toNat site.val = true) :
    ∃ t, execStackTemperatureReading site temp s = .next t ∧ t.mem = (s.updStack site.val fun x => x.heated temp).mem := by
  refine ⟨_, occurs_of hs (by rw [State.bootOn hb, hsite]; rfl), ?_⟩
  dsimp only
  split
  · rw [State.tick_mem, State.logEvt_mem]
    rfl
  · rfl

/-- Settles O28: the reading is kept, and the multiplier follows it with its 2 degrees of hysteresis. -/
theorem refreshByTemperature : Obligations.RefreshByTemperature := by
  intro site temp s hs hb hsite x
  obtain ⟨t, hexec, hmem⟩ := execStackTemperatureReading_mem temp hs hb hsite
  have own : t.mem.stackRegs[site] = x.heated temp := by rw [hmem, State.updStack_same]
  refine ⟨t, hexec, ?_⟩
  rw [own]
  refine ⟨rfl, refNext_hot, fun h h' hr => ?_, refNext_warm, fun h h' hr => ?_, refNext_cool, fun h => ?_, fun h => ?_,
    fun o ho => ?_, ?_⟩
  · exact (congrArg (refNext · temp) hr).trans (refNext_holds_two h h')
  · exact (congrArg (refNext · temp) hr).trans (refNext_holds_one h h')
  · rw [Stack.heated, decide_eq_true h, Bool.or_true]
  · rw [Stack.heated, decide_eq_false (Nat.not_lt.mpr h), Bool.or_false]
  · rw [hmem, State.updStack_ne _ ho]
  · rw [hmem, State.updStack_data]

end Sys2Proof.Machine
end

section
/-! Commands on margins, snapshots, firmware and attestation (R214, R293, R352, R353, R357, R380): the one path that each takes once its
checks pass. -/

namespace Sys2Proof.Machine

/-- A command of the PF that passes the shared checks. -/
theorem pfRow_of {s : State} {f : Fin 64} {op : Nat} {fields : List (Nat × Nat)} {run : State → ReqRef → List Byte → State}
    {e : ReqEntry} (ht : s.Takes f op fields e) (hf : f = 0) :
    cmdRow f op fields true false run s = .next ((run (s.popReq f) (e.ref f) e.bytes).settle f) :=
  cmdRow_of ht (fun _ => hf) nofun

/-! ## MEM_MARGIN -/

/-- A register keeps of a number what fits it. -/
theorem ofNat_mod_two_pow (w n : Nat) : BitVec.ofNat w (n % 2 ^ w) = BitVec.ofNat w n := by
  apply BitVec.eq_of_toNat_eq
  rw [BitVec.toNat_ofNat, BitVec.toNat_ofNat, Nat.mod_mod]

/-- A stack whose channel is under test at the offsets of a MEM_MARGIN. -/
def Stack.atPoint (x : Stack) (b : List Byte) : Stack :=
  { x with
    chan := BitVec.ofNat 4 (pay b 1 1)
    rdly := BitVec.ofNat 7 (pay b 4 1)
    wdly := BitVec.ofNat 7 (pay b 5 1)
    vref := BitVec.ofNat 5 (pay b 6 1)
    vddq := BitVec.ofNat 5 (pay b 7 1)
    running := true }

theorem State.updStack_updStack (s : State) (site : Fin 8) (f g : Stack → Stack) :
    (s.updStack site.val f).updStack site.val g = s.updStack site.val fun x => g (f x) := by
  simp only [State.updStack, vupdN_val, vupd_vupd]

/-- A point's offsets, once they are set and tested. -/
theorem State.setMargin_running (s : State) (site : Fin 8) (b : List Byte) :
    (s.setMargin site.val (pay b 1 1) (pay b 4 1 % 128) (pay b 5 1 % 128) (pay b 6 1 % 32) (pay b 7 1 % 32)).updStack site.val
      (fun x => { x with running := true }) = s.updStack site.val fun x => x.atPoint b := by
  have timing : ∀ n, BitVec.ofNat 7 (n % 128) = BitVec.ofNat 7 n := ofNat_mod_two_pow 7
  have voltage : ∀ n, BitVec.ofNat 5 (n % 32) = BitVec.ofNat 5 n := ofNat_mod_two_pow 5
  rw [State.setMargin, State.updStack_updStack]
  simp only [timing, voltage]
  rfl

/-- A margin request is in progress. -/
def State.setMarginReq (s : State) (m : MarginReq) : State := { s with crown := { s.crown with marginReq := some m } }

/-- Module memory in margin mode. -/
def State.inMargin (s : State) : State := { s with mem := { s.mem with margin := true } }

/-- Margin mode with one point of a stack under test for a request. -/
def State.marginPoint (s : State) (site : Fin 8) (r : ReqRef) (b : List Byte) : State :=
  (s.inMargin.updStack site.val fun x => x.atPoint b).setMarginReq ⟨r, site, false, 0, 0, 0, [], []⟩

/-- The offsets of a MEM_MARGIN lie in their ranges: the timing steps at 4 and 5, the voltage steps at 6 and 7. -/
def marginOffsOk (b : List Byte) : Bool :=
  stepOk (pay b 4 1) 32 && stepOk (pay b 5 1) 32 && stepOk (pay b 6 1) 10 && stepOk (pay b 7 1) 10

section
variable {s : State} {f : Fin 64} {e : ReqEntry}

theorem execMemMargin_point {site : Fin 8} (ht : s.Takes f 0x07 [(0, 1), (1, 1), (2, 1), (4, 1), (5, 1), (6, 1), (7, 1)] e)
    (hf : f = 0) (hsite : pay e.bytes 0 1 = site.val) (hchan : pay e.bytes 1 1 < 16) (hmode : pay e.bytes 2 1 = 0)
    (hpop : bitAt s.grade.sites.toNat site.val = true) (hoffs : marginOffsOk e.bytes = true) (hr : s.mem.ready = true)
    (hses : s.noSession = true) (hadm : s.crown.everAdmitted = false) (hreq : s.crown.marginReq = none) :
    execMemMargin f s = .next ((((s.popReq f).marginPoint site (e.ref f) e.bytes).reply (e.ref f) Code.accepted).settle f) := by
  simp only [marginOffsOk, Bool.and_eq_true] at hoffs
  obtain ⟨⟨⟨hrd, hwr⟩, hvref⟩, hvddq⟩ := hoffs
  refine (pfRow_of ht hf).trans (congrArg (fun t : State => Host.Outcome.next (t.settle f)) ?_)
  refine (if_neg ?bad).trans ((if_neg ?busy).trans (congrArg (State.reply · _ _) ((if_neg (by rw [hmode]; decide)).trans ?_)))
  case bad =>
    simp [hsite, hchan, hmode, hpop, hrd, hwr, hvref, hvddq]
  case busy =>
    rw [State.popReq_mem, hr, show (s.popReq f).noSession = true from hses, show (s.popReq f).crown.everAdmitted = false from hadm,
      show (s.popReq f).crown.marginReq = none from hreq]
    decide
  have stack : ((s.popReq f).inMargin.setMargin (pay e.bytes 0 1) (pay e.bytes 1 1) (pay e.bytes 4 1 % 128) (pay e.bytes 5 1 % 128)
      (pay e.bytes 6 1 % 32) (pay e.bytes 7 1 % 32)).updStack (pay e.bytes 0 1) (fun x => { x with running := true }) =
        (s.popReq f).inMargin.updStack site.val fun x => x.atPoint e.bytes := by
    rw [hsite]
    exact State.setMargin_running ..
  have place : (⟨pay e.bytes 0 1 % 8, Nat.mod_lt _ (by decide)⟩ : Fin 8) = site :=
    Fin.ext ((congrArg (· % 8) hsite).trans (Nat.mod_eq_of_lt site.isLt))
  rw [State.marginPoint, ← stack, hmode, place]
  rfl

/-! ## Snapshots, firmware and attestation -/

theorem execMonSnapshot_numbers (ht : s.Takes f 0x08 [(0, 8), (8, 8)] e) (hf : f = 0) :
    execMonSnapshot f s = .next ((({ s.popReq f with
      mon := { s.mon with snapNo := s.mon.snapNo + 1 }
      crown := { (s.popReq f).crown with snaps := s.crown.snaps ++
        [⟨e.ref f, BitVec.ofNat 64 (pay e.bytes 0 8), pay e.bytes 8 8, s.mon.snapNo + 1⟩] } } : State).reply (e.ref f)
          Code.accepted).settle f) :=
  pfRow_of ht hf

theorem execFwActivate_drains (ht : s.Takes f 0x51 [(0, 4)] e) (hf : f = 0) (hst : s.boot.staged = true)
    (hact : s.crown.activation = none) :
    execFwActivate f s = .next (({ s.popReq f with crown := { (s.popReq f).crown with
      activation := some ⟨some (e.ref f), true, BitVec.ofNat 32 s.fwVersion⟩ } } : State).settle f) := by
  rw [execFwActivate, pfRow_of ht hf]
  dsimp only
  rw [State.popReq_boot, hst, show (s.popReq f).crown.activation = none from hact, if_neg (by decide), if_neg (by decide)]
  rfl

theorem execAttest_reports (ht : s.Takes f 0x52 [(0, 32), (0x20, 8), (0x28, 4)] e) (hlen : 25456 ≤ pay e.bytes 0x28 4) :
    execAttest f s = .next (((((s.popReq f).reply (e.ref f) Code.accepted).toHost
      (.write f (pay e.bytes 0x20 8) (s.signedReport (slice e.bytes 0x10 32)))).complete (e.ref f) Code.ok
        (natLe 4 25456)).settle f) := by
  rw [execAttest, cmdRow_of ht (pf := false) (owner := false) nofun nofun, if_neg (Nat.not_lt.mpr hlen)]
  rfl

theorem execFwStage_begins {img : List Byte} (ht : s.Takes f 0x50 [(0, 8), (8, 4)] e) (hf : f = 0) (hb : s.stageBusy = false)
    (hlen : img.length = pay e.bytes 8 4) :
    execFwStage f (some img) s =
      .next ((((s.popReq f).reply (e.ref f) Code.accepted).stageBegin (some (e.ref f)) (some img)).settle f) := by
  rw [execFwStage, pfRow_of ht hf, show (s.popReq f).stageBusy = false from hb, if_neg (by decide), filter_length_some hlen]
end

/-- Staging looks at the fuses, the running image's header and the ports, which a reply leaves. -/
theorem State.stageError_reply (s : State) (r : ReqRef) (c : Byte) (p img : List Byte) :
    (s.reply r c p).stageError img = s.stageError img := by
  rw [State.reply_eq]
  split <;> rfl

theorem Flash.putBank_other (x : Flash) (b : Bool) (img : List Byte) : (x.putBank (!b) img).bank b = x.bank b := by
  cases b <;> rfl

/-- A bank's write leaves the record copies and the configuration copies. -/
theorem Flash.putBank_copies (x : Flash) (b : Bool) (img : List Byte) : (x.putBank b img).boot0 = x.boot0 ∧
    (x.putBank b img).boot1 = x.boot1 ∧ (x.putBank b img).cfg0 = x.cfg0 ∧ (x.putBank b img).cfg1 = x.cfg1 := by
  cases b <;> exact ⟨rfl, rfl, rfl, rfl⟩

section
variable {s : State} {img : List Byte} (h : s.stageError img = none) (ref : Option ReqRef)
include h

/-- An image that passes is being staged, STAGED is clear, and the write touches the bank to be staged, or nothing yet for a
configuration image. -/
theorem State.stageBegin_passes : ∃ t, s.stageBegin ref (some img) = t ∧ t.boot.staged = false ∧
    t.crown.stage = some ⟨ref, imgType img == 2, img.take (imgLen img)⟩ ∧
    (t.flash = s.flash ∨ ∃ bytes, t.flash = s.flash.putBank s.stageBank bytes) := by
  refine ⟨_, rfl, ?_⟩
  unfold State.stageBegin
  dsimp only
  rw [h]
  dsimp only
  refine ⟨rfl, rfl, ?_⟩
  split
  · exact .inl rfl
  · exact .inr ⟨_, rfl⟩
end

/-- Settles O37: each command takes the one path that its checks leave. -/
theorem serviceCommands : Obligations.ServiceCommands := by
  intro f s e r b u
  refine ⟨fun site ht hf hsite hchan hmode hpop hrd hwr hvref hvddq hr hses hadm hreq => ?margin, execMonSnapshot_numbers,
    fun img ht hf hbusy hlen herr => ?stage, execFwActivate_drains, execAttest_reports⟩
  case margin =>
    refine ⟨_, execMemMargin_point ht hf hsite hchan hmode hpop (by rw [marginOffsOk, hrd, hwr, hvref, hvddq]; rfl) hr hses hadm hreq,
      ?_⟩
    rw [State.reply_mem, State.reply_crown]
    exact ⟨rfl, State.updStack_same .., fun o ho => State.updStack_ne _ ho, rfl, rfl⟩
  case stage =>
    have passes : (u.reply r Code.accepted).stageError img = none := (State.stageError_reply ..).trans herr
    obtain ⟨t, hbegin, hstaged, hstage, hflash⟩ := State.stageBegin_passes passes (some r)
    refine ⟨t, hbegin ▸ execFwStage_begins ht hf hbusy hlen, hstaged, hstage, ?_⟩
    rw [State.reply_flash] at hflash
    obtain hsame | ⟨bytes, hput⟩ := hflash
    · rw [hsame]
      exact ⟨fun _ => rfl, rfl, rfl, rfl, rfl⟩
    · rw [hput]
      refine ⟨fun hrec => ?_, Flash.putBank_copies ..⟩
      rw [State.stageBank, State.reply_boot, State.popReq_boot, hrec]
      exact Flash.putBank_other ..

end Sys2Proof.Machine
end

section
/-! The sequencer (R221, R222, R225 to R227, R229, R239): the front command runs, control operations take their effect, and
instructions enter their engine's queue and issue from it. -/

namespace Sys2Proof.Machine

/-! ## Steps -/

theorem step_of_cons {s : State} {c : Instr} {rest : List Instr} (h : s.pending = c :: rest) :
    step s = exec c { s with pending := rest } := by
  rw [step, h]

theorem step_of_nil {s : State} (h : s.pending = []) : step s = .next s := by
  rw [step, h]

/-- Settles O1: the queue's front decides between the two branches of a step. -/
theorem stepRunsFront : Obligations.StepRunsFront :=
  fun _ _ _ => ⟨step_of_cons rfl, step_of_nil rfl⟩

/-! ## Control operations -/

theorem modsFld_lt (iw : BitVec 128) (lo w : Nat) : modsFld iw lo w < 2 ^ w := Nat.mod_lt _ (Nat.two_pow_pos w)

/-- A field of five bits names one of the 32 counters. -/
theorem Station.setCtr_modsFld (t : Station) (iw : BitVec 128) (lo : Nat) (v : Word) :
    t.setCtr (modsFld iw lo 5) v = { t with ctrs := vupdN t.ctrs (modsFld iw lo 5) fun _ => v } := by
  have five_bits : modsFld iw lo 5 % 32 = modsFld iw lo 5 := Nat.mod_eq_of_lt (modsFld_lt iw lo 5)
  rw [Station.setCtr, five_bits]

/-- LOOP counts on either branch; GE of the incremented counter chooses the next PC alone (R225, R227). -/
theorem Station.looped_eq (t : Station) (iw : BitVec 128) :
    t.looped iw = { t with
      ctrs := vupdN t.ctrs (modsFld iw 0 5) fun _ => t.ctr (modsFld iw 0 5) + 1
      pc := if (t.ctr (modsFld iw 0 5) + 1 - t.cmpVal (modsFld iw 5 3)).toNat < 2 ^ 31 then t.pc + 1
        else dAddr (t.desc (d0Of iw)) } := by
  simp only [Station.looped, geWord, decide_eq_true_eq, Station.setCtr_modsFld]
  split <;> rfl

section
variable {st : Fin 16} {s : State} {iw : BitVec 128}

theorem execNop_of (hx : s.Executes st 0x01 iw) : execNop st s = .next (s.controlDone st iw s.stations[st]) :=
  controlRow_of hx

theorem execEndCode_of (hx : s.Executes st 0x02 iw) :
    execEndCode st s = .next (s.controlDone st iw { s.stations[st] with run := false, ended := true }) :=
  controlRow_of hx

theorem execCset_of (hx : s.Executes st 0x03 iw) :
    execCset st s = .next (s.controlDone st iw { s.stations[st] with
      ctrs := vupdN s.stations[st].ctrs (modsFld iw 0 5) fun _ => BitVec.ofNat 32 (s.stations[st].param iw 0 32) }) := by
  rw [execCset, controlRow_of hx, Station.setCtr_modsFld]

theorem execCmpset_of (hx : s.Executes st 0x04 iw) :
    execCmpset st s = .next (s.controlDone st iw { s.stations[st] with
      cmps := vupdN s.stations[st].cmps (modsFld iw 0 3) fun _ => s.stations[st].cmpOf iw }) :=
  controlRow_of hx

theorem execLoop_of (hx : s.Executes st 0x07 iw) :
    execLoop st s = .next ((s.putStn st (s.stations[st].looped iw)).raise st iw) :=
  controlRow_of hx
end

/-- Settles O2: each operation is the row's effect on the instruction that executes. -/
theorem controlOperations : Obligations.ControlOperations := by
  intro st s iw
  refine ⟨execNop_of, execEndCode_of, execCset_of, execCmpset_of, fun hx => ?_⟩
  exact (execLoop_of hx).trans (by rw [Station.looped_eq])

/-! ## Dispatch and issue -/

theorem isControl_eq_false_iff {op : Nat} : isControl op = false ↔ op = 0 ∨ 8 ≤ op := by
  simp only [isControl, Bool.and_eq_false_iff, decide_eq_false_iff_not]
  omega

theorem Station.enqueue_advance (t : Station) (iw : BitVec 128) :
    (t.enqueue iw).advance = { t with
      pc := t.pc + 1
      nextXid := t.nextXid + 1
      queues := vupd t.queues (t.queueOf iw) fun l => l ++ [t.entryOf iw] } := rfl

section
variable {st : Fin 16} {s : State} (hrun : s.jobRuns s.stations[st] = true)
include hrun

/-- A station that dispatches has the instruction at PC as its next. -/
theorem State.nextInstr_of (hgo : s.stations[st].run = true) (hload : s.stations[st].load = none) :
    s.nextInstr st = s.stations[st].code[s.stations[st].pc]? := by
  rw [State.nextInstr, hrun, hgo, hload]
  rfl

theorem State.dispatchable_of {iw : BitVec 128} (hgo : s.stations[st].run = true) (hload : s.stations[st].load = none)
    (hpc : s.stations[st].code[s.stations[st].pc]? = some iw) (hop : opOf iw = 0 ∨ 8 ≤ opOf iw)
    (hroom : s.stations[st].queues[s.stations[st].queueOf iw].length < 16) : s.dispatchable st = some iw := by
  rw [State.dispatchable, State.nextInstr_of hrun hgo hload, hpc, Option.filter_some, isControl_eq_false_iff.mpr hop,
    decide_eq_true hroom]
  rfl

theorem execEngineIssue_of {q : Fin 22} {i : Nat} {e : QEntry} (hs : s.Specified) (hq : s.issuable st q = some (i, e)) :
    execEngineIssue st q s = .next (s.putStn st (s.stations[st].updAt q i fun x => { x with phase := .issued })) := by
  rw [execEngineIssue, occurs_of hs (by rw [hrun, hq]; rfl), hq]
  rfl
end

theorem execDispatch_of {st : Fin 16} {s : State} {iw : BitVec 128} (hs : s.Specified) (hd : s.dispatchable st = some iw) :
    execDispatch st s = .next (s.putStn st (s.stations[st].enqueue iw).advance) := by
  rw [execDispatch, occurs_of hs (by rw [hd]; rfl), hd]

/-- Settles O4: the instruction at PC is the one that DISPATCH takes, and ENGINE_ISSUE takes the queue's next entry. -/
theorem dispatchAndIssue : Obligations.DispatchAndIssue := by
  intro st s hs hrun
  refine ⟨fun iw hgo hload hpc hop hroom => ?_, fun q i e hq => execEngineIssue_of hrun hs hq⟩
  have taken : s.dispatchable st = some iw := State.dispatchable_of hrun hgo hload hpc hop hroom
  exact (execDispatch_of hs taken).trans (by rw [Station.enqueue_advance])

end Sys2Proof.Machine
end

section
/-! Signals between stations and answers to stale messages (R230, R258): the oldest one is taken, and the role that its target holds
decides what it does. -/

namespace Sys2Proof.Machine

theorem Station.accepts_iff {t : Station} {ses : BitVec 14} {epoch : BitVec 16} :
    t.accepts ses epoch = true ↔ t.held = true ∧ t.ses = ses ∧ t.epoch = epoch := by
  simp only [Station.accepts, Bool.and_eq_true, beq_iff_eq, and_assoc]

/-- A signal belongs to no stream engine, so its answer names none. -/
theorem NetMsg.answer_signal {m : NetMsg} {k : BitVec 2} {x : BitVec 7} (hk : m.kind = .signal k x) :
    m.answer = ⟨m.dst, m.src, m.ses, m.back, m.back, .stale none⟩ := by
  rw [NetMsg.answer, hk]

section
variable {src dst : Fin 16} {s : State} {i : Nat} {m : NetMsg} {k : BitVec 2} {x : BitVec 7} (hs : s.Specified)
  (hk : m.kind = .signal k x) (hm : firstWith (fun n => n.isSignal && n.src == src && n.dst == dst) s.net = some (i, m))
include hs hk hm

/-- A signal to the role that its target holds takes effect on the scoreboard (R226, R230). -/
theorem execRemoteSignal_accepted (hacc : s.stations[dst].accepts m.ses m.epoch = true) :
    execRemoteSignal src dst s =
      .next ({ s with net := s.net.eraseIdx i }.putStn dst (s.stations[dst].applySignal k.toNat x.toNat)) := by
  rw [execRemoteSignal, occurs_of hs (by rw [hm]; rfl), hm]
  dsimp only
  rw [hk, hacc]
  rfl

/-- A signal to a role that has ended is counted at its target and answered (R258). -/
theorem execRemoteSignal_stale (hacc : s.stations[dst].accepts m.ses m.epoch = false) :
    execRemoteSignal src dst s =
      .next ({ s with net := s.net.eraseIdx i ++ [m.answer] }.putStn dst
        { s.stations[dst] with stale := wrapAdd s.stations[dst].stale 1 }) := by
  rw [execRemoteSignal, occurs_of hs (by rw [hm]; rfl), hm]
  dsimp only
  rw [hk, hacc]
  rfl
end

/-- An answer to a signal that reaches the role that sent it ends that role's job (R258). -/
theorem execStaleAnswer_ends {dst : Fin 16} {s : State} {i : Nat} {m : NetMsg} (hs : s.Specified) (hk : m.kind = .stale none)
    (hm : firstWith (fun n : NetMsg => n.isStale && n.dst == dst) s.net = some (i, m))
    (hacc : s.stations[dst].accepts m.ses m.epoch = true) (hrun : s.jobRuns s.stations[dst] = true) :
    execStaleAnswer dst s =
      .next (({ s with net := s.net.eraseIdx i }.countStale m.ses.toNat).instrFault dst Code.roleEpochStale) := by
  rw [execStaleAnswer, occurs_of hs (by rw [hm]; rfl), hm]
  dsimp only
  rw [hacc, hrun, hk]
  rfl

/-- Settles O6: the target accepts the signal or drops it, and the sender's role accepts its answer. -/
theorem messagesBetweenStations : Obligations.MessagesBetweenStations := by
  intro src dst s i m hs
  refine ⟨fun k x hk hm => ⟨fun role => ?accepted, fun role => ?dropped⟩, fun hk hm hheld hses hepoch hrun => ?answered⟩
  case accepted => exact execRemoteSignal_accepted hs hk hm (Station.accepts_iff.mpr role)
  case dropped =>
    have refused := Bool.eq_false_iff.mpr (mt Station.accepts_iff.mp role)
    exact (execRemoteSignal_stale hs hk hm refused).trans (by rw [NetMsg.answer_signal hk])
  case answered => exact execStaleAnswer_ends hs hk hm (Station.accepts_iff.mpr ⟨hheld, hses, hepoch⟩) hrun

end Sys2Proof.Machine
end

section
/-! The side queue's set-up and assertion, and ESYNC (R241 to R243): what a start of each leaves of the station. -/

namespace Sys2Proof.Machine

/-! ## MLOAD -/

/-- MODTAB once `n` entries of the session's modulus list, from `lst` on, are copied to its entries from `first` on (R241). -/
def Station.loadedModtab (t : Station) (first lst n : Nat) : Vector ModEntry 64 :=
  Vector.ofFn fun i =>
    if first ≤ i.val ∧ i.val < first + n then t.modlist.getD (lst + (i.val - first)) ModEntry.reset else t.modtab[i]

section
variable {t : Station} {first lst n : Nat}

/-- A loaded entry is the list's entry at the same place of its range. -/
theorem Station.loadedModtab_copied {j : Nat} (hj : j < n) (hfirst : first + n ≤ 64) (hlst : lst + n ≤ t.modlist.length) :
    (t.loadedModtab first lst n)[first + j]? = t.modlist[lst + j]? := by
  have listed : lst + j < t.modlist.length := by omega
  rw [Vector.getElem?_eq_getElem (by omega), List.getElem?_eq_getElem listed, Station.loadedModtab, Vector.getElem_ofFn,
    if_pos ⟨Nat.le_add_right .., Nat.add_lt_add_left hj _⟩, Nat.add_sub_cancel_left, List.getD_eq_getElem _ _ listed]

/-- An entry outside the loaded range stays. -/
theorem Station.loadedModtab_kept {j : Fin 64} (hj : j.val < first ∨ first + n ≤ j.val) :
    (t.loadedModtab first lst n)[j] = t.modtab[j] := by
  have outside : ¬(first ≤ j.val ∧ j.val < first + n) := by omega
  exact (Vector.getElem_ofFn ..).trans (if_neg outside)
end

/-- Ranges that lie in MODTAB and in the list pass MLOAD's check. -/
theorem planMload_go {s : State} {t : Station} {e : QEntry} (hfirst : t.param e.iw 0 6 + (t.param e.iw 13 6 + 1) ≤ 64)
    (hlst : t.param e.iw 6 7 + (t.param e.iw 13 6 + 1) ≤ t.modlist.length) :
    planMload s t e =
      .go { t with modtab := t.loadedModtab (t.param e.iw 0 6) (t.param e.iw 6 7) (t.param e.iw 13 6 + 1) } e :=
  if_neg (by omega)

/-! ## The three operations start -/

section
variable {st : Fin 16} {s : State} {i : Nat} {e : QEntry}

theorem execMload_starts (h : s.Issued st 0 0x08 i e)
    (hfirst : s.stations[st].param e.iw 0 6 + (s.stations[st].param e.iw 13 6 + 1) ≤ 64)
    (hlst : s.stations[st].param e.iw 6 7 + (s.stations[st].param e.iw 13 6 + 1) ≤ s.stations[st].modlist.length) :
    execMload st s = .next (s.startOp st 0 i (.go { s.stations[st] with
      modtab := s.stations[st].loadedModtab (s.stations[st].param e.iw 0 6) (s.stations[st].param e.iw 6 7)
        (s.stations[st].param e.iw 13 6 + 1) } e)) := by
  rw [execMload, opRow_of h, planMload_go hfirst hlst]

/-- An AHDR whose tests all pass writes nothing (R242). -/
theorem execAhdr_starts (h : s.Issued st 0 0x09 i e)
    (hpass : ahdrFault (s.stnKeySet s.stations[st]) (s.stnTag s.stations[st]) s.stations[st] e = none) :
    execAhdr st .clean s = .next (s.startOp st 0 i (.go s.stations[st] e)) :=
  opRead_plan h (by rw [planAhdr, hpass])

theorem execEsync_starts {q : Fin 22} (h : s.Issued st q 0x0A i e) :
    execEsync st q s = .next (s.startOp st q i (.go s.stations[st] e)) :=
  opRow_of h
end

/-- Settles O14: MLOAD's table is the copied range with the old entries around it; AHDR and ESYNC start from an unchanged station. -/
theorem sideQueueOperations : Obligations.SideQueueOperations := by
  refine fun st s i e => ⟨fun h hfirst hlst => ?mload, execAhdr_starts, fun _ => execEsync_starts⟩
  exact ⟨_, execMload_starts h hfirst hlst, rfl, fun j hj => Station.loadedModtab_copied hj hfirst hlst,
    fun j hj => Station.loadedModtab_kept hj⟩

end Sys2Proof.Machine
end

section
/-! Band's check values (R317 to R319, R324): a unit that is fed bytes one at a time runs the register of Table 18.1, and a wider feed
is its bytes in ascending order. -/

namespace Sys2Proof.Machine

/-! ## Bytes of numbers -/

/-- A number spells the bytes that it is read from. -/
theorem natLe_leNat (bs : List Byte) : natLe bs.length (leNat bs) = bs := by
  induction bs with
  | nil => rfl
  | cons b bs ih =>
    have hb : b.toNat < 256 := b.isLt
    rw [List.length_cons, natLe, leNat]
    refine congrArg₂ List.cons (BitVec.eq_of_toNat_eq ?_) ?_
    · rw [BitVec.toNat_ofNat]; omega
    · rw [show (b.toNat + 256 * leNat bs) / 256 = leNat bs by omega, ih]

theorem leNat_lt (bs : List Byte) : leNat bs < 256 ^ bs.length := by
  induction bs with
  | nil => exact Nat.one_pos
  | cons b bs ih =>
    have hb : b.toNat < 256 := b.isLt
    rw [leNat, List.length_cons, Nat.pow_succ]
    omega

/-! ## The running value (R317, R318) -/

theorem crcShift_lt {poly w : Nat} (hp : poly < 2 ^ w) (n : Nat) {x : Nat} (hx : x < 2 ^ w) : crcShift poly n x < 2 ^ w := by
  induction n generalizing x with
  | zero => exact hx
  | succ n ih =>
    have half : x / 2 < 2 ^ w := Nat.lt_of_le_of_lt (Nat.div_le_self ..) hx
    rw [crcShift]
    split
    · exact ih (Nat.xor_lt_two_pow half hp)
    · exact ih half

theorem crcByte_lt {poly w run : Nat} (hp : poly < 2 ^ w) (hw : 8 ≤ w) (hr : run < 2 ^ w) (b : Byte) : crcByte poly run b < 2 ^ w :=
  crcShift_lt hp 8 (Nat.xor_lt_two_pow hr (Nat.lt_of_lt_of_le b.isLt (Nat.pow_le_pow_right (by decide) hw)))

/-- A byte that is fed alone enters the running value. -/
theorem BndUnit.apply_feed_byte (x : BndUnit) (b : Byte) : x.apply (.feed 1 (b.setWidth 32)) = x.feedByte b := by
  have hb : b.toNat < 256 := b.isLt
  have spelt : natLe 1 (b.setWidth 32).toNat = [b] := by
    rw [BitVec.toNat_setWidth, Nat.mod_eq_of_lt (by omega)]
    exact natLe_leNat [b]
  rw [BndUnit.apply, spelt]
  rfl

theorem BndUnit.apply_feed_bytes (x : BndUnit) (bs : List Byte) :
    (bs.map fun b => BndWrite.feed 1 (b.setWidth 32)).foldl BndUnit.apply x = bs.foldl BndUnit.feedByte x := by
  simp only [List.foldl_map, BndUnit.apply_feed_byte]

theorem BndUnit.feedBytes_crc32c {x : BndUnit} (h : x.alg = 0) (bs : List Byte) :
    (bs.foldl BndUnit.feedByte x).run.toNat % 2 ^ 32 = crcBytes crc32cPoly (x.run.toNat % 2 ^ 32) bs := by
  induction bs generalizing x with
  | nil => rfl
  | cons b bs ih =>
    have fed : x.feedByte b = { x with
        run := BitVec.ofNat 64 (x.run.toNat / 2 ^ 32 * 2 ^ 32 + crcByte crc32cPoly (x.run.toNat % 2 ^ 32) b) } :=
      if_neg (by rw [h]; decide)
    have low : crcByte crc32cPoly (x.run.toNat % 2 ^ 32) b < 2 ^ 32 :=
      crcByte_lt (by decide) (by decide) (Nat.mod_lt _ (by decide)) b
    have run : (x.feedByte b).run.toNat % 2 ^ 32 = crcByte crc32cPoly (x.run.toNat % 2 ^ 32) b := by
      rw [fed, BitVec.toNat_ofNat]
      omega
    rw [List.foldl_cons, ih (by rw [fed]; exact h), run]
    rfl

theorem BndUnit.feedBytes_crc64 {x : BndUnit} (h : x.alg = 1) (bs : List Byte) :
    (bs.foldl BndUnit.feedByte x).run.toNat = crcBytes crc64Poly x.run.toNat bs := by
  induction bs generalizing x with
  | nil => rfl
  | cons b bs ih =>
    have fed : x.feedByte b = { x with run := BitVec.ofNat 64 (crcByte crc64Poly x.run.toNat b) } := if_pos h
    have run : (x.feedByte b).run.toNat = crcByte crc64Poly x.run.toNat b := by
      rw [fed, BitVec.toNat_ofNat, Nat.mod_eq_of_lt (crcByte_lt (by decide) (by decide) x.run.isLt b)]
    rw [List.foldl_cons, ih (by rw [fed]; exact h), run]
    rfl

/-- Feeding changes the running value alone. -/
theorem BndUnit.feedBytes_alg (x : BndUnit) (bs : List Byte) : (bs.foldl BndUnit.feedByte x).alg = x.alg := by
  induction bs generalizing x with
  | nil => rfl
  | cons b bs ih =>
    rw [List.foldl_cons, ih, BndUnit.feedByte]
    split <;> rfl

/-- The two halves of a result of 64 bits, each inverted. -/
theorem xor_ones_halves (n : Nat) :
    ((2 ^ 32 - 1) ^^^ (n / 2 ^ 32)) * 2 ^ 32 + ((2 ^ 32 - 1) ^^^ (n % 2 ^ 32)) = n ^^^ (2 ^ 64 - 1) := by
  have low : (2 ^ 32 - 1) ^^^ (n % 2 ^ 32) < 2 ^ 32 := Nat.xor_lt_two_pow (by decide) (Nat.mod_lt _ (by decide))
  refine Nat.eq_of_testBit_eq fun i => ?_
  rw [Nat.mul_comm, Nat.testBit_two_pow_mul_add _ low]
  simp only [Nat.testBit_xor, Nat.testBit_mod_two_pow, Nat.testBit_div_two_pow, Nat.testBit_two_pow_sub_one]
  by_cases hi : i < 32
  · simp [hi, Nat.lt_of_lt_of_le hi (by decide : 32 ≤ 64), Bool.xor_comm]
  · simp [hi, Bool.xor_comm, show i - 32 + 32 = i by omega, show i - 32 < 32 ↔ i < 64 by omega]

/-! ## Alive values (R319) -/

/-- How far a value of 32 bits lies behind another is their difference (R319). -/
theorem aliveClass_words (next v : Word) : aliveClass 32 next.toNat v.toNat =
    if v = next then .pass else if 1 ≤ (next - v).toNat ∧ (next - v).toNat ≤ 2 ^ 31 then .rep else .gap := by
  have behind : (next.toNat + 2 ^ 32 - v.toNat) % 2 ^ 32 = (next - v).toNat := by
    have := v.isLt
    rw [BitVec.toNat_sub]
    congr 1
    omega
  rw [aliveClass, behind]
  simp only [BitVec.toNat_inj]

/-- No value lies behind itself. -/
theorem ne_of_behind {next v : Word} (h : 1 ≤ (next - v).toNat) : v ≠ next := by
  rintro rfl
  rw [BitVec.sub_self] at h
  exact absurd h (by decide)

section
variable {x : BndUnit} {v : Word} (haw : x.aw = true)
include haw

/-- At the width of 32 bits an alive value is classified as it stands. -/
theorem BndUnit.class_wide :
    aliveClass x.width (x.anext.toNat % 2 ^ x.width) (v.toNat % 2 ^ x.width) = aliveClass 32 x.anext.toNat v.toNat := by
  rw [show x.width = 32 from if_pos haw, Nat.mod_eq_of_lt x.anext.isLt, Nat.mod_eq_of_lt v.isLt]

theorem BndUnit.achk_passes (h : v = x.anext) : x.achk v.toNat = { x with result := 1, anext := x.anext + 1 } := by
  have next : BitVec.ofNat 32 ((x.anext.toNat + 1) % 2 ^ 32) = x.anext + 1 := BitVec.eq_of_toNat_eq (Nat.mod_mod ..)
  rw [BndUnit.achk, BndUnit.class_wide haw, aliveClass_words, if_pos h, show x.width = 32 from if_pos haw, next]

theorem BndUnit.achk_repeats (h1 : 1 ≤ (x.anext - v).toNat) (h2 : (x.anext - v).toNat ≤ 2 ^ 31) :
    x.achk v.toNat = { x with result := 2, rep := satAdd x.rep 1 } := by
  rw [BndUnit.achk, BndUnit.class_wide haw, aliveClass_words, if_neg (ne_of_behind h1), if_pos ⟨h1, h2⟩]

theorem BndUnit.achk_gaps (h : 2 ^ 31 < (x.anext - v).toNat) : x.achk v.toNat = { x with result := 3, gap := satAdd x.gap 1 } := by
  rw [BndUnit.achk, BndUnit.class_wide haw, aliveClass_words, if_neg (ne_of_behind (by omega)), if_neg (by omega)]
end

/-- Settles O48: the fed bytes run the register from its initial value, and the three classes exclude each other. -/
theorem bandComputesCheckValues : Obligations.BandComputesCheckValues := by
  intro x bs y
  have fed : y = bs.foldl BndUnit.feedByte (x.apply .init) := BndUnit.apply_feed_bytes ..
  have alg : y.alg = x.alg := fed ▸ BndUnit.feedBytes_alg ..
  refine ⟨fun h => ?crc32c, fun h => ?crc64, fun b0 b1 b2 b3 => ?feed4, fun v haw => ?achk⟩
  case crc32c =>
    have start : (x.apply .init).run.toNat % 2 ^ 32 = 0xFFFFFFFF := (by decide : (0xFFFFFFFFFFFFFFFF : Dword).toNat % 2 ^ 32 = _)
    have run : y.run.toNat % 2 ^ 32 = crcBytes crc32cPoly 0xFFFFFFFF bs := by
      rw [fed, BndUnit.feedBytes_crc32c (x := x.apply .init) h, start]
    rw [BndUnit.value, run, Nat.xor_comm]
    rfl
  case crc64 =>
    have run : y.run.toNat = crcBytes crc64Poly 0xFFFFFFFFFFFFFFFF bs := fed ▸ BndUnit.feedBytes_crc64 (x := x.apply .init) h bs
    have high : y.value .resHi = (2 ^ 32 - 1) ^^^ (y.run.toNat / 2 ^ 32) := if_pos (alg.trans h)
    rw [high, BndUnit.value, xor_ones_halves, run]
    rfl
  case feed4 =>
    have spelt : natLe 4 (BitVec.ofNat 32 (leNat [b0, b1, b2, b3])).toNat = [b0, b1, b2, b3] := by
      have small : leNat [b0, b1, b2, b3] < 2 ^ 32 := Nat.lt_of_lt_of_eq (leNat_lt _) (by decide : 256 ^ 4 = 2 ^ 32)
      rw [BitVec.toNat_ofNat, Nat.mod_eq_of_lt small]
      exact natLe_leNat [b0, b1, b2, b3]
    rw [BndUnit.apply_feed_bytes, BndUnit.apply, spelt]
  case achk =>
    have classified : x.apply (.achk v) = x.achk v.toNat := rfl
    rw [classified]
    refine ⟨fun h => ?_, fun h1 h2 => ?_, fun h => ?_⟩
    · rw [BndUnit.achk_passes haw h]; exact ⟨rfl, rfl⟩
    · rw [BndUnit.achk_repeats haw h1 h2]; exact ⟨rfl, rfl, rfl⟩
    · rw [BndUnit.achk_gaps haw h]; exact ⟨rfl, rfl, rfl⟩

end Sys2Proof.Machine
end

section
/-! Mortar's scheduling and the ends of its jobs (R327, R333 to R337): which job is next, what a job that passed its checks leaves in
slot O, and the words that its end leaves alone. -/

namespace Sys2Proof.Machine

/-! ## Which job is next (R336) -/

theorem foldl_min_eq {l : List Nat} {x top : Nat} (hx : x ∈ l) (hle : ∀ y ∈ l, x ≤ y) (htop : x ≤ top) : l.foldl min top = x := by
  have least : (top :: l).min? = some x :=
    List.min?_eq_some_iff.mpr ⟨List.mem_cons_of_mem _ hx, List.forall_mem_cons.mpr ⟨htop, hle⟩⟩
  exact Option.some.inj (List.min?_cons'.symm.trans least)

/-- Table 19.2 has the classes 0 to 3. -/
theorem MJob.cls_lt (j : MJob) : j.cls < 4 := by
  unfold MJob.cls mopClass
  split <;> decide

section
variable {m : Mortar}

/-- With no job suspended the next is the first queued one of the lowest class. -/
theorem Mortar.next_queued {a b : List MJob} {j : MJob} (hs : m.saved = []) (hq : m.queue = a ++ j :: b)
    (ha : ∀ x ∈ a, j.cls < x.cls) (hb : ∀ x ∈ b, j.cls ≤ x.cls) : m.next = some (⟨j, true, none, none⟩, false) := by
  have lowest : (m.queue.map MJob.cls).foldl min 4 = j.cls := by
    refine foldl_min_eq (List.mem_map_of_mem (by rw [hq]; simp)) (List.forall_mem_map.mpr fun x hx => ?_) (Nat.le_of_lt j.cls_lt)
    rw [hq, List.mem_append, List.mem_cons] at hx
    obtain hx | rfl | hx := hx
    · exact Nat.le_of_lt (ha x hx)
    · exact Nat.le_refl _
    · exact hb x hx
  have first : m.queue.find? (fun x => x.cls == j.cls) = some j := by
    rw [hq, List.find?_append, List.find?_eq_none.mpr fun x hx => by simpa using Nat.ne_of_gt (ha x hx), Option.none_or]
    exact List.find?_cons_of_pos (beq_self_eq_true j.cls)
  rw [Mortar.next, hs]
  dsimp only [List.find?_nil]
  rw [List.map_nil, List.nil_append, lowest, first]
  rfl

/-- Of its class the job suspended longest comes first, and before every queued one. -/
theorem Mortar.next_saved {r : MRun} {rest : List MRun} (hs : m.saved = r :: rest) (hrest : ∀ x ∈ rest, r.job.cls ≤ x.job.cls)
    (hq : ∀ j ∈ m.queue, r.job.cls ≤ j.cls) : m.next = some (r, true) := by
  have lowest : ((m.saved.map fun r => r.job.cls) ++ m.queue.map MJob.cls).foldl min 4 = r.job.cls := by
    refine foldl_min_eq (by simp [hs]) (fun y hy => ?_) (Nat.le_of_lt r.job.cls_lt)
    rw [hs, List.mem_append, List.map_cons, List.mem_cons, List.mem_map, List.mem_map] at hy
    obtain (rfl | ⟨x, hx, rfl⟩) | ⟨j, hj, rfl⟩ := hy
    · exact Nat.le_refl _
    · exact hrest x hx
    · exact hq j hj
  have first : m.saved.find? (fun x => x.job.cls == r.job.cls) = some r := by
    rw [hs]
    exact List.find?_cons_of_pos (beq_self_eq_true r.job.cls)
  rw [Mortar.next, lowest, first]

theorem Mortar.start_queued {a b : List MJob} {j : MJob} (hs : m.saved = []) (hq : m.queue = a ++ j :: b)
    (ha : ∀ x ∈ a, j.cls < x.cls) (hb : ∀ x ∈ b, j.cls ≤ x.cls) : m.start = { m with
      running := some (if m.loaded j.op.toNat then ⟨j, true, none, none⟩ else ⟨j, false, some Code.mrtProgramUnsigned, none⟩)
      queue := a ++ b } := by
  have rest : m.queue.erase j = a ++ b := by
    rw [hq, List.erase_append_right _ fun hj => Nat.lt_irrefl _ (ha j hj), List.erase_cons_head]
  rw [Mortar.start, Mortar.next_queued hs hq ha hb]
  dsimp only
  rw [rest]

/-! ## What a slot holds after a store -/

/-- The words put at consecutive places are the words found there. -/
theorem foldl_put_range {α : Type} (base n : Nat) (val : Nat → α) (t : Tab α) {k : Nat} (hk : k < n) :
    ((List.range n).foldl (fun t k => Tab.put t (base + k) (val k)) t).get? (base + k) = some (val k) := by
  induction n with
  | zero => omega
  | succ n ih =>
    rw [List.range_succ, List.foldl_append, List.foldl_cons, List.foldl_nil]
    by_cases last : k = n
    · rw [last, Tab.get?_put_same]
    · rw [Tab.get?_put_ne _ (by omega), ih (by omega)]

/-- The words of a number spell it, up to their count. -/
theorem foldr_words {word : Nat → Nat} {n v : Nat} (h : ∀ k < n, word k = v / 2 ^ (64 * k) % 2 ^ 64) :
    (List.range n).foldr (fun k acc => word k + 2 ^ 64 * acc) 0 = v % 2 ^ (64 * n) := by
  induction n generalizing word v with
  | zero => rw [Nat.mul_zero, Nat.pow_zero, Nat.mod_one]; rfl
  | succ n ih =>
    have tail := ih (word := fun k => word (k + 1)) (v := v / 2 ^ 64) fun k hk => by
      rw [h (k + 1) (by omega), Nat.div_div_eq_div_mul, ← Nat.pow_add, Nat.mul_add_one, Nat.add_comm]
    rw [List.range_succ_eq_map, List.foldr_cons, List.foldr_map, tail, h 0 (Nat.succ_pos n), Nat.mul_add_one, Nat.add_comm (64 * n),
      Nat.pow_add, Nat.mod_mul, Nat.mul_zero, Nat.pow_zero, Nat.div_one]

/-- A value that fits its slot is the value read from it. -/
theorem Mortar.value_store {i v : Nat} (h : v < 2 ^ (64 * (m.slot i).len.toNat)) : (m.store i v).value i = v := by
  have words : ∀ k < (m.slot i).len.toNat, ((m.store i v).word ((m.slot i).base.toNat + k)).toNat = v / 2 ^ (64 * k) % 2 ^ 64 :=
    fun k hk => by
      rw [Mortar.word, Mortar.store, Tab.getD_eq, foldl_put_range _ _ (fun k => BitVec.ofNat 64 (v / 2 ^ (64 * k))) _ hk]
      exact BitVec.toNat_ofNat ..
  exact (foldr_words words).trans (Nat.mod_eq_of_lt h)

/-- A store leaves every word outside its slot. -/
theorem Mortar.store_word {i v w : Nat} (h : w < (m.slot i).base.toNat ∨ (m.slot i).base.toNat + (m.slot i).len.toNat ≤ w) :
    (m.store i v).word w = m.word w :=
  congrArg (Option.getD · 0) (foldl_put_get? (key := fun k => (m.slot i).base.toNat + k) _
    (fun k hk => by have := List.mem_range.mp hk; omega) m.mem)

/-! ## The end of a job (R334 to R337) -/

/-- Mortar after a job that passed its checks has written slot O, where it has a value for it. -/
def Mortar.written (m : Mortar) (n : Nat) (j : MJob) : Mortar :=
  (m.outcome j).2.elim (m.spoil n j) fun v => (m.spoil n j).store j.so.toNat v

/-- Slot O and the work slots apart, operand memory stays, and so does everything else. -/
theorem Mortar.written_eq (m : Mortar) (n : Nat) (j : MJob) : m.written n j = { m with mem := (m.written n j).mem } := by
  unfold Mortar.written
  cases (m.outcome j).2 <;> rfl

theorem Mortar.written_word {n w : Nat} {j : MJob} (h : ∀ i ∈ j.so.toNat :: j.works,
    w < (m.slot i).base.toNat ∨ (m.slot i).base.toNat + (m.slot i).len.toNat ≤ w) : (m.written n j).word w = m.word w := by
  obtain ⟨outside, works⟩ := List.forall_mem_cons.mp h
  have spoilt : (m.spoil n j).word w = m.word w := Mortar.spoil_word works
  unfold Mortar.written
  cases (m.outcome j).2 with
  | none => exact spoilt
  | some v => exact (Mortar.store_word (m := m.spoil n j) outside).trans spoilt

theorem Mortar.written_value {n v : Nat} {j : MJob} (ho : m.outcome j = (Code.ok, some v))
    (hv : v < 2 ^ (64 * (m.slot j.so.toNat).len.toNat)) : (m.written n j).value j.so.toNat = v := by
  rw [Mortar.written, ho]
  exact Mortar.value_store (m := m.spoil n j) hv

section
variable {r : MRun} (hr : m.running = some r) (hroom : m.results.length < 32) (n : Nat)
include hr hroom

/-- A job whose status is known already leaves its work slots spoiled. -/
theorem Mortar.endJob_failed {c : Byte} (hres : r.result = some c) : m.endJob n = { m.spoil n r.job with
    running := none
    results := m.results ++ [(r.job.tag, c)]
    jobs := wrapAdd m.jobs 1 } := by
  rw [Mortar.endJob, hr]
  dsimp only
  rw [hres]
  exact Mortar.finish_room _ _ hroom

theorem Mortar.endJob_passed (hres : r.result = none) : m.endJob n = { m.written n r.job with
    running := none
    results := m.results ++ [(r.job.tag, (m.outcome r.job).1)]
    jobs := wrapAdd m.jobs 1 } := by
  rw [Mortar.endJob, hr]
  dsimp only
  rw [hres, Mortar.written]
  cases (m.outcome r.job).2 <;> exact Mortar.finish_room _ _ hroom
end

theorem powGo_lt {q n b e acc : Nat} (hq : 0 < q) (ha : acc < q) : powGo q n b e acc < q := by
  induction n generalizing b e acc with
  | zero => exact ha
  | succ n ih =>
    refine ih ?_
    split
    · exact Nat.mod_lt _ hq
    · exact ha

theorem powMod_eq {q b e : Nat} (h : 1 < q) : powMod q b e = b ^ e % q := by
  have canonical : powMod q b e < q := powGo_lt (by omega) (Nat.mod_lt _ (by omega))
  rw [← powMod_mod, Nat.mod_eq_of_lt canonical]

/-- The sum, the product and the power modulo M (Table 19.2). -/
theorem Mortar.outcome_raw {j : MJob} {v : Nat} (h1 : 1 < m.value j.sm.toNat)
    (hv : (j.op = 0x10 ∧ v = (m.value j.sa.toNat + m.value j.sb.toNat) % m.value j.sm.toNat) ∨
      (j.op = 0x12 ∧ v = m.value j.sa.toNat * m.value j.sb.toNat % m.value j.sm.toNat) ∨
      (j.op = 0x14 ∧ v = m.value j.sa.toNat ^ m.value j.sb.toNat % m.value j.sm.toNat)) :
    m.outcome j = (Code.ok, some v) ∧ v < m.value j.sm.toNat := by
  have hn : 0 < m.value j.sm.toNat := by omega
  obtain ⟨hop, rfl⟩ | ⟨hop, rfl⟩ | ⟨hop, rfl⟩ := hv
  · exact ⟨by rw [Mortar.outcome, hop]; rfl, Nat.mod_lt _ hn⟩
  · exact ⟨by rw [Mortar.outcome, hop]; rfl, Nat.mod_lt _ hn⟩
  · exact ⟨by rw [Mortar.outcome, hop, ← powMod_eq h1]; rfl, Nat.mod_lt _ hn⟩
end

/-! ## Rows -/

section
variable {s : State} (hs : s.Specified)
include hs

theorem execMortarJobStart_starts {x : MRun × Bool} (hr : s.mortar.running = none) (hn : s.mortar.next = some x) :
    execMortarJobStart s = .next (s.updMortar Mortar.start) := by
  rw [execMortarJobStart, occurs_of hs (by rw [hr, hn]; rfl)]

variable {r : MRun} (hr : s.mortar.running = some r)
include hr

theorem execMortarCheckPhaseEnd_checks (hc : r.checking = true) : execMortarCheckPhaseEnd s = .next { s with mortar := { s.mortar with
    running := some { r with checking := false, result := s.mortar.checkPhase r.job } } } := by
  rw [execMortarCheckPhaseEnd, occurs_of hs (by rw [hr]; exact hc), State.updMortar, hr]
  rfl

theorem execMortarYieldPoint_yields (hy : s.mortar.canYield r = true) (hq : ∃ j ∈ s.mortar.queue, j.cls < r.job.cls) :
    execMortarYieldPoint s = .next { s with mortar := { s.mortar with
      running := none, saved := s.mortar.saved ++ [r], yields := wrapAdd s.mortar.yields 1 } } := by
  have lower : (s.mortar.queue.any fun j => decide (j.cls < r.job.cls)) = true := by simpa using hq
  rw [execMortarYieldPoint, occurs_of hs (by rw [hr]; exact hy), State.updMortar, hr]
  dsimp only
  rw [if_pos lower]

theorem execMortarYieldPoint_goes_on (hy : s.mortar.canYield r = true) (hq : ∀ j ∈ s.mortar.queue, r.job.cls ≤ j.cls) :
    execMortarYieldPoint s = .next s := by
  have none_lower : (s.mortar.queue.any fun j => decide (j.cls < r.job.cls)) = false := by simpa using hq
  rw [execMortarYieldPoint, occurs_of hs (by rw [hr]; exact hy), State.updMortar, hr]
  dsimp only
  rw [none_lower]
  rfl

theorem execMortarJobEnd_ends (hc : r.checking = false) (hroom : s.mortar.results.length < 32) :
    execMortarJobEnd s = .next (State.tick { s with mortar := s.mortar.endJob s.fresh }) := by
  rw [execMortarJobEnd, occurs_of hs (by rw [hr]; simp [hc, hroom])]
  rfl
end

/-- Settles O50: each event takes its row's one path, and what a job leaves is read off its end. -/
theorem mortarRuns : Obligations.MortarRuns := by
  intro s hs m
  refine ⟨fun a b j hr hsv hq ha hb => ?queued, fun r rest hr hsv hrest hq => ?resumes, fun r hr hc =>
    execMortarCheckPhaseEnd_checks hs hr hc, fun r hr hy => ⟨execMortarYieldPoint_yields hs hr hy,
      execMortarYieldPoint_goes_on hs hr hy⟩, fun r hr hc hroom => ⟨fun c hres => ?failed, fun hres => ?passed⟩⟩
  case queued =>
    refine (execMortarJobStart_starts hs hr (Mortar.next_queued hsv hq ha hb)).trans ?_
    rw [State.updMortar, Mortar.start_queued hsv hq ha hb]
  case resumes =>
    have next := Mortar.next_saved hsv hrest hq
    refine ⟨_, execMortarJobStart_starts hs hr next, ?_⟩
    rw [State.updMortar_mortar, Mortar.start, next]
    exact ⟨rfl, rfl⟩
  case failed => exact (execMortarJobEnd_ends hs hr hc hroom).trans (by rw [Mortar.endJob_failed hr hroom _ hres])
  case passed =>
    have ended := Mortar.endJob_passed hr hroom s.fresh hres
    refine ⟨_, execMortarJobEnd_ends hs hr hc hroom, ?_⟩
    rw [State.tick_mortar]
    dsimp only
    rw [ended]
    refine ⟨rfl, by rw [Mortar.written_eq], by rw [Mortar.written_eq], fun v hfit h1 hv => ?_, fun w hw => Mortar.written_word hw⟩
    obtain ⟨ho, hlt⟩ := Mortar.outcome_raw h1 hv
    exact ⟨Mortar.written_value ho (Nat.lt_of_lt_of_le hlt hfit), by rw [ho]⟩

end Sys2Proof.Machine
end

section
/-! Monitor units (R376 to R379): what a configuration write leaves of a unit, and what a sample makes of each unit that watches its
source. -/

namespace Sys2Proof.Machine

/-- A change of each place of a list in turn changes each of them once. -/
theorem foldl_vupd_get {α : Type} {n : Nat} (f : α → α) {l : List (Fin n)} (hl : l.Nodup) (v : Vector α n) (i : Fin n) :
    (l.foldl (fun v j => vupd v j f) v)[i] = if i ∈ l then f v[i] else v[i] := by
  induction l generalizing v with
  | nil => rfl
  | cons j l ih =>
    obtain ⟨hj, hl⟩ := List.nodup_cons.mp hl
    rw [List.foldl_cons, ih hl, vupd_get]
    by_cases hi : i = j
    · rw [if_pos hi, if_neg (hi ▸ hj), if_pos (hi ▸ List.mem_cons_self ..)]
    · rw [if_neg hi]
      simp only [List.mem_cons, hi, false_or]

/-! ## Configuration -/

theorem execMonCfgWrite_units {s : State} (hs : s.Specified) (hl : s.linkUp = true) (u : Fin 64) (reg : MonReg) (val : Word) :
    ∃ t : State, execMonCfgWrite u reg val s = .next t ∧ t.mon.units = vupd s.mon.units u fun x => { MonUnit.reset with
      cfga := if reg = .cfga then val &&& 0xE0FFFFFF else x.cfga
      cfgb := if reg = .cfgb then val else x.cfgb
      cfgc := if reg = .cfgc then val else x.cfgc } := by
  refine ⟨_, occurs_of hs hl, ?_⟩
  cases reg <;> rfl

/-! ## Samples -/

/-- What a sample makes of a unit: one that does not watch the source or is saturated stays. -/
def MonUnit.meets (x : MonUnit) (g : Grade) (src i v : Nat) : MonUnit :=
  if x.watches g src i = true ∧ x.sat = false then
    if x.full v then { x with sat := true, satLogged := true } else x.take v
  else x

/-- One unit in the pass of a sample over all units. -/
def State.meetSample (src i v : Nat) (s : State) (u : Fin 64) : State :=
  if s.mon.units[u].watches s.grade src i then s.monSample u v else s

theorem State.monSample_grade (s : State) (u : Fin 64) (v : Nat) : (s.monSample u v).grade = s.grade := by
  unfold State.monSample
  dsimp only
  repeat' split
  all_goals simp only [State.tick_grade, State.logEvt_grade]

theorem State.logEvt_units (s : State) (e : LogEvt) : (s.logEvt e).mon.units = s.mon.units := by rw [State.logEvt_mon]

theorem State.meetSample_grade (src i v : Nat) (s : State) (u : Fin 64) : (s.meetSample src i v u).grade = s.grade := by
  unfold State.meetSample
  split
  · exact State.monSample_grade ..
  · rfl

/-- A sample changes the unit that it meets. -/
theorem State.meetSample_units (src i v : Nat) (s : State) (u : Fin 64) :
    (s.meetSample src i v u).mon.units = vupd s.mon.units u fun x => x.meets s.grade src i v := by
  have stays (h : s.mon.units[u].meets s.grade src i v = s.mon.units[u]) :
      s.mon.units = vupd s.mon.units u fun x => x.meets s.grade src i v := (vupd_id s.mon.units u (f := fun x => x.meets s.grade src i v) h).symm
  unfold State.meetSample
  split
  case isFalse h => exact stays (if_neg fun hw => h hw.1)
  case isTrue h =>
    rw [State.monSample]
    dsimp only
    split
    case isTrue hsat => exact stays (if_neg fun hw => absurd hsat (by rw [hw.2]; exact Bool.false_ne_true))
    case isFalse hsat =>
      have takes : s.mon.units[u].meets s.grade src i v =
          if s.mon.units[u].full v then { s.mon.units[u] with sat := true, satLogged := true } else s.mon.units[u].take v :=
        if_pos ⟨h, Bool.eq_false_iff.mpr hsat⟩
      split
      case isTrue hfull =>
        have marked : vupd s.mon.units u (fun x => x.meets s.grade src i v) =
            vupd s.mon.units u fun y => { y with sat := true, satLogged := true } := by
          rw [vupd, takes, if_pos hfull]; rfl
        rw [marked]
        split
        · rfl
        · rw [State.tick_mon, State.logEvt_units]
      case isFalse hfull => rw [vupd, vupd, takes, if_neg hfull]

theorem State.foldl_meetSample_units (src i v : Nat) (l : List (Fin 64)) (s : State) :
    (l.foldl (State.meetSample src i v) s).mon.units =
      l.foldl (fun w u => vupd w u fun x => x.meets s.grade src i v) s.mon.units := by
  induction l generalizing s with
  | nil => rfl
  | cons u l ih => rw [List.foldl_cons, ih, State.meetSample_grade, State.meetSample_units]; rfl

theorem execMonitorSample_units {s : State} (hs : s.Specified) (hl : s.linkUp = true) {src i v : Nat}
    (hok : s.grade.srcOk src i = true) (hv : v < 2 ^ 32) :
    ∃ t : State, execMonitorSample src i v s = .next t ∧ ∀ u : Fin 64, t.mon.units[u] = s.mon.units[u].meets s.grade src i v := by
  have whole : min v 0xFFFFFFFF = v := Nat.min_eq_left (by omega)
  refine ⟨(List.finRange 64).foldl (State.meetSample src i v) s, ?_, fun u => ?_⟩
  · rw [execMonitorSample, occurs_of hs (by rw [hl, hok]; rfl), whole]
    rfl
  · rw [State.foldl_meetSample_units, foldl_vupd_get _ (List.nodup_finRange 64), if_pos (List.mem_finRange u)]

/-! ## A unit that takes a sample -/

theorem MonUnit.bin_lt (x : MonUnit) (v : Nat) : x.bin v < 32 := by
  unfold MonUnit.bin
  repeat' split
  all_goals omega

/-- The bin of a sample, as Table 22.1's histogram numbers it (R377). -/
theorem MonUnit.bin_eq (x : MonUnit) (v : Nat) : x.bin v =
    if x.log2 then (if v < 2 ^ x.lo then 0 else min 31 (Nat.log2 v - x.lo + 1))
    else (if v < x.lo then 0 else min 31 ((v - x.lo) / x.cfgc.toNat)) := by
  unfold MonUnit.bin
  split
  · split
    · rfl
    · next h =>
      have reaches : x.lo ≤ Nat.log2 v := by
        rw [Nat.le_log2 (by have := Nat.two_pow_pos x.lo; omega)]
        omega
      rw [show Nat.log2 v + 1 - x.lo = Nat.log2 v - x.lo + 1 by omega]
  · rfl

/-- A unit that is not full counts a sample without a carry out of any of its counts. -/
theorem MonUnit.take_counts {x : MonUnit} {v : Nat} (hv : v < 2 ^ 32) (hfull : x.full v = false) :
    (x.take v).mn.toNat = min x.mn.toNat v ∧ (x.take v).mx.toNat = max x.mx.toNat v ∧
      (x.take v).count.toNat = x.count.toNat + 1 ∧ (x.take v).sum.toNat = x.sum.toNat + v ∧
      ∀ k : Fin 32, (x.take v).bins[k].toNat = if k.val = x.bin v then x.bins[k].toNat + 1 else x.bins[k].toNat := by
  simp only [MonUnit.full, Bool.or_eq_false_iff, decide_eq_false_iff_not, not_or, beq_eq_false_iff_ne] at hfull
  obtain ⟨⟨hcount, hsum⟩, hbin⟩ := hfull
  have bounds := And.intro x.mn.isLt (And.intro x.mx.isLt (And.intro x.count.isLt x.sum.isLt))
  refine ⟨?_, ?_, ?_, ?_, fun k => ?_⟩
  · exact (BitVec.toNat_ofNat ..).trans (Nat.mod_eq_of_lt (by omega))
  · exact (BitVec.toNat_ofNat ..).trans (Nat.mod_eq_of_lt (by omega))
  · exact (BitVec.toNat_add ..).trans (Nat.mod_eq_of_lt (by simp only [BitVec.reduceToNat] ; omega))
  · rw [MonUnit.take, BitVec.toNat_add, BitVec.toNat_ofNat]
    omega
  · let b : Fin 32 := ⟨x.bin v, x.bin_lt v⟩
    have bin : (x.take v).bins = vupd x.bins b fun y => y + 1 := vupdN_val x.bins b fun y => y + 1
    have room : x.bins[b] ≠ 0xFFFFFFFF := by
      simpa [List.getD_eq_getElem?_getD, b, x.bin_lt v] using hbin
    rw [bin, vupd_get]
    by_cases hk : k = b
    · rw [if_pos hk, if_pos (congrArg Fin.val hk), hk]
      have carry : x.bins[b].toNat + 1 < 2 ^ 32 := by
        have := x.bins[b].isLt
        have : x.bins[b].toNat ≠ 2 ^ 32 - 1 := fun h => room (BitVec.eq_of_toNat_eq h)
        omega
      exact (BitVec.toNat_add ..).trans (Nat.mod_eq_of_lt carry)
    · rw [if_neg hk, if_neg fun h => hk (Fin.ext h)]

/-- Settles O53: a unit meets a sample by itself, and one that takes it has room in every count. -/
theorem monitorUnits : Obligations.MonitorUnits := by
  intro s hs hl
  refine ⟨fun u reg val => ?config, fun src i v hok hv => ?sample⟩
  case config =>
    intro x
    obtain ⟨t, ht, units⟩ := execMonCfgWrite_units hs hl u reg val
    have unit := (congrArg (fun w : Vector MonUnit 64 => w[u]) units).trans (vupd_same ..)
    dsimp only at unit
    refine ⟨t, ht, unit, ?_⟩
    rw [unit]
    exact ⟨rfl, rfl, rfl, rfl, fun k => Vector.getElem_replicate .., fun u' hu => by rw [units, vupd_ne _ hu]⟩
  case sample =>
    obtain ⟨t, ht, units⟩ := execMonitorSample_units hs hl hok hv
    refine ⟨t, ht, fun u => ?_⟩
    intro x y bin
    refine ⟨fun h => ?_, fun hw hsat hfull => ?_⟩
    · exact (units u).trans (if_neg (by rintro ⟨hw, hsat⟩; simp_all [x]))
    · have taken : y = x.take v := (units u).trans ((if_pos ⟨hw, hsat⟩).trans (if_neg (by rw [hfull]; exact Bool.false_ne_true)))
      obtain ⟨hmn, hmx, hcount, hsum, hbins⟩ := MonUnit.take_counts hv hfull
      rw [taken]
      exact ⟨hmn, hmx, hcount, hsum, fun k => by rw [hbins, MonUnit.bin_eq], rfl, rfl, rfl, hsat⟩

end Sys2Proof.Machine
end

section
/-! The refusals that every command of the mailboxes shares (R255, R286, R347): each command of Table 16.7 is one row with its own fields
and owner, and the row refuses an entry before it runs the command. -/

namespace Sys2Proof.Machine

/-- Every command of Table 16.7 takes its entry by the shared row. -/
theorem exec_mailboxRows (dma : HostRead) (path : PathEvent) (objs : List HostRead) (f : Fin 64) (s : State) :
    ∀ x ∈ mailboxRows dma path objs, ∃ run, exec (x.2.2.2.2 f) s = cmdRow f x.1 x.2.1 x.2.2.1 x.2.2.2.1 run s := by
  simp only [mailboxRows, List.cons_append, List.nil_append, List.forall_mem_cons]
  exact ⟨⟨_, execDeviceInfo.eq_def ..⟩, ⟨_, execFuncConfig.eq_def ..⟩, ⟨_, execPowerCap.eq_def ..⟩, ⟨_, execResetWarm.eq_def ..⟩,
    ⟨_, execResetCold.eq_def ..⟩, ⟨_, execStationReset.eq_def ..⟩, ⟨_, execMemMargin.eq_def ..⟩, ⟨_, execMonSnapshot.eq_def ..⟩,
    ⟨_, execSessionOpen.eq_def ..⟩, ⟨_, execSessionClose.eq_def ..⟩, ⟨_, execSessionModlist.eq_def ..⟩,
    ⟨_, execSessionQuery.eq_def ..⟩, ⟨_, execKeysetRegister.eq_def ..⟩, ⟨_, execKeysetVerify.eq_def ..⟩,
    ⟨_, execKeysetActivate.eq_def ..⟩, ⟨_, execKeysetRetire.eq_def ..⟩, ⟨_, execBufAlloc.eq_def ..⟩, ⟨_, execBufFree.eq_def ..⟩,
    ⟨_, execBufCommit.eq_def ..⟩, ⟨_, execBufQuery.eq_def ..⟩, ⟨_, execBufMap.eq_def ..⟩, ⟨_, execBufUnmap.eq_def ..⟩,
    ⟨_, execBufDma.eq_def ..⟩, ⟨_, execJobSubmit.eq_def ..⟩, ⟨_, execJobAbort.eq_def ..⟩, ⟨_, execJobQuery.eq_def ..⟩,
    ⟨_, execFwStage.eq_def ..⟩, ⟨_, execFwActivate.eq_def ..⟩, ⟨_, execAttest.eq_def ..⟩, ⟨_, execFabConfig.eq_def ..⟩,
    ⟨_, execFabStatus.eq_def ..⟩, ⟨_, execFabExport.eq_def ..⟩, ⟨_, execFabUnexport.eq_def ..⟩, List.forall_mem_nil _⟩

/-- The row's test of recovery (R347). -/
theorem recovery_bars_iff {s : State} {op : Nat} :
    (s.boot.recovery && !([0x01, 0x05, 0x50].contains op)) = true ↔ s.boot.recovery = true ∧ op ∉ recoveryOps := by
  simp [recoveryOps]

/-- The row's test of the session that an entry names (R255). -/
theorem State.owns_iff {s : State} {f : Fin 64} {e : ReqEntry} :
    (decide (reqSession e.bytes < 16384) && (s.session (reqSession e.bytes)).body.state != .free &&
      ((s.session (reqSession e.bytes)).body.func == f || f == 0)) = true ↔ s.Owns f e := by
  simp [State.Owns, and_assoc]

section
variable {s : State} {f : Fin 64} {op : Nat} {fields : List (Nat × Nat)} {pf owner : Bool} {run : State → ReqRef → List Byte → State}
  {e : ReqEntry} (hs : s.Specified) (he : s.heads f op = some e)
include hs he

theorem cmdRow_recovery_refused (hrec : s.boot.recovery = true) (hop : op ∉ recoveryOps) :
    cmdRow f op fields pf owner run s = .next (((s.popReq f).recoveryRefuse (e.ref f)).settle f) := by
  rw [cmdRow, occurs_of hs (by rw [he]; rfl), he]
  dsimp only
  rw [if_pos (recovery_bars_iff.mpr ⟨hrec, hop⟩)]

theorem cmdRow_entry_refused (hrec : s.boot.recovery = false ∨ op ∈ recoveryOps)
    (hbad : entryOk fields e.bytes = false ∨ (pf = true ∧ f ≠ 0) ∨ (owner = true ∧ ¬ s.Owns f e)) :
    cmdRow f op fields pf owner run s = .next (((s.popReq f).reply (e.ref f) Code.badOperand).settle f) := by
  have taken : ¬(s.boot.recovery = true ∧ op ∉ recoveryOps) :=
    fun h => hrec.elim (fun hr => absurd h.1 (ne_true_of_eq_false hr)) h.2
  rw [cmdRow, occurs_of hs (by rw [he]; rfl), he]
  dsimp only
  rw [if_neg (mt recovery_bars_iff.mp taken), if_pos]
  obtain hentry | ⟨hp, hf⟩ | ⟨ho, hown⟩ := hbad
  · rw [hentry]; rfl
  · rw [hp, bne_iff_ne.mpr hf, Bool.and_self, Bool.or_true, Bool.true_or]
  · rw [ho, Bool.eq_false_iff.mpr (mt State.owns_iff.mp hown), Bool.not_false, Bool.and_self, Bool.or_true]
end

/-- Settles O30: the row tests recovery first, and then the entry, the function and the session. -/
theorem requestsRefused : Obligations.RequestsRefused := by
  intro dma path objs x hx f s e hs he
  obtain ⟨run, row⟩ := exec_mailboxRows dma path objs f s x hx
  rw [row]
  exact ⟨cmdRow_recovery_refused hs he, cmdRow_entry_refused hs he⟩

end Sys2Proof.Machine
end

section
/-! The queries of the mailboxes (R253, R287, R291, Tables 15.3, 16.7 and 16.8): the one reply of each. -/

namespace Sys2Proof.Machine

section
variable {s : State} {f : Fin 64} {e : ReqEntry}

/-- A command that any function may send and that names no session. -/
theorem anyRow_of {op : Nat} {fields : List (Nat × Nat)} {run : State → ReqRef → List Byte → State} (ht : s.Takes f op fields e) :
    cmdRow f op fields false false run s = .next ((run (s.popReq f) (e.ref f) e.bytes).settle f) :=
  cmdRow_of ht nofun nofun

theorem execDeviceInfo_replies (ht : s.Takes f 0x01 [] e) : execDeviceInfo f s =
    .next (((s.popReq f).reply (e.ref f) (if s.boot.cfgdef then Code.cfgDefaulted else Code.ok) ((s.popReq f).info f)).settle f) := by
  rw [execDeviceInfo, anyRow_of ht]
  rfl

theorem execSessionQuery_replies (ht : s.Takes f 0x13 [] e) (ho : s.Owns f e) :
    let x := s.session (reqSession e.bytes)
    execSessionQuery f s = .next (((s.popReq f).reply (e.ref f) Code.ok
      (x.body.bytes ++ natLe 2 x.jobs ++ zeros 2 ++ natLe 4 x.stale.toNat)).settle f) := by
  rw [execSessionQuery, ownerRow_of ht ho]
  rfl

/-- The reply to BUF_QUERY: CV, the length, and where the two versions are mapped; all ones where they are not. -/
def Buffer.report (x : Buffer) : List Byte :=
  natLe 1 (b2n x.cv) ++ zeros 7 ++ natLe 8 x.len ++ natLe 8 ((x.map.map Prod.snd).getD (2 ^ 64 - 1)) ++
    natLe 8 ((x.map.map fun m => m.2 + x.len).getD (2 ^ 64 - 1))

theorem execBufQuery_replies {x : Buffer} (ht : s.Takes f 0x33 [(0, 4)] e) (ho : s.Owns f e) (hx : s.bufNamed e.bytes = some x) :
    execBufQuery f s = .next (((s.popReq f).reply (e.ref f) Code.ok x.report).settle f) := by
  rw [execBufQuery, ownerRow_of ht ho, show (s.popReq f).bufNamed e.bytes = some x from hx]
  rfl

theorem execJobQuery_replies {j : Nat} {x : Job} (ht : s.Takes f 0x42 [(0, 4)] e) (ho : s.Owns f e)
    (hx : s.jobNamed (pay e.bytes 0 4) (reqSession e.bytes) = some (j, x)) :
    execJobQuery f s = .next (((s.popReq f).reply (e.ref f) Code.ok (natLe 4 x.word.toNat)).settle f) := by
  rw [execJobQuery, ownerRow_of ht ho, show (s.popReq f).jobNamed (pay e.bytes 0 4) (reqSession e.bytes) = some (j, x) from hx]

theorem execFabStatus_replies {p : Fin 14} (ht : s.Takes f 0x61 [(0, 1)] e) (hf : f = 0) (hp : pay e.bytes 0 1 = p.val)
    (hpres : s.portPresent p = true) :
    execFabStatus f s = .next (((s.popReq f).reply (e.ref f) Code.ok s.fab.ports[p].status).settle f) := by
  have present : (s.popReq f).portPresent p = true := hpres
  rw [execFabStatus, pfRow_of ht hf]
  simp only [hp, p.isLt, dite_true, Fin.eta, present, if_true]
  rfl
end

/-- Settles O31: each query is answered by its row's reply. -/
theorem queriesAnswered : Obligations.QueriesAnswered := by
  intro f s e r b u
  refine ⟨execDeviceInfo_replies, execSessionQuery_replies, fun x ht ho hx => ⟨fun g w hm => ?mapped, fun hm => ?unmapped⟩,
    fun j x ht ho hx => execJobQuery_replies ht ho hx, fun p ht hf hp hpres => execFabStatus_replies ht hf hp hpres⟩
  case mapped =>
    refine (execBufQuery_replies ht ho hx).trans ?_
    rw [Buffer.report, hm]
    rfl
  case unmapped =>
    refine (execBufQuery_replies ht ho hx).trans ?_
    rw [Buffer.report, hm]
    rfl

end Sys2Proof.Machine
end

section
/-! The host's window into module memory (R207, R213, R276, R291): an access within one version of a mapped buffer is one range of module
memory, and a write that meets no poison puts its bytes there unit by unit. -/

namespace Sys2Proof.Machine

/-! ## A write unit by unit -/

/-- One unit of a write through BAR2: the part of the bytes that falls into it. -/
def State.barUnit (ma : Nat) (bytes : List Byte) (s : State) (u : Nat) : State :=
  let lo := max ma (u * 64)
  let hi := min (ma + bytes.length) (u * 64 + 64)
  let part := slice bytes (lo - ma) (hi - lo)
  if part.length < 64 ∧ s.mem.poison.contains u = true then s.poisonSeen u else s.memPut lo part

theorem State.barWrite_eq (s : State) (ma : Nat) (bytes : List Byte) :
    s.barWrite ma bytes = (unitsOf ma bytes.length).foldl (State.barUnit ma bytes) s := rfl

theorem mem_unitsOf {ma len u : Nat} : u ∈ unitsOf ma len ↔ 0 < len ∧ ma / 64 ≤ u ∧ u ≤ (ma + len - 1) / 64 := by
  unfold unitsOf
  split
  · simp only [List.not_mem_nil, false_iff]
    omega
  · simp only [List.mem_map, List.mem_range]
    refine ⟨fun ⟨i, hi, hu⟩ => by omega, fun h => ⟨u - ma / 64, by omega, by omega⟩⟩

theorem length_slice {l : List Byte} {off n : Nat} (h : off + n ≤ l.length) : (slice l off n).length = n := by
  rw [slice, List.length_take, List.length_drop]
  omega

theorem getD_slice {l : List Byte} {off n k : Nat} (hk : k < n) : (slice l off n).getD k 0 = l.getD (off + k) 0 := by
  rw [slice, List.getD_eq_getElem?_getD, List.getD_eq_getElem?_getD, List.getElem?_take_of_lt hk, List.getElem?_drop]

theorem State.memPut_poison_sub (s : State) (ma : Nat) (bytes : List Byte) : ∀ u ∈ (s.memPut ma bytes).mem.poison, u ∈ s.mem.poison :=
  fun _ hu => (List.mem_filter.mp hu).1

section
variable {s : State} {ma : Nat} {bytes : List Byte}

/-- What one unit of a write that meets no poison leaves of memory. -/
theorem State.barUnit_writes {u : Nat} (hu : u ∈ unitsOf ma bytes.length) (hp : u ∉ s.mem.poison) (hwf : s.mem.data.wf = true) :
    (s.barUnit ma bytes u).mem.data.wf = true ∧ (∀ v ∈ (s.barUnit ma bytes u).mem.poison, v ∈ s.mem.poison) ∧
      ∀ a, (s.barUnit ma bytes u).mem.data.read a =
        if (ma ≤ a ∧ a < ma + bytes.length) ∧ a / 64 = u then bytes.getD (a - ma) 0 else s.mem.data.read a := by
  obtain ⟨hlen, hlow, hhigh⟩ := mem_unitsOf.mp hu
  have written : s.barUnit ma bytes u = s.memPut (max ma (u * 64))
      (slice bytes (max ma (u * 64) - ma) (min (ma + bytes.length) (u * 64 + 64) - max ma (u * 64))) :=
    if_neg fun h => hp (List.contains_iff_mem.mp h.2)
  rw [written]
  generalize hlo : max ma (u * 64) = lo
  generalize hn : min (ma + bytes.length) (u * 64 + 64) - lo = n
  have part : (slice bytes (lo - ma) n).length = n := length_slice (by omega)
  refine ⟨Mem.wf_writeN _ _ hwf, State.memPut_poison_sub s lo _, fun a => ?_⟩
  change (s.mem.data.writeN lo (slice bytes (lo - ma) n)).read a = _
  split
  · next h =>
    have inside := Mem.read_writeN_in lo (slice bytes (lo - ma) n) hwf (k := a - lo) (by omega)
    rw [show lo + (a - lo) = a by omega, getD_slice (by omega), show lo - ma + (a - lo) = a - ma by omega] at inside
    exact inside
  · exact Mem.read_writeN_out _ (by omega)

/-- The units of a write that meets no poison take their parts of the bytes. -/
theorem State.foldl_barUnit_writes (us : List Nat) (hu : ∀ u ∈ us, u ∈ unitsOf ma bytes.length) (hp : ∀ u ∈ us, u ∉ s.mem.poison)
    (hwf : s.mem.data.wf = true) (a : Nat) : (us.foldl (State.barUnit ma bytes) s).mem.data.read a =
      if (ma ≤ a ∧ a < ma + bytes.length) ∧ a / 64 ∈ us then bytes.getD (a - ma) 0 else s.mem.data.read a := by
  induction us generalizing s with
  | nil => rw [if_neg fun h => List.not_mem_nil h.2]; rfl
  | cons u us ih =>
    obtain ⟨hu1, hus⟩ := List.forall_mem_cons.mp hu
    obtain ⟨hp1, hps⟩ := List.forall_mem_cons.mp hp
    obtain ⟨wf, poison, read⟩ := State.barUnit_writes hu1 hp1 hwf
    rw [List.foldl_cons, ih hus (fun v hv hmem => hps v hv (poison v hmem)) wf, read]
    by_cases hin : ma ≤ a ∧ a < ma + bytes.length
    · by_cases hau : a / 64 = u
      · simp [hin, hau]
      · simp [hin, hau]
    · simp only [hin, false_and, if_false]

/-- A write through BAR2 that meets no poison leaves its bytes in their place and no other changed. -/
theorem State.barWrite_read (hp : s.poisonIn ma bytes.length = []) (hwf : s.mem.data.wf = true) (a : Nat) :
    (s.barWrite ma bytes).mem.data.read a =
      if ma ≤ a ∧ a < ma + bytes.length then bytes.getD (a - ma) 0 else s.mem.data.read a := by
  have clean : ∀ u ∈ unitsOf ma bytes.length, u ∉ s.mem.poison := fun u hu hmem => by
    have h := List.filter_eq_nil_iff.mp hp u hu
    rw [List.contains_iff_mem.mpr hmem] at h
    exact h rfl
  have touched : (ma ≤ a ∧ a < ma + bytes.length) ∧ a / 64 ∈ unitsOf ma bytes.length ↔ ma ≤ a ∧ a < ma + bytes.length :=
    and_iff_left_of_imp fun h => mem_unitsOf.mpr (by omega)
  rw [State.barWrite_eq, State.foldl_barUnit_writes _ (fun _ h => h) clean hwf, if_congr touched rfl rfl]
end

/-! ## Accesses -/

/-- A range within one version is one piece of module memory. -/
theorem Buffer.pieces_first {b : Buffer} {o len : Nat} (hlen : 0 < len) (h : o + len ≤ b.len) : b.pieces o len = [(b.v0 + o, len)] := by
  rw [Buffer.pieces, show min len (b.len - o) = len by omega, if_neg (by omega), if_pos rfl, List.append_nil]

theorem Buffer.pieces_none (b : Buffer) (o : Nat) : b.pieces o 0 = [] := by
  rw [Buffer.pieces, Nat.zero_min]
  rfl

/-- Before memory is ready nothing is mapped. -/
theorem State.unmapped {s : State} {f : Fin 64} {off n : Nat} (h : s.mem.ready = false ∨ s.barMap f off n = none) :
    (if s.mem.ready then s.barMap f off n else none) = none := by
  obtain h | h := h <;> rw [h]
  · rfl
  · exact ite_self _

section
variable {s : State} {f : Fin 64} {off len : Nat} (hs : s.Specified) (hl : s.linkUp = true)
include hs hl

theorem execBar2Access_unmapped_read (h : s.mem.ready = false ∨ s.barMap f off len = none) :
    execBar2Access f off len none s = .next (s.toHost (.cplUR f)) := by
  rw [execBar2Access, occurs_of hs hl]
  dsimp only
  rw [State.unmapped h]

theorem execBar2Access_unmapped_write (len : Nat) {bytes : List Byte} (h : s.mem.ready = false ∨ s.barMap f off bytes.length = none) :
    execBar2Access f off len (some bytes) s = .next s := by
  rw [execBar2Access, occurs_of hs hl]
  dsimp only
  rw [State.unmapped h]

variable {b : Buffer} {o : Nat} (hr : s.mem.ready = true)
include hr

theorem execBar2Access_reads (hm : s.barMap f off len = some (b, o)) (hlen : 0 < len) (hfit : o + len ≤ b.len)
    (hp : s.poisonIn (b.v0 + o) len = []) :
    execBar2Access f off len none s = .next (s.toHost (.cplData f (s.memBytes (b.v0 + o) len))) := by
  rw [execBar2Access, occurs_of hs hl]
  dsimp only
  rw [if_pos hr, hm]
  dsimp only
  rw [Buffer.pieces_first hlen hfit, List.foldl_cons, List.foldl_nil]
  dsimp only
  rw [State.memGet_clean hp]
  rfl

theorem execBar2Access_writes (len : Nat) {bytes : List Byte} (hm : s.barMap f off bytes.length = some (b, o)) (hfit : o + bytes.length ≤ b.len) :
    execBar2Access f off len (some bytes) s = .next (s.barWrite (b.v0 + o) bytes) := by
  rw [execBar2Access, occurs_of hs hl]
  dsimp only
  rw [if_pos hr, hm]
  dsimp only
  obtain rfl | hne := eq_or_ne bytes []
  · rw [List.length_nil, Buffer.pieces_none]
    rfl
  · rw [Buffer.pieces_first (List.length_pos_iff.mpr hne) hfit, List.foldl_cons, List.foldl_nil, List.take_length]
end

/-- Settles O27: an access is one path by its mapping, and the bytes of a write are read back by their units. -/
theorem hostWindow : Obligations.HostWindow := by
  intro f off len s hs hl
  refine ⟨execBar2Access_unmapped_read hs hl, fun b => execBar2Access_unmapped_write hs hl len,
    fun b o hr hm hlen hfit hp => execBar2Access_reads hs hl hr hm hlen hfit hp, fun b o bytes hr hm hfit hp hwf =>
      ⟨_, execBar2Access_writes hs hl hr len hm hfit, fun k hk => ?written, fun a ha => ?kept, State.barWrite_keeps.same .hostOut (by decide)⟩⟩
  case written => rw [State.barWrite_read hp hwf, if_pos (by omega), Nat.add_sub_cancel_left]
  case kept => rw [State.barWrite_read hp hwf, if_neg (by omega)]

end Sys2Proof.Machine
end

section
/-! The commands on buffers and exports (R259 to R262, R291, R310): the one path of each whose checks pass, where the area of a buffer and
the number of an exported range are free (log entry 10), and the bytes that BUF_DMA moves. -/

namespace Sys2Proof.Machine

/-! ## Numbers that are not in use -/

/-- One of the first numbers, one more than are in use, is not in use. -/
theorem exists_unused (used : List Nat) : ∃ i, (List.range (used.length + 1)).find? (fun i => !used.contains i) = some i := by
  rw [← Option.isSome_iff_exists, List.find?_isSome]
  by_contra! h
  have all_used : List.range (used.length + 1) ⊆ used := fun i hi => by simpa using h i hi
  have := (List.nodup_range.subperm all_used).length_le
  rw [List.length_range] at this
  omega

section
variable (s : State) (used : List Nat) (w : Nat)

/-- A new number is drawn freely, and where it is in use is the lowest that is not. -/
theorem State.newId_cases :
    (s.newId used w = Config.freeNat s.fresh % 2 ^ w ∧ s.newId used w ∉ used) ∨
      (s.newId used w ≤ used.length ∧ s.newId used w ∉ used) := by
  unfold State.newId
  dsimp only
  split
  · obtain ⟨i, hi⟩ := exists_unused used
    have below := List.mem_range.mp (List.mem_of_find?_eq_some hi)
    have unused := List.find?_some hi
    rw [hi]
    exact .inr ⟨Nat.lt_succ_iff.mp below, by simpa using unused⟩
  · next h => exact .inl ⟨rfl, fun hmem => h (List.contains_iff_mem.mpr hmem)⟩

theorem State.newId_unused : s.newId used w ∉ used := (s.newId_cases used w).elim And.right And.right

variable {used w} in
theorem State.newId_lt (h : used.length < 2 ^ w) : s.newId used w < 2 ^ w := by
  obtain ⟨hn, _⟩ | ⟨hn, _⟩ := s.newId_cases used w
  · rw [hn]
    exact Nat.mod_lt _ (Nat.two_pow_pos w)
  · exact Nat.lt_of_le_of_lt hn h
end

/-- A number that no entry of a table has finds none. -/
theorem Tab.get?_unlisted {α : Type} {t : Tab α} {n : Nat} (h : n ∉ t.map Prod.fst) : t.get? n = none := by
  cases hn : t.get? n with
  | none => rfl
  | some x => exact absurd (List.mem_map_of_mem (Tab.mem_of_get? hn)) h

/-! ## BUF_ALLOC -/

section
variable {s : State} {ses rgn len v0 v1 : Nat} {rg : Region}

/-- Both versions of a new buffer are zeroed. -/
def State.zeroBoth (s : State) (v0 v1 len : Nat) : State := (s.tick.tick.memZero v0 len).memZero v1 len

theorem State.zeroBoth_read (s : State) (v0 v1 len a : Nat) : (s.zeroBoth v0 v1 len).mem.data.read a =
    if (a < v0 ∨ v0 + len ≤ a) ∧ (a < v1 ∨ v1 + len ≤ a) then s.mem.data.read a else 0 := by
  change ((s.mem.data.zeroRange v0 len).zeroRange v1 len).read a = _
  rw [Mem.read_zeroRange, Mem.read_zeroRange]
  by_cases h1 : a < v1 ∨ v1 + len ≤ a
  · simp only [h1, if_true, and_true]
  · simp only [h1, if_false, and_false]

/-- With room for both versions, and the quota kept, the buffer is made under a number that is not in use. -/
theorem State.bufAlloc_makes (r : ReqRef) (hq : s.pastQuota (s.session ses).body.func len = false)
    (h0 : s.areaIn rg [] 4096 len = some v0) (h1 : s.tick.areaIn rg [(v0, len)] 4096 len = some v1) :
    ∃ n x, s.crown.buffers.get? n = none ∧ (x.ses, x.len, x.v0, x.v1, x.cv) = (ses, len, v0, v1, false) ∧
      s.bufAlloc r ses rgn len rg = ({ s.zeroBoth v0 v1 len with
        crown := { s.crown with buffers := s.crown.buffers.put n x } }.reply r Code.ok (natLe 4 n)).tick := by
  refine ⟨(s.zeroBoth v0 v1 len).newId (s.crown.buffers.map Prod.fst) 32, ⟨ses, ⟨rgn % 16, Nat.mod_lt _ (by decide)⟩, len, v0, v1,
    false, 0, 0, none⟩, Tab.get?_unlisted ((s.zeroBoth v0 v1 len).newId_unused _ _), rfl, ?_⟩
  rw [State.bufAlloc, hq, if_neg Bool.false_ne_true, h0]
  dsimp only
  rw [h1]
  rfl
end

/-! ## The commands -/

section
variable {s : State} {f : Fin 64} {e : ReqEntry} (ho : s.Owns f e)
include ho

theorem execBufAlloc_allocates {rg : Region} (ht : s.Takes f 0x30 [(0, 1), (8, 8)] e)
    (hrg : s.mem.regions.toList[pay e.bytes 0 1]? = some rg) (hv : rg.valid = true) (hal : pay e.bytes 8 8 % 4096 = 0)
    (hne : pay e.bytes 8 8 ≠ 0) : execBufAlloc f s =
      .next (((s.popReq f).bufAlloc (e.ref f) (reqSession e.bytes) (pay e.bytes 0 1) (pay e.bytes 8 8) rg).settle f) := by
  have region : (s.popReq f).mem.regions.toList[pay e.bytes 0 1]?.filter (·.valid) = some rg := by
    rw [State.popReq_mem, hrg, Option.filter_some, if_pos hv]
  rw [execBufAlloc, ownerRow_of ht ho, region]
  dsimp only
  rw [if_neg (by omega)]

variable {x : Buffer}

theorem execBufFree_frees (ht : s.Takes f 0x31 [(0, 4)] e) (hx : s.bufNamed e.bytes = some x)
    (hjob : s.bufInJob (pay e.bytes 0 4) = false) (hexp : s.exported (pay e.bytes 0 4) = false) :
    execBufFree f s = .next (({ s.popReq f with crown := { (s.popReq f).crown with
      buffers := (s.popReq f).crown.buffers.del (pay e.bytes 0 4) } }.reply (e.ref f) Code.ok).settle f) := by
  rw [execBufFree, ownerRow_of ht ho, show (s.popReq f).bufNamed e.bytes = some x from hx]
  dsimp only
  rw [show (s.popReq f).bufInJob _ = false from hjob, show (s.popReq f).exported _ = false from hexp]
  rfl

theorem execBufCommit_flips (ht : s.Takes f 0x32 [(0, 4)] e) (hx : s.bufNamed e.bytes = some x)
    (hbusy : s.bufBusy (pay e.bytes 0 4) = false) :
    execBufCommit f s = .next ((((s.popReq f).updBuf (pay e.bytes 0 4) fun y => { y with cv := !y.cv }).reply (e.ref f) Code.ok
      (natLe 1 (b2n !x.cv))).settle f) := by
  rw [execBufCommit, ownerRow_of ht ho, show (s.popReq f).bufNamed e.bytes = some x from hx]
  dsimp only
  rw [show (s.popReq f).bufBusy _ = false from hbusy]
  rfl

theorem execBufMap_maps (ht : s.Takes f 0x34 [(0, 4), (8, 8)] e) (hx : s.bufNamed e.bytes = some x)
    (hok : s.mapOk f (pay e.bytes 0 4) (pay e.bytes 8 8) x.len = true) :
    execBufMap f s = .next ((((s.popReq f).updBuf (pay e.bytes 0 4) fun y => { y with map := some (f, pay e.bytes 8 8) }).reply
      (e.ref f) Code.ok).settle f) := by
  rw [execBufMap, ownerRow_of ht ho, show (s.popReq f).bufNamed e.bytes = some x from hx]
  dsimp only
  rw [show (s.popReq f).mapOk (e.ref f).f _ _ _ = true from hok]
  rfl

theorem execBufUnmap_unmaps (ht : s.Takes f 0x35 [(0, 4)] e) (hx : s.bufNamed e.bytes = some x) :
    execBufUnmap f s =
      .next ((((s.popReq f).updBuf (pay e.bytes 0 4) fun y => { y with map := none }).reply (e.ref f) Code.ok).settle f) := by
  rw [execBufUnmap, ownerRow_of ht ho, show (s.popReq f).bufNamed e.bytes = some x from hx]

theorem execFabExport_exports (ht : s.Takes f 0x62 [(0, 4), (4, 2)] e) (hx : s.bufNamed e.bytes = some x)
    (hpeer : pay e.bytes 4 2 < 1024) (hroom : s.crown.exports.length < 65536) :
    ∃ n < 65536, execFabExport f s = .next ((({ s.popReq f with crown := { (s.popReq f).crown with
      exports := s.crown.exports.put n ⟨pay e.bytes 0 4, BitVec.ofNat 10 (pay e.bytes 4 2)⟩ } }.reply (e.ref f) Code.ok
        (natLe 2 n)).tick).settle f) := by
  have room : (s.crown.exports.map Prod.fst).length < 2 ^ 16 := by rwa [List.length_map]
  refine ⟨s.newId (s.crown.exports.map Prod.fst) 16, s.newId_lt room, ?_⟩
  rw [execFabExport, ownerRow_of ht ho, show (s.popReq f).bufNamed e.bytes = some x from hx]
  dsimp only
  rw [if_neg (Nat.not_le.mpr hpeer), if_neg (show ¬65536 ≤ ((s.popReq f).crown.exports.map Prod.fst).length from Nat.not_le.mpr room)]
  rfl

theorem execFabUnexport_ends {y : Expo} (ht : s.Takes f 0x63 [(0, 2)] e) (hx : s.crown.exports.get? (pay e.bytes 0 2) = some y)
    (hy : s.crown.buffers.get? y.buf = some x) (hses : x.ses = reqSession e.bytes) :
    execFabUnexport f s = .next (({ s.popReq f with crown := { (s.popReq f).crown with
      exports := (s.popReq f).crown.exports.del (pay e.bytes 0 2) } }.reply (e.ref f) Code.ok).settle f) := by
  have own : ((s.popReq f).crown.exports.get? (pay e.bytes 0 2)).bind (fun e' =>
      ((s.popReq f).crown.buffers.get? e'.buf).filter fun x => x.ses == reqSession e.bytes) = some x := by
    change (s.crown.exports.get? _).bind (fun e' => (s.crown.buffers.get? e'.buf).filter _) = _
    rw [hx, Option.bind_some, hy, Option.filter_some, if_pos (beq_iff_eq.mpr hses)]
  rw [execFabUnexport, ownerRow_of ht ho]
  dsimp only
  rw [own]

/-! ## BUF_DMA -/

theorem execBufDma_accepted {dma : HostRead × PathEvent} (ht : s.Takes f 0x36 [(0, 4), (4, 1), (5, 1), (8, 8), (0x10, 8), (0x18, 8)] e)
    (hx : s.bufNamed e.bytes = some x) (hok : dmaOk x e.bytes = true)
    (hbusy : pay e.bytes 4 1 = 0 → s.bufBusy (pay e.bytes 0 4) = false) : execBufDma f dma s =
      .next ((((s.popReq f).reply (e.ref f) Code.accepted).bufDma (e.ref f) x e.bytes dma.1 dma.2).settle f) := by
  have free : ¬(pay e.bytes 4 1 = 0 ∧ (s.popReq f).bufBusy (pay e.bytes 0 4) = true) :=
    fun h => ne_true_of_eq_false (hbusy h.1) h.2
  rw [execBufDma, ownerRow_of ht ho, show (s.popReq f).bufNamed e.bytes = some x from hx]
  dsimp only
  rw [hok, if_neg free]
  rfl
end

section
variable {s : State} {r : ReqRef} {x : Buffer} {b : List Byte} (hlen : pay b 0x10 8 ≠ 0)
include hlen

/-- A checked transfer from the host puts its bytes into the version. -/
theorem State.bufDma_reads {d : List Byte} (hdir : pay b 4 1 = 0) (hd : d.length = pay b 0x10 8) :
    s.bufDma r x b (some d) .clean =
      (((s.memPut (x.version (pay b 5 1) + pay b 8 8) d).ioMoved (pay b 0x10 8)).complete r Code.ok).tick := by
  rw [State.bufDma, if_neg hlen, hdir, if_pos (beq_self_eq_true 0), filter_length_some hd]
  rfl

/-- A checked transfer to the host sends the bytes of the version. -/
theorem State.bufDma_writes (d : HostRead) (hdir : pay b 4 1 = 1)
    (hp : s.poisonIn (x.version (pay b 5 1) + pay b 8 8) (pay b 0x10 8) = []) : s.bufDma r x b d .clean =
      (((s.toHost (.write r.f (pay b 0x18 8) (s.memBytes (x.version (pay b 5 1) + pay b 8 8) (pay b 0x10 8)))).ioMoved
        (pay b 0x10 8)).complete r Code.ok).tick := by
  rw [State.bufDma, if_neg hlen, hdir, if_neg (by decide), State.memGet_clean hp]
  rfl
end

theorem State.ioMoved_mem (s : State) (n : Nat) : (s.ioMoved n).mem = s.mem := State.ioMoved_keeps.same .mem (by decide)

theorem State.ioMoved_hostOut (s : State) (n : Nat) : (s.ioMoved n).hostOut = s.hostOut :=
  State.ioMoved_keeps.same .hostOut (by decide)

/-- A reply changes nothing that a read of module memory looks at. -/
theorem State.poisonIn_reply (s : State) (r : ReqRef) (c : Byte) (p : List Byte) (ma n : Nat) :
    (s.reply r c p).poisonIn ma n = s.poisonIn ma n := by
  rw [State.reply_eq]
  split <;> rfl

theorem State.memBytes_reply (s : State) (r : ReqRef) (c : Byte) (p : List Byte) (ma n : Nat) :
    (s.reply r c p).memBytes ma n = s.memBytes ma n := by
  rw [State.memBytes, State.memBytes, State.reply_mem, State.reply_fresh]

/-- Settles O35: each command takes the one path that its checks leave, and its effect is read off the record or the range of memory
that it names. -/
theorem bufferCommands : Obligations.BufferCommands := by
  intro f s e ho r b u id
  refine ⟨fun rg v0 v1 ht hrg hv hal hne hq h0 h1 => ?alloc, fun x ht hx => execBufFree_frees ho ht hx,
    fun x ht hx => execBufCommit_flips ho ht hx, fun x ht hx => execBufMap_maps ho ht hx,
    fun x ht hx => execBufUnmap_unmaps ho ht hx, fun x ht hx hok hlen hwf => ⟨fun d hdir hbusy hd => ?fromHost, fun d hdir hp => ?toHost⟩,
    fun x ht hx hpeer hroom => ?exports, fun y x ht hy hx hses => execFabUnexport_ends ho ht hy hx hses⟩
  case alloc =>
    obtain ⟨n, x, unused, record, made⟩ := State.bufAlloc_makes (s := u) (rgn := pay b 0 1) r hq h0 h1
    have crown : (u.bufAlloc r (reqSession b) (pay b 0 1) (pay b 8 8) rg).crown.buffers.get? n = some x := by
      rw [made, State.tick_crown, State.reply_crown, Tab.get?_put_same]
    have read (a : Nat) : (u.bufAlloc r (reqSession b) (pay b 0 1) (pay b 8 8) rg).mem.data.read a =
        if (a < v0 ∨ v0 + pay b 8 8 ≤ a) ∧ (a < v1 ∨ v1 + pay b 8 8 ≤ a) then s.mem.data.read a else 0 := by
      rw [made, State.tick_mem, State.reply_mem]
      exact State.zeroBoth_read u ..
    refine ⟨_, n, execBufAlloc_allocates ho ht hrg hv hal hne, unused, ?_, fun k hk => ⟨?_, ?_⟩, fun a ha0 ha1 => ?_⟩
    · rw [crown]
      exact congrArg some record
    · rw [read, if_neg (by omega)]
    · rw [read, if_neg (by omega)]
    · rw [read, if_pos ⟨ha0, ha1⟩]
  case fromHost =>
    have data : ((u.reply r Code.accepted).bufDma r x b (some d) .clean).mem.data =
        s.mem.data.writeN (x.version (pay b 5 1) + pay b 8 8) d := by
      rw [State.bufDma_reads (Nat.ne_of_gt hlen) hdir hd, State.tick_mem, State.complete_mem, State.ioMoved_mem]
      change ((u.reply r Code.accepted).mem.data.writeN _ d) = _
      rw [State.reply_mem, State.popReq_mem]
    refine ⟨_, execBufDma_accepted ho ht hx hok fun _ => hbusy, fun k hk => ?_, fun a ha => ?_⟩
    · rw [data, Mem.read_writeN_in _ d hwf hk]
    · rw [data, Mem.read_writeN_out d ha]
  case toHost =>
    have clean : (u.reply r Code.accepted).poisonIn (x.version (pay b 5 1) + pay b 8 8) (pay b 0x10 8) = [] :=
      (State.poisonIn_reply ..).trans hp
    refine ⟨_, execBufDma_accepted ho ht hx hok fun h => absurd (hdir.symm.trans h) (by decide), ?_⟩
    rw [State.bufDma_writes (Nat.ne_of_gt hlen) d hdir clean, State.memBytes_reply, State.tick_mem, State.complete_mem,
      State.ioMoved_mem, State.tick_hostOut, State.complete_hostOut, State.ioMoved_hostOut, State.toHost_mem, State.toHost_hostOut,
      State.reply_mem, State.reply_hostOut]
    exact ⟨rfl, rfl⟩
  case exports =>
    obtain ⟨n, hn, hexec⟩ := execFabExport_exports ho ht hx hpeer hroom
    refine ⟨_, n, hexec, hn, ?_⟩
    rw [State.tick_crown, State.reply_crown]
    exact ⟨Tab.get?_put_same .., fun k hk => Tab.get?_put_ne _ hk, rfl⟩

end Sys2Proof.Machine
end

section
/-! JOB_SUBMIT, JOB_ABORT and the reset commands (R263, R269, R292, R367 to R369): the job that a submission makes, the replies to an
abort, and what a station reset leaves. -/

namespace Sys2Proof.Machine

/-! ## Submissions (R263) -/

/-- The number in so many bytes is below their range. -/
theorem field_lt (l : List Byte) (off n : Nat) : field l off n < 256 ^ n :=
  Nat.lt_of_lt_of_le (leNat_lt _) (Nat.pow_le_pow_right (by decide) (List.length_take_le ..))

theorem nextGen_ne_zero (g : BitVec 20) : nextGen g ≠ 0 := by
  unfold nextGen
  split
  · decide
  · next h => bv_omega

theorem State.freeEntry_popReq (s : State) (f : Fin 64) : (s.popReq f).freeEntry = s.freeEntry := by
  have pick : ∀ l : List Nat, (s.popReq f).pick l = s.pick l := fun _ => rfl
  have jobAt : (s.popReq f).jobAt = s.jobAt := rfl
  have order : (s.popReq f).crown.endOrder = s.crown.endOrder := rfl
  unfold State.freeEntry
  rw [pick, jobAt, order]

/-- The time limit of a new job: the session's where the entry names none. -/
theorem newJob_limit (old : Job) (x : SesBody) (r : ReqRef) (b : List Byte) :
    (newJob old x r b).limit.toNat = if pay b 0xC 4 = 0 then x.deflimit.toNat else pay b 0xC 4 := by
  have small : pay b 0xC 4 < 2 ^ 32 := field_lt ..
  rw [newJob]
  dsimp only
  split
  · rfl
  · rw [BitVec.toNat_ofNat, Nat.mod_eq_of_lt small]

section
variable {s : State} {f : Fin 64} {e : ReqEntry}

theorem execJobSubmit_admits {j : Nat} (ht : s.Takes f 0x40 submitFields e) (ho : s.Owns f e)
    (hok : submitOk (bitAt (s.session (reqSession e.bytes)).body.policy.toNat 1) e.bytes = true) (hno : s.noJobs = false)
    (hj : s.freeEntry = some j) :
    let x := newJob (s.jobAt j) (s.session (reqSession e.bytes)).body (e.ref f) e.bytes
    execJobSubmit f s = .next (((({ s.popReq f with crown := { (s.popReq f).crown with
      jobs := s.crown.jobs.put j x
      endOrder := s.crown.endOrder.filter (· != j) } }).reply (e.ref f) Code.accepted (natLe 4 (jobId j x.gen).toNat)).tick).settle f) := by
  rw [execJobSubmit, ownerRow_of ht ho]
  dsimp only
  rw [if_pos (show submitOk (bitAt ((s.popReq f).session _).body.policy.toNat 1) e.bytes = true from hok), State.submit,
    show (s.popReq f).noJobs = false from hno, if_neg Bool.false_ne_true, State.freeEntry_popReq, hj]
  rfl

/-! ## JOB_ABORT (R269) -/

theorem execJobAbort_replies {j : Nat} {x : Job} (ht : s.Takes f 0x41 [(0, 4)] e) (ho : s.Owns f e)
    (hx : s.jobNamed (pay e.bytes 0 4) (reqSession e.bytes) = some (j, x)) :
    (x.state.abortable = true → execJobAbort f s =
      .next ((((s.popReq f).abortJob j Code.aborted).reply (e.ref f) Code.accepted).settle f)) ∧
    (x.state = .committed ∨ x.state = .completed → execJobAbort f s =
      .next (((s.popReq f).reply (e.ref f) Code.alreadyComplete).settle f)) ∧
    (x.state = .free → execJobAbort f s = .next (((s.popReq f).reply (e.ref f) x.cause).settle f)) := by
  have row := ownerRow_of (run := State.abortCmd) ht ho
  rw [State.abortCmd, show (s.popReq f).jobNamed (pay e.bytes 0 4) (reqSession e.bytes) = some (j, x) from hx] at row
  dsimp only at row
  rw [execJobAbort, row]
  cases hst : x.state <;> simp [JobState.abortable]

/-! ## Resets (R367 to R369) -/

/-- No entry waits in the rings that a cold reset leaves, so there is none to refuse. -/
theorem execResetCold_resets (ht : s.Takes f 0x05 [] e) (hf : f = 0) : execResetCold f s = .next s.coldToRom := by
  have none_waits : ∀ e ∈ s.coldToRom.mbx[f].taken, knownOps.contains (reqOp e.bytes) = true := by
    rw [show s.coldToRom.mbx[f] = Mbx.reset from Vector.getElem_replicate ..]
    exact List.forall_mem_nil _
  rw [execResetCold, pfRow_of ht hf]
  exact congrArg _ (State.settle_known none_waits)

theorem execResetWarm_resets (ht : s.Takes f 0x04 [] e) (hf : f = 0) : execResetWarm f s =
    .next (((((s.popReq f).warmCore.reply (e.ref f) Code.ok).warmEnd)).settle f) := pfRow_of ht hf

/-- The state in which a station reset finds the station: the job that holds it has been aborted. -/
def State.stationFreed (s : State) (st : Fin 16) : State :=
  match s.stations[st].job with
  | some j => if s.stations[st].held then s.abortJob j Code.resetAborted else s
  | none => s

theorem execStationReset_resets {st : Fin 16} (ht : s.Takes f 0x06 [(0, 1)] e) (hf : f = 0) (hst : pay e.bytes 0 1 = st.val) :
    execStationReset f s = .next ((((((s.popReq f).stationFreed st).updStn st Station.resetStn).trained).reply (e.ref f)
      Code.ok).settle f) := by
  rw [execStationReset, pfRow_of ht hf]
  simp only [hst, st.isLt, dite_true, Fin.eta]
  rfl
end

section
variable {s : State}

/-- An abort stops a station or leaves it. -/
theorem State.abortJob_station (s : State) (j : Nat) (cause : Byte) (timeout : Bool) (st : Fin 16) :
    (s.abortJob j cause timeout).stations[st] = s.stations[st] ∨ (s.abortJob j cause timeout).stations[st] = s.stations[st].stop := by
  by_cases h : ∃ x, s.crown.jobs.get? j = some x ∧ x.state.abortable = true
  · obtain ⟨x, hx, ha⟩ := h
    rw [State.abortJob_stn cause timeout hx ha]
    split
    · exact .inr rfl
    · exact .inl rfl
  · rw [State.abortJob_none cause timeout fun x hx => by simpa using fun ha => h ⟨x, hx, ha⟩]
    exact .inl rfl

/-- A station that no job holds is found as it is. -/
theorem State.stationFreed_unheld {st : Fin 16} (h : s.stations[st].held = false) : s.stationFreed st = s := by
  unfold State.stationFreed
  split
  · exact if_neg (ne_true_of_eq_false h)
  · rfl

theorem State.stationFreed_held {st : Fin 16} {j : Nat} (h : s.stations[st].held = true) (hj : s.stations[st].job = some j) :
    s.stationFreed st = s.abortJob j Code.resetAborted := by
  rw [State.stationFreed, hj]
  exact if_pos h

/-- The epoch and the check counts of a station outlast the end of its job. -/
theorem State.stationFreed_keeps (s : State) (st : Fin 16) :
    ((s.stationFreed st).stations[st].epoch, (s.stationFreed st).stations[st].chk) = (s.stations[st].epoch, s.stations[st].chk) := by
  unfold State.stationFreed
  split
  · next j _ =>
    split
    · obtain h | h := s.abortJob_station j Code.resetAborted false st
      · rw [h]
      · rw [h]
        rfl
    · rfl
  · rfl

theorem State.stationFreed_mem (s : State) (st : Fin 16) : (s.stationFreed st).mem = s.mem := by
  unfold State.stationFreed
  split
  · split
    · exact State.abortJob_mem ..
    · rfl
  · rfl

theorem Pantry.scrub_invalid (p : Pantry) (w : Fin 4) : p.scrub.wins[w].valid = false := by
  simp [Pantry.scrub]
end

/-- Settles O36: each command takes its row's one path, and a station reset clears its station after the abort of the job that holds
it. -/
theorem jobAndResetCommands : Obligations.JobAndResetCommands := by
  intro f s e r b u
  refine ⟨fun j ht ho hok hno hj => ?submit, fun j x ht ho hx => ?abort, execResetCold_resets, execResetWarm_resets,
    fun st ht hf hst => ?station⟩
  case submit =>
    refine ⟨_, newJob (s.jobAt j) (s.session (reqSession b)).body r b, execJobSubmit_admits ht ho hok hno hj, ?_⟩
    rw [State.tick_crown, State.reply_crown, State.tick_stations, State.reply_stations]
    exact ⟨Tab.get?_put_same .., rfl, rfl, nextGen_ne_zero _, rfl, rfl, newJob_limit .., fun k hk => Tab.get?_put_ne _ hk, rfl,
      State.replies_reply e _ _ rfl⟩
  case abort =>
    obtain ⟨begun, past, free⟩ := execJobAbort_replies ht ho hx
    exact ⟨fun h => begun (by obtain h | h := h <;> rw [h] <;> rfl), past, free⟩
  case station =>
    have crown : ∀ t : State, ((t.updStn st Station.resetStn).trained.reply r Code.ok).crown = t.crown := fun t => State.reply_crown ..
    refine ⟨_, execStationReset_resets ht hf hst, ?_⟩
    rw [crown, State.reply_stations, State.trained_stations, State.updStn_same]
    obtain ⟨hepoch, hchk⟩ := Prod.mk.inj (u.stationFreed_keeps st)
    refine ⟨rfl, rfl, rfl, fun w => Pantry.scrub_invalid _ w, rfl, hepoch, hchk, ?_,
      fun hfree => ?_, fun j x hheld hjob hx hrun => ?_⟩
    · rw [State.reply_mem]
      exact (congrArg ModMem.data (u.stationFreed_mem st) :)
    · rw [State.stationFreed_unheld (s := u) hfree]
      exact ⟨fun st' hne => State.updStn_ne _ hne, rfl⟩
    · have found : u.crown.jobs.get? j = some x := hx
      rw [State.stationFreed_held (s := u) hheld hjob, State.abortJob_job _ _ found (by rw [hrun]; rfl), Tab.get?_upd_same, found]
      rfl

end Sys2Proof.Machine
end

section
/-! The states of a port (Table 17.2, R298 to R302, R312 to R315): what frames that leave do not change of a port, what becomes of
a port that drops or trains again, and the moves of the port's state. -/

namespace Sys2Proof.Machine

/-! ## What sending leaves of a port -/

/-- The port but for its traffic that leaves: nothing sent or sent again, nothing waiting, no credit owed. -/
def Port.quiet (x : Port) : Port :=
  { x with
    fseq := 0
    unacked := []
    waiting := []
    credits := Vector.replicate 8 256
    owed := Vector.replicate 8 0
    sent := []
    tries := 0
    sentFrames := []
    heldFrames := [] }

/-- The ports agree in their state and mode, and in what they know of their neighbours. -/
def Port.SameLink (x y : Port) : Prop :=
  x.state = y.state ∧ x.eth = y.eth ∧ x.ver = y.ver ∧ x.feat = y.feat ∧ x.peers = y.peers ∧ x.pairs = y.pairs

theorem Port.link_of_quiet {x y : Port} (h : x.quiet = y.quiet) : x.SameLink y := by
  have agree {β : Type} (g : Port → β) : g x.quiet = g y.quiet := congrArg g h
  exact ⟨agree Port.state, agree Port.eth, agree Port.ver, agree Port.feat, agree Port.peers, agree Port.pairs⟩

/-- Ports that differ in what they send have received the same. -/
theorem Port.received_of_quiet {x y : Port} (h : x.quiet = y.quiet) : x.rxLast = y.rxLast ∧ x.part = y.part ∧ x.inbox = y.inbox := by
  have agree {β : Type} (g : Port → β) : g x.quiet = g y.quiet := congrArg g h
  exact ⟨agree Port.rxLast, agree Port.part, agree Port.inbox⟩

theorem Port.emit_quiet (x : Port) (f : Flit) : (x.emit f).quiet = x.quiet := rfl

theorem Port.pump_quiet (x : Port) : x.pump.quiet = x.quiet := by
  have keeps : ∀ (l : List Flit) (y : Port), (l.foldl (fun x f =>
      let c : Fin 8 := f.cls.toFin
      if 0 < x.credits[c] ∧ x.unacked.length < 1024 then x.emit f else { x with waiting := x.waiting ++ [f] }) y).quiet = y.quiet := by
    intro l
    induction l with
    | nil => exact fun _ => rfl
    | cons f l ih =>
      intro y
      rw [List.foldl_cons, ih]
      dsimp only
      split
      · exact Port.emit_quiet y f
      · rfl
  exact keeps _ _

theorem Port.put_quiet (x : Port) (cls : Nat) (b : List Byte) : (x.put cls b).quiet = x.quiet := by
  unfold Port.put
  split <;> rfl

theorem Port.send_quiet (x : Port) (src dst frame : List Byte) : (x.send src dst frame).quiet = x.quiet := by
  unfold Port.send
  dsimp only
  split
  · exact Port.put_quiet ..
  · exact Port.pump_quiet _

section
variable (s : State) (p q : Fin 14)

theorem State.updPort_quiet {f : Port → Port} (h : ∀ x, (f x).quiet = x.quiet) :
    (s.updPort p f).fab.ports[q].quiet = s.fab.ports[q].quiet := by
  by_cases hq : q = p
  · rw [hq, State.updPort_same, h]
  · rw [State.updPort_ne f hq]

theorem State.sendBy_quiet (h : FrameHdr) (b : List Byte) : (s.sendBy p h b).fab.ports[q].quiet = s.fab.ports[q].quiet :=
  State.updPort_quiet _ _ _ fun x => Port.send_quiet x ..

theorem State.capOut_quiet (rc : CapRecord) : (s.capOut p rc).fab.ports[q].quiet = s.fab.ports[q].quiet := by
  unfold State.capOut
  dsimp only
  split
  · exact State.updPort_quiet _ _ _ fun x => Port.send_quiet x ..
  · exact foldl_same (g := fun t => t.fab.ports[q].quiet) (fun t r => State.sendBy_quiet t ..) _ _

theorem State.relayCap_quiet (rc : CapRecord) : (s.relayCap rc).fab.ports[q].quiet = s.fab.ports[q].quiet := by
  unfold State.relayCap
  refine foldl_same (g := fun t => t.fab.ports[q].quiet) (fun t r => ?_) _ _
  dsimp only
  split
  · exact State.capOut_quiet ..
  · rfl

theorem State.capsTo_quiet : (s.capsTo p).fab.ports[q].quiet = s.fab.ports[q].quiet :=
  foldl_same (g := fun t => t.fab.ports[q].quiet) (fun t r => State.capOut_quiet ..) _ _
end

/-! ## Ports that drop and that train again (R302) -/

theorem State.dropPort_unbound (s : State) (p : Fin 14) (x : PState) :
    ∀ e ∈ (s.dropPort p x).crown.sessions, ∀ k : Fin 8, e.2.slots[k].txPort ≠ some p ∧ e.2.slots[k].rxPort ≠ some p := by
  intro e he k
  have mapped : e ∈ (s.linkLost p).crown.sessions.map _ := he
  obtain ⟨y, -, rfl⟩ := List.mem_map.mp mapped
  simp only [Fin.getElem_fin, Vector.getElem_map]
  constructor <;> split <;> simp_all

/-- What a retraining makes of a port: one that is disabled or without signal stays. -/
def Port.retrained (x : Port) : Port :=
  if x.state = .disabled ∨ x.state = .down then x else { x.clearLink .train with retrain := satAdd x.retrain 1 }

theorem State.retrain_ports (s : State) (p : Fin 14) : (s.retrain p).fab.ports = vupd s.fab.ports p Port.retrained := by
  unfold State.retrain
  split
  · next h => exact (vupd_id (f := Port.retrained) _ _ (if_pos h)).symm
  · next h =>
    rw [State.noteIf_fab, State.updPort, State.dropPort_ports, vupd_vupd, vupd, vupd, Port.retrained, if_neg h]
    rfl

theorem State.retrainAll_port (s : State) (p : Fin 14) :
    ((List.finRange 14).foldl State.retrain s).fab.ports[p] = s.fab.ports[p].retrained := by
  have ports := List.foldl_hom (fun t : State => t.fab.ports) (g₁ := State.retrain) (g₂ := fun v q => vupd v q Port.retrained)
    (l := List.finRange 14) (init := s) fun t q => (State.retrain_ports t q).symm
  rw [← ports, foldl_vupd_get _ (List.nodup_finRange 14), if_pos (List.mem_finRange p)]

theorem State.countReplays_port (s : State) (p : Fin 14) : (s.countReplays p).fab.ports[p] =
    { s.fab.ports[p] with
      replay := satAdd s.fab.ports[p].replay 1
      tries := s.fab.ports[p].tries + 1
      sent := s.fab.ports[p].sent ++ s.fab.ports[p].unacked.map fun f => { f with ack := s.fab.ports[p].rxLast }.wire } := by
  rw [State.countReplays]
  dsimp only
  rw [State.noteIf_fab, State.updPort_same]

/-! ## The moves -/

section
variable {s : State} {p : Fin 14} (hs : s.Specified)
include hs

theorem execPortTrain_trains (ha : s.fabAlive = true) (hid : s.fab.assigned = true) (hp : s.portPresent p = true)
    (hst : s.fab.ports[p].state = .down ∨ s.fab.ports[p].state = .train ∨ s.fab.ports[p].state = .align) :
    execPortTrain p s = .next (if s.fab.ports[p].eth then (s.updPort p fun x => { x with state := .up }).capOut p s.ownCap
      else s.updPort p fun x => { x with state := .cap }.emit (capFlit s.ownCap)) := by
  rw [execPortTrain]
  refine occurs_of hs ?_
  rw [ha, hid, hp]
  obtain h | h | h := hst <;> rw [h] <;> rfl

theorem execCapExchange_mismatches {rc : CapRecord} (ha : s.fabAlive = true) (hst : s.fab.ports[p].state = .cap)
    (hbad : rc.ver.toNat / 16 ≠ s.fabVer / 16 ∨ rc.modid = s.fab.modid ∨ s.reachedByOther rc.modid = true) :
    ∃ e, execCapExchange p rc s = .next (((s.updPort p fun x => { x with state := .mismatch, peers := [rc] }).logEvt e).tick) := by
  rw [execCapExchange, occurs_of hs (by rw [ha, hst]; rfl), if_pos hbad]
  exact ⟨_, rfl⟩

theorem execCapExchange_agrees {rc : CapRecord} (ha : s.fabAlive = true) (hst : s.fab.ports[p].state = .cap)
    (hver : rc.ver.toNat / 16 = s.fabVer / 16) (hid : rc.modid ≠ s.fab.modid) (hreach : s.reachedByOther rc.modid = false) :
    ∃ u : State, execCapExchange p rc s = .next ((u.relayCap rc).capsTo p) ∧ u.fab.ports[p] = { s.fab.ports[p] with
      state := .up
      ver := BitVec.ofNat 8 (min s.fabVer rc.ver.toNat)
      feat := Config.fabFeatures s.boot.header &&& rc.feat
      peers := [rc]
      rxLast := some s.fab.ports[p].rxNext } := by
  have good : ¬(rc.ver.toNat / 16 ≠ s.fabVer / 16 ∨ rc.modid = s.fab.modid ∨ s.reachedByOther rc.modid = true) := by
    rintro (h | h | h)
    · exact h hver
    · exact hid h
    · exact Bool.false_ne_true (hreach.symm.trans h)
  rw [execCapExchange, occurs_of hs (by rw [ha, hst]; rfl), if_neg good]
  exact ⟨_, rfl, State.updPort_same ..⟩

theorem execFlitReplayTimeout_replays (hup : s.fab.ports[p].isUp = true ∨ s.fab.ports[p].state = .cap)
    (heth : s.fab.ports[p].eth = false) (hwait : s.fab.ports[p].unacked ≠ []) :
    execFlitReplayTimeout p s =
      .next (if 2 ≤ s.fab.ports[p].tries then (s.countReplays p).retrain p else s.countReplays p) := by
  rw [execFlitReplayTimeout]
  refine occurs_of hs ?_
  have some_wait : s.fab.ports[p].unacked.isEmpty = false := by simpa using hwait
  have link : (s.fab.ports[p].isUp || s.fab.ports[p].state == .cap) = true := by simpa using hup
  rw [heth, some_wait, link]
  rfl

theorem execMismatchRetry_trains (ha : s.fabAlive = true) (hst : s.fab.ports[p].state = .mismatch) :
    execMismatchRetry p s = .next (s.updPort p fun x => x.clearLink .train) :=
  occurs_of hs (by rw [ha, hst]; rfl)

theorem execPortSignalLoss_drops (hdis : s.fab.ports[p].state ≠ .disabled) (hdown : s.fab.ports[p].state ≠ .down) :
    execPortSignalLoss p s = .next (s.dropPort p .down) :=
  occurs_of hs (by rw [bne_iff_ne.mpr hdis, bne_iff_ne.mpr hdown]; rfl)

theorem execFrameHoldLimit_retrains (hb : s.boot.state = .activating) :
    execFrameHoldLimit s = .next ((List.finRange 14).foldl State.retrain s) := by
  rw [execFrameHoldLimit, occurs_of hs (by rw [hb]; rfl)]
end

/-- Settles O43: what a port sends changes nothing else of it, and a port that drops or trains again starts its link anew. -/
theorem portsChangeState : Obligations.PortsChangeState := by
  intro p s hs
  dsimp only
  refine ⟨fun ha hid hp hst => ?train, fun rc ha hst => ⟨fun hbad => ?mismatch, fun hver hid hreach => ?up⟩, fun ha hst => ?retry,
    fun hdis hdown => ?drop, fun hb => ?hold, fun hup heth hwait => ?replay⟩
  case train =>
    have row := execPortTrain_trains hs ha hid hp hst
    refine ⟨fun heth => ?_, fun heth => ⟨?_, ?_⟩⟩
    · exact row.trans (by rw [heth]; rfl)
    · exact row.trans (by rw [if_pos heth])
    · exact (Port.link_of_quiet (State.capOut_quiet _ p p _)).1.trans (congrArg Port.state (State.updPort_same ..))
  case mismatch =>
    obtain ⟨e, row⟩ := execCapExchange_mismatches hs ha hst hbad
    refine ⟨_, row, ?_, fun hroom => ?_⟩
    · rw [State.tick_fab, State.logEvt_fab, State.updPort_same]
    · exact State.logEvt_queue_length (s := s.updPort p _) hroom
  case up =>
    obtain ⟨u, row, hu⟩ := execCapExchange_agrees hs ha hst hver hid hreach
    have kept := (State.capsTo_quiet (u.relayCap rc) p p).trans (State.relayCap_quiet u p rc)
    rw [hu] at kept
    obtain ⟨hstate, -, hv, hfeat, hpeers, -⟩ := Port.link_of_quiet kept
    refine ⟨_, row, hstate, hpeers, ?_, hfeat⟩
    rw [hv]
    exact (BitVec.toNat_ofNat ..).trans (Nat.mod_eq_of_lt (by omega))
  case retry => exact execMismatchRetry_trains hs ha hst
  case drop =>
    refine ⟨_, execPortSignalLoss_drops hs hdis hdown, ?_, fun p' hp' => ?_, State.dropPort_unbound s p .down⟩
    · rw [State.dropPort_ports, vupd_same]
    · rw [State.dropPort_ports, vupd_ne _ hp']
  case hold =>
    have row := execFrameHoldLimit_retrains hs hb
    refine ⟨fun hdis hdown => ⟨_, row, ?_⟩, fun hst => ⟨_, row, ?_⟩⟩
    · rw [State.retrainAll_port, Port.retrained, if_neg (not_or.mpr ⟨hdis, hdown⟩)]
      exact ⟨rfl, rfl⟩
    · rw [State.retrainAll_port, Port.retrained, if_pos hst]
  case replay =>
    have row := execFlitReplayTimeout_replays hs hup heth hwait
    refine ⟨fun hfew => ⟨_, row.trans (by rw [if_neg (Nat.not_le.mpr hfew)]), State.countReplays_port s p⟩,
      fun hmany => ⟨_, row.trans (by rw [if_pos hmany]), ?_⟩⟩
    have live : ¬((s.countReplays p).fab.ports[p].state = .disabled ∨ (s.countReplays p).fab.ports[p].state = .down) := by
      rw [State.countReplays_port]
      obtain h | h := hup
      · rw [beq_iff_eq.mp h]
        simp
      · rw [h]
        simp
    rw [State.retrain_ports, vupd_same, Port.retrained, if_neg live, State.countReplays_port]
    exact ⟨rfl, rfl, rfl, rfl⟩

end Sys2Proof.Machine
end

section
/-! FUNC_CONFIG, POWER_CAP and FAB_CONFIG (R288, R297, R298, R364): the limits of a function, the cap in force, the module's ID and the
mode of a port. -/

namespace Sys2Proof.Machine

/-! ## Limits and the cap -/

theorem vupdN_const {α : Type} {n : Nat} (v : Vector α n) (i : Fin n) (c : α) : vupdN v i.val (fun _ => c) = v.set i c :=
  vupdN_val v i _

theorem capInForce_eq (w : Nat) : capInForce w = if w = 0 then 0 else min (max w 900) 65535 := by
  unfold capInForce
  split
  · rfl
  · split <;> omega

section
variable {s : State} {e : ReqEntry}

theorem execFuncConfig_limits {g : Fin 64} (ht : s.Takes 0 0x02 [(0, 1), (2, 2), (4, 2), (8, 8)] e) (hg : pay e.bytes 0 1 = g.val)
    (hvf : g ≠ 0) :
    execFuncConfig 0 s = .next (({ s.popReq 0 with crown := { (s.popReq 0).crown with
      funcs := (s.popReq 0).crown.funcs.set g ⟨BitVec.ofNat 16 (pay e.bytes 2 2), pay e.bytes 4 2, some (pay e.bytes 8 8)⟩ } }.reply
        (e.ref 0) Code.ok).settle 0) := by
  have vf : ¬(g.val = 0 ∨ 64 ≤ g.val) := by
    rintro (h | h)
    · exact hvf (Fin.ext h)
    · omega
  rw [execFuncConfig, pfRow_of ht rfl]
  dsimp only
  rw [hg, if_neg vf, vupdN_const]

theorem execPowerCap_caps (ht : s.Takes 0 0x03 [(0, 4)] e) :
    execPowerCap 0 s = .next (({ s.popReq 0 with power := { (s.popReq 0).power with
      cap := BitVec.ofNat 16 (capInForce (pay e.bytes 0 4)) } }.reply (e.ref 0) Code.ok
        (natLe 4 (capInForce (pay e.bytes 0 4)))).settle 0) := pfRow_of ht rfl

/-! ## The module's ID (R298) -/

theorem execFabConfig_modid (ht : s.Takes 0 0x60 [(0, 2), (2, 1), (3, 1), (4, 2)] e) (hport : pay e.bytes 2 1 = 0xFF)
    (hid : pay e.bytes 0 2 < 1024) (hfree : s.noSession = true) :
    execFabConfig 0 s = .next ((((s.popReq 0).setModid (pay e.bytes 0 2)).reply (e.ref 0) Code.ok).settle 0) := by
  have free : (s.popReq 0).noSession = true := hfree
  rw [execFabConfig, pfRow_of ht rfl]
  dsimp only
  rw [if_pos hport, if_neg (Nat.not_le.mpr hid), free]
  rfl

theorem execFabConfig_port {p : Fin 14} (ht : s.Takes 0 0x60 [(0, 2), (2, 1), (3, 1), (4, 2)] e) (hport : pay e.bytes 2 1 = p.val)
    (hp : s.portPresent p = true) (hmode : pay e.bytes 3 1 < 2) :
    execFabConfig 0 s = .next ((((s.popReq 0).setPort p (pay e.bytes 3 1 == 1) (pay e.bytes 4 2)).reply (e.ref 0) Code.ok).settle 0) := by
  have none_all : p.val ≠ 0xFF := by omega
  have present : (s.popReq 0).portPresent p = true := hp
  rw [execFabConfig, pfRow_of ht rfl]
  simp only [hport, none_all, if_false, p.isLt, dite_true, Fin.eta, present, Bool.not_true, Bool.false_or, decide_eq_true_eq,
    Nat.not_le.mpr hmode]
end

section
variable (s : State)

theorem State.linkLost_fab (p : Fin 14) :
    (s.linkLost p).fab = { s.fab with reads := s.fab.reads.filter fun r => r.port != p } := by
  have kept : State.Keeps engineParts { s with fab := { s.fab with reads := s.fab.reads.filter fun r => r.port != p } }
      (s.linkLost p) := by
    unfold State.linkLost
    refine .next (State.foldl_keeps fun t y => ?_) (State.foldl_keeps fun _ _ => State.seLogged_keeps)
    split
    · exact State.foldl_keeps fun _ _ => State.seLogged_keeps
    · exact .refl ..
  exact kept.same .fab (by decide)

/-- The module's ID on the fabric, once it has one. -/
def Fabric.ident (x : Fabric) : Bool × BitVec 10 := (x.assigned, x.modid)

theorem State.updPort_ident (p : Fin 14) (f : Port → Port) : (s.updPort p f).fab.ident = s.fab.ident := rfl

theorem State.dropPort_ident (p : Fin 14) (x : PState) : (s.dropPort p x).fab.ident = s.fab.ident := by
  have fab : (s.dropPort p x).fab.ident = (s.linkLost p).fab.ident := rfl
  rw [fab, State.linkLost_fab]
  rfl

theorem State.retrain_ident (p : Fin 14) : (s.retrain p).fab.ident = s.fab.ident := by
  unfold State.retrain
  split
  · rfl
  · rw [State.noteIf_fab, State.updPort_ident, State.dropPort_ident]

theorem State.setModid_ident (m : Nat) : (s.setModid m).fab.ident = (true, BitVec.ofNat 10 m) := by
  unfold State.setModid
  split
  · next known =>
    obtain ⟨hset, hm⟩ := known
    rw [Fabric.ident, hset, ← hm, BitVec.ofNat_toNat, BitVec.setWidth_eq]
  · exact foldl_same (g := fun t => t.fab.ident) State.retrain_ident _ _

/-! ## A port's mode and EtherType (R297) -/

theorem State.setPort_port (p : Fin 14) (eth : Bool) (etype : Nat) :
    (s.setPort p eth etype).fab.ports[p].eth = eth ∧ (s.setPort p eth etype).fab.ports[p].etype = BitVec.ofNat 16 etype := by
  have fab : (s.setPort p eth etype).fab = ((if s.fab.ports[p].eth = eth then s else (s.retrain p).updPort p fun x =>
      { x with eth := eth }).updPort p fun x => { x with etype := BitVec.ofNat 16 etype }).fab := by
    unfold State.setPort
    dsimp only
    split <;> split <;> rfl
  rw [fab, State.updPort_same]
  refine ⟨?_, rfl⟩
  split
  · next h => exact h
  · rw [State.updPort_same]
end

/-- Settles O32: each command takes its row's one path; a retraining leaves the module's ID as it is. -/
theorem configurationCommands : Obligations.ConfigurationCommands := by
  intro s e r b u
  refine ⟨fun g ht hg hvf => execFuncConfig_limits ht hg hvf, fun ht => ?cap, fun ht hport hid hfree => ?modid,
    fun p ht hport hp hmode => ?port⟩
  case cap =>
    intro w
    have hw : capInForce (pay b 0 4) = w := capInForce_eq _
    rw [← hw]
    exact execPowerCap_caps ht
  case modid =>
    have free : s.noSession = true := List.all_eq_true.mpr fun x hx => beq_iff_eq.mpr (hfree x hx)
    have ident := State.setModid_ident u (pay b 0 2)
    rw [Fabric.ident, Prod.mk.injEq] at ident
    obtain ⟨hset, hm⟩ := ident
    refine ⟨execFabConfig_modid ht hport hid free, hset, ?_⟩
    rw [hm, BitVec.toNat_ofNat, Nat.mod_eq_of_lt hid]
  case port =>
    intro t
    obtain ⟨heth, hetype⟩ := State.setPort_port u p (pay b 3 1 == 1) (pay b 4 2)
    refine ⟨execFabConfig_port ht hport hp hmode, heth, ?_⟩
    have small : pay b 4 2 < 2 ^ 16 := field_lt ..
    rw [hetype, BitVec.toNat_ofNat, Nat.mod_eq_of_lt small]

end Sys2Proof.Machine
end

section
/-! Flits, sends, retransmissions and pauses of a port (R300, R301, R305 to R308, R313, R315): what a flit leaves in the receiver, the
frames that a stream sends, and the frames that an Ethernet port holds. -/

namespace Sys2Proof.Machine

/-! ## Flits that arrive (R300, R301) -/

theorem Port.tell_quiet (old new : Port) : (old.tell new).quiet = new.quiet := by
  unfold Port.tell
  split <;> rfl

/-- Acknowledgements and credits that come back change what a port sends, and nothing else. -/
theorem Port.flitBack_quiet (x : Port) (h : Nat) : (x.flitBack h).quiet = x.quiet := (Port.pump_quiet _).trans rfl

theorem Port.flitIn_discards {x : Port} {b : List Byte} (h : ¬(b.length = 512 ∧ field b 504 8 = crc64 (b.take 504)) ∨
    fld (leNat (b.take 16)) 30 2 = 3 ∨ (fld (leNat (b.take 16)) 30 2 ≠ 0 ∧ BitVec.ofNat 12 (fld (leNat (b.take 16)) 0 12) ≠ x.rxNext)) :
    x.flitIn b = x := by
  unfold Port.flitIn
  dsimp only
  split
  · rfl
  · next hgood =>
    obtain h | h | ⟨hkind, hseq⟩ := h
    · exact absurd h (by tauto)
    · exact absurd h (by tauto)
    · rw [if_neg hkind, if_pos hseq]

theorem Port.flitIn_takes {x : Port} {b : List Byte} (hgood : b.length = 512 ∧ field b 504 8 = crc64 (b.take 504))
    (hkind : fld (leNat (b.take 16)) 30 2 = 1) (hseq : BitVec.ofNat 12 (fld (leNat (b.take 16)) 0 12) = x.rxNext) :
    x.flitIn b = (x.flitTake (leNat (b.take 16)) (slice b 16 (min (fld (leNat (b.take 16)) 32 9) 488))).flitBack
      (leNat (b.take 16)) := by
  unfold Port.flitIn
  dsimp only
  rw [hkind, if_neg (by tauto), if_neg (by decide), if_neg (not_not.mpr hseq)]

/-- A DATA flit: its bytes join the frame of its class, and EOF completes the frame. -/
theorem Port.flitTake_data {x : Port} {h : Nat} {b : List Byte} (hkind : fld h 30 2 = 1) :
    let c : Fin 8 := ⟨fld h 27 3, Nat.mod_lt _ (by decide)⟩
    let whole := if bitAt h 25 then (1, b) else (x.part[c].1 + 1, x.part[c].2 ++ b)
    (x.flitTake h b).rxLast = some (BitVec.ofNat 12 (fld h 0 12)) ∧
      (x.flitTake h b).part[c] = (if bitAt h 26 then (0, []) else whole) ∧
      (x.flitTake h b).inbox = (if bitAt h 26 then x.inbox ++ [⟨c, whole.1, whole.2⟩] else x.inbox) := by
  intro c whole
  unfold Port.flitTake
  dsimp only
  rw [if_neg (not_not.mpr hkind)]
  exact ⟨rfl, vupd_same .., rfl⟩

section
variable {s : State} {p : Fin 14} {b : List Byte} (hs : s.Specified) (hup : s.fab.ports[p].isUp = true)
  (heth : s.fab.ports[p].eth = false)
include hs hup heth

/-- Whether or not the neighbour is told of the flit, the port has received the same. -/
theorem execFlitReceive_receives : ∃ t : State, execFlitReceive p b s = .next t ∧
    t.fab.ports[p].quiet = (s.fab.ports[p].flitIn b).quiet := by
  refine ⟨_, occurs_of hs (by rw [hup, heth]; rfl), ?_⟩
  rw [State.updPort_same]
  split
  · rfl
  · exact Port.tell_quiet ..

theorem execFlitReceive_discards (hin : s.fab.ports[p].flitIn b = s.fab.ports[p]) :
    ∃ t : State, execFlitReceive p b s = .next t ∧ t.fab.ports[p] = s.fab.ports[p] := by
  refine ⟨_, occurs_of hs (by rw [hup, heth]; rfl), ?_⟩
  rw [State.updPort_same, hin, if_pos rfl]

theorem execFlitReceive_takes (hgood : b.length = 512 ∧ field b 504 8 = crc64 (b.take 504))
    (hkind : fld (leNat (b.take 16)) 30 2 = 1)
    (hseq : BitVec.ofNat 12 (fld (leNat (b.take 16)) 0 12) = s.fab.ports[p].rxNext) :
    ∃ t : State, execFlitReceive p b s = .next t ∧ t.fab.ports[p].quiet = (s.fab.ports[p].flitTake (leNat (b.take 16))
      (slice b 16 (min (fld (leNat (b.take 16)) 32 9) 488))).quiet := by
  obtain ⟨t, row, ht⟩ := execFlitReceive_receives (b := b) hs hup heth
  refine ⟨t, row, ht.trans ?_⟩
  rw [Port.flitIn_takes hgood hkind hseq, Port.flitBack_quiet]
end

/-! ## Where frames go (R308, R312, R313) -/

section
variable {s t : State} (hq : ∀ q : Fin 14, (t.fab.ports[q]).SameLink s.fab.ports[q])
include hq

/-- The pairs of ETHERNET ports depend on the links only, as all routes do. -/
theorem State.ethPairs_congr : t.ethPairs = s.ethPairs := by
  choose state eth _ _ _ pairs using hq
  have up (q : Fin 14) : t.fab.ports[q].isUp = s.fab.ports[q].isUp := congrArg (· == .up) (state q)
  funext m
  unfold State.ethPairs
  simp only [up, eth, pairs]

theorem State.ethUsed_congr : t.ethUsed = s.ethUsed := by
  funext m
  simp only [State.ethUsed, State.ethPairs_congr hq]

theorem State.directPorts_congr : t.directPorts = s.directPorts := by
  have used := State.ethUsed_congr hq
  choose state eth _ _ peers _ using hq
  have up (q : Fin 14) : t.fab.ports[q].isUp = s.fab.ports[q].isUp := congrArg (· == .up) (state q)
  funext m
  simp only [State.directPorts, used, up, eth, peers]

variable (hr : t.fab.relayed = s.fab.relayed)
include hr

theorem State.routes_congr : t.routes = s.routes := by
  funext m
  simp only [State.routes, State.relaysTo, State.directPorts_congr hq, hr]

theorem State.macTo_congr : t.macTo = s.macTo := by
  have nextHop : t.nextHop = s.nextHop := by
    funext m
    simp only [State.nextHop, State.relaysTo, State.directPorts_congr hq, hr]
  funext p m
  rw [State.macTo, nextHop, State.ethUsed_congr hq, State.ethPairs_congr hq, State.macTo]
end

theorem Port.SameLink.of_eq {x y : Port} (h : x = y) : x.SameLink y := h ▸ ⟨rfl, rfl, rfl, rfl, rfl, rfl⟩

theorem State.portSend_congr {s t : State} (h : t.fab = s.fab) (p : Fin 14) (m : BitVec 10) (frame : List Byte) :
    (t.portSend p m frame).fab = (s.portSend p m frame).fab := by
  have macTo : t.macTo = s.macTo := State.macTo_congr (fun q => .of_eq (by rw [h])) (by rw [h])
  rw [State.portSend, State.portSend, State.updPort, State.updPort, macTo, h]

theorem State.portSend_stations (s : State) (p : Fin 14) (m : BitVec 10) (frame : List Byte) :
    (s.portSend p m frame).stations = s.stations := rfl

theorem State.portSend_quiet (s : State) (p q : Fin 14) (m : BitVec 10) (frame : List Byte) :
    (s.portSend p m frame).fab.ports[q].quiet = s.fab.ports[q].quiet := State.updPort_quiet _ _ _ fun x => Port.send_quiet x ..

theorem State.portSend_macTo (s : State) (p : Fin 14) (m : BitVec 10) (frame : List Byte) :
    (s.portSend p m frame).macTo = s.macTo := State.macTo_congr (fun q => Port.link_of_quiet (State.portSend_quiet s p q m frame)) rfl

/-- Frames that leave one after another by a port. -/
theorem State.portSend_all {α : Type} (bytes : α → List Byte) (p : Fin 14) (m : BitVec 10) (l : List α) (s : State) :
    (l.foldl (fun s f => s.portSend p m (bytes f)) s).fab.ports[p] =
      l.foldl (fun x f => x.send (macOf p.val s.fab.modid) (s.macTo p m) (bytes f)) s.fab.ports[p] := by
  induction l generalizing s with
  | nil => rfl
  | cons f l ih =>
    have modid : (s.portSend p m (bytes f)).fab.modid = s.fab.modid := rfl
    have port : (s.portSend p m (bytes f)).fab.ports[p] = s.fab.ports[p].send (macOf p.val s.fab.modid) (s.macTo p m) (bytes f) :=
      State.updPort_same ..
    rw [List.foldl_cons, ih, State.portSend_macTo, modid, port, List.foldl_cons]

/-! ## Sending and sending again (R305 to R307) -/

/-- A fault of a station's job leaves what its engines have noted. -/
theorem State.instrFault_station (s : State) (st : Fin 16) (c : Byte) :
    (s.instrFault st c).stations[st] = s.stations[st] ∨ (s.instrFault st c).stations[st] = s.stations[st].stop := by
  unfold State.instrFault
  split
  · exact State.abortJob_station ..
  · exact .inl rfl

theorem State.seLogged_fault (s : State) (st : Fin 16) (e : Fin 4) (code : Byte) (idx : Nat) :
    (s.seLogged st e code idx).stations[st].ses4[e].faulted = true ∧ (s.seLogged st e code idx).stations[st].ses4[e].code = code := by
  rw [State.seLogged, State.seFault]
  obtain h | h := State.instrFault_station _ st code <;> rw [h, State.updStn_same]
  · rw [vupd_same]
    exact ⟨rfl, rfl⟩
  · simp only [Station.stop, Fin.getElem_fin, Vector.getElem_map]
    rw [← Fin.getElem_fin, vupd_same]
    exact ⟨rfl, rfl⟩

section
variable {s : State} (hs : s.Specified)
include hs

theorem execSendDataFrame_sends {st : Fin 16} {e : Fin 4} {r : RDesc} {p : Fin 14} {b : List Byte}
    (hrun : s.jobRuns s.stations[st] = true) (hsend : s.sendable st e = some (r, p, b)) :
    let d := dscDst r.bytes
    let y := s.slotAt s.stations[st].ses.toNat d.handle
    let h : FrameHdr := {
      ftype := 1
      dmod := d.sel
      ktag := s.sesTag s.stations[st].ses.toNat
      dses := y.dses.toNat
      depoch := y.depoch.toNat
      sses := s.stations[st].ses.toNat
      sepoch := s.stations[st].epoch.toNat
      dstn := y.dstn.val
      sstn := st.val
      slot := d.handle
      seq := ((s.session s.stations[st].ses.toNat).alive.toList.getD d.handle (0, 0)).1.toNat
      len := b.length }
    ∃ u : State, execSendDataFrame st e s = .next (u.portSend p (BitVec.ofNat 10 d.sel)
        (mkFrame (s.fverTo (BitVec.ofNat 10 d.sel)) s.fab.modid.toNat h b)) ∧ u.fab = s.fab ∧ u.mem = s.mem ∧
      u.stations = (s.updStn st fun t => t.updSe e fun x => { x with
        run := x.run.map fun y => if y.xid = r.xid ∧ y.idx = r.idx then { y with sent := y.sent + b.length } else y }).stations := by
  rw [execSendDataFrame, occurs_of hs (by rw [hrun, hsend]; rfl)]
  dsimp only
  rw [hsend]
  exact ⟨_, rfl, rfl, rfl, rfl⟩

section
variable {ses : Nat} {slot : Fin 8} {st : Fin 16} {f : SentFrame} {rest : List SentFrame}
  (hst : (s.slotAt ses slot.val).txStn = some st) (hun : (s.slotAt ses slot.val).unacked = f :: rest)
include hst hun

theorem execEndToEndRetransmit_repeats {p : Fin 14} (htries : f.tries < 4) (hp : (s.slotAt ses slot.val).txPort = some p)
    (hup : s.fab.ports[p].isUp = true) :
    ∃ u : State, execEndToEndRetransmit ses slot s = .next ((s.slotAt ses slot.val).unacked.foldl (fun t f => t.portSend p
      ((s.slotAt ses slot.val).txPeer.getD 0) f.bytes) u) ∧ u.fab = s.fab ∧ u.stations = s.stations := by
  have few : ¬4 ≤ f.tries := Nat.not_le.mpr htries
  rw [execEndToEndRetransmit, occurs_of hs (by rw [hst, hun]; rfl), hst, hp, hun]
  refine ⟨s.updSlot ses slot.val fun y => { y with unacked := y.unacked.map fun f => { f with tries := f.tries + 1 } }, ?_, rfl, rfl⟩
  dsimp only [List.head?_cons]
  rw [if_neg few, if_pos hup]

theorem execEndToEndRetransmit_gives_up (htries : 4 ≤ f.tries) :
    execEndToEndRetransmit ses slot s = .next (s.seLogged st f.e Code.linkLost f.idx) := by
  rw [execEndToEndRetransmit]
  refine (occurs_of hs (by rw [hst, hun]; rfl)).trans ?_
  rw [hst, hun]
  exact congrArg _ (if_pos htries)
end
end

/-! ## HOLD (R307, R315) -/

theorem State.sendTo_quiet (s : State) (h : FrameHdr) (b : List Byte) (q : Fin 14) :
    (s.sendTo h b).fab.ports[q].quiet = s.fab.ports[q].quiet := by
  unfold State.sendTo
  split
  · exact State.sendBy_quiet ..
  · rfl

theorem State.sendRx_quiet (s : State) (ses slot : Nat) (h : FrameHdr) (q : Fin 14) :
    (s.sendRx ses slot h).fab.ports[q].quiet = s.fab.ports[q].quiet := by
  unfold State.sendRx
  split
  · exact State.sendBy_quiet ..
  · rfl

/-- HOLD for every frame that waits at a port. -/
def State.holdPort (s : State) (p : Fin 14) : State := s.fab.ports[p].inbox.foldl (fun s r => s.holdOne p r.bytes) s

theorem State.holdPort_empty {s : State} {p : Fin 14} (h : s.fab.ports[p].inbox = []) : s.holdPort p = s := by
  rw [State.holdPort, h]
  rfl

theorem State.holdPorts_empty {s : State} {l : List (Fin 14)} (h : ∀ p ∈ l, s.fab.ports[p].inbox = []) :
    l.foldl State.holdPort s = s := by
  induction l with
  | nil => rfl
  | cons p l ih =>
    rw [List.foldl_cons, State.holdPort_empty (h p List.mem_cons_self), ih fun q hq => h q (List.mem_cons_of_mem _ hq)]

theorem State.holdPort_one {s : State} {p : Fin 14} {r : RxFrame} (h : s.fab.ports[p].inbox = [r]) :
    s.holdPort p = s.holdOne p r.bytes := by
  rw [State.holdPort, h]
  rfl

theorem State.holdOne_quiet (s : State) (p q : Fin 14) (b : List Byte) :
    (s.holdOne p b).fab.ports[q].quiet = s.fab.ports[q].quiet := by
  unfold State.holdOne
  dsimp only
  split
  · split
    · exact State.sendRx_quiet ..
    · exact State.sendTo_quiet ..
  · rfl

/-- Where one frame waits at one port, that frame is answered. -/
theorem execHoldTimer_one {s : State} {p : Fin 14} {r : RxFrame} (hs : s.Specified) (hb : s.boot.state = .activating)
    (hothers : ∀ q, q ≠ p → s.fab.ports[q].inbox = []) (hone : s.fab.ports[p].inbox = [r]) :
    execHoldTimer s = .next (s.holdOne p r.bytes) := by
  have row : execHoldTimer s = .next ((List.finRange 14).foldl State.holdPort s) := occurs_of hs (by rw [hb]; rfl)
  obtain ⟨before, after, split⟩ := List.append_of_mem (List.mem_finRange p)
  have once : (before ++ p :: after).Nodup := split ▸ List.nodup_finRange 14
  obtain ⟨-, hp, apart⟩ := List.nodup_append.mp once
  have others (q : Fin 14) (hq : q ≠ p) : (s.holdOne p r.bytes).fab.ports[q].inbox = [] :=
    (Port.received_of_quiet (State.holdOne_quiet ..)).2.2.trans (hothers q hq)
  rw [row, split, List.foldl_append, List.foldl_cons,
    State.holdPorts_empty fun q hq => hothers q fun h => apart q hq p List.mem_cons_self h, State.holdPort_one hone,
    State.holdPorts_empty fun q hq => others q fun h => (List.nodup_cons.mp hp).1 (h ▸ hq)]

theorem State.holdOne_frame {s : State} {p : Fin 14} {b : List Byte} (hgood : s.frameGood p b = true)
    (hhere : s.foreign p (s.fab.ports[p].dev b) = false)
    (htype : (frameHdr (s.fab.ports[p].dev b)).ftype = 1 ∨ (frameHdr (s.fab.ports[p].dev b)).ftype = 5) :
    s.holdOne p b = (let h := frameHdr (s.fab.ports[p].dev b)
      let g := { h.answer (frameSmod (s.fab.ports[p].dev b)) 7 with seq := h.seq }
      if h.ftype = 1 then s.sendRx h.dses h.slot g else s.sendTo g []) := by
  rw [State.holdOne]
  dsimp only
  rw [hgood, hhere]
  obtain h | h := htype <;> rw [h] <;> rfl

/-! ## Ethernet frames (R313) -/

theorem natLe_one_append (x : Nat) (l : List Byte) : natLe 1 x ++ l = BitVec.ofNat 8 x :: l := rfl

theorem field_second (a b : Byte) (l : List Byte) : field (a :: b :: l) 1 1 = b.toNat := by simp [field, slice, leNat]

theorem mkFrame_prefix (v m : Nat) (h : FrameHdr) (b : List Byte) :
    ∃ rest, mkFrame v m h b = natLe 1 v ++ (natLe 1 h.ftype ++ rest) := by
  unfold mkFrame
  simp only [List.append_assoc]
  exact ⟨_, rfl⟩

theorem field_mkFrame_ftype (v m : Nat) (h : FrameHdr) (b : List Byte) : field (mkFrame v m h b) 1 1 = h.ftype % 256 := by
  obtain ⟨rest, head⟩ := mkFrame_prefix v m h b
  rw [head, natLe_one_append, natLe_one_append, field_second, BitVec.toNat_ofNat]

/-- An Ethernet frame of a class that nothing holds leaves at once. -/
theorem Port.send_eth {x : Port} {src dst frame : List Byte} (heth : x.eth = true)
    (hfree : x.held (classOfType (field frame 1 1)) = false) :
    x.send src dst frame = { x with sentFrames := x.sentFrames ++ [ethFrame dst src (x.pcp (classOfType (field frame 1 1)))
      x.vid.toNat x.etype.toNat frame] } := by
  have put (b : List Byte) : x.put (classOfType (field frame 1 1)) b = { x with sentFrames := x.sentFrames ++ [b] } :=
    if_neg (ne_true_of_eq_false hfree)
  exact (if_pos heth).trans (put _)

theorem Port.flush_free (x : Port) (h : x.paused = 0) :
    x.flush = { x with heldFrames := [], sentFrames := x.sentFrames ++ x.heldFrames.map Prod.snd } := by
  have go : ∀ (l : List (Nat × List Byte)) (y : Port), y.paused = 0 → y.heldFrames = [] →
      l.foldl (fun x f => x.put f.1 f.2) y = { y with sentFrames := y.sentFrames ++ l.map Prod.snd } := by
    intro l
    induction l with
    | nil => exact fun y _ _ => by rw [List.map_nil, List.append_nil]; rfl
    | cons f l ih =>
      intro y hp hh
      have free : y.held f.1 = false := by rw [Port.held, hp, hh]; simp [bitAt]
      have put : y.put f.1 f.2 = { y with sentFrames := y.sentFrames ++ [f.2] } := by rw [Port.put, free]; rfl
      rw [List.foldl_cons, put, ih { y with sentFrames := y.sentFrames ++ [f.2] } hp hh, List.map_cons, List.append_assoc]
      rfl
  exact go _ _ h rfl

section
variable {s : State} {p : Fin 14} (hs : s.Specified) (hup : s.fab.ports[p].isUp = true) (heth : s.fab.ports[p].eth = true)
include hs hup heth

theorem execEthernetCapBroadcast_sends (ha : s.fabAlive = true) :
    execEthernetCapBroadcast p s = .next ((s.updPort p fun x => x.send (macOf p.val s.fab.modid) macAll
      (mkFrame s.fabVer s.fab.modid.toNat { ftype := 8, dmod := Config.freeNat s.fresh % 1024, len := 16 }
        (capBytes s.ownCap))).tick) := by
  rw [execEthernetCapBroadcast, occurs_of hs (by rw [ha, hup, heth]; rfl), State.capOut]
  dsimp only
  rw [heth]
  rfl

theorem execPfcFrame_of (pr : BitVec 8) (pause : Bool) : execPfcFrame p pr pause s = .next (s.updPort p fun x =>
    if pause then { x with paused := x.paused ||| pr } else { x with paused := x.paused &&& ~~~pr }.flush) :=
  occurs_of hs (by rw [hup, heth]; rfl)
end

/-- Settles O44: a flit changes what a port has received by its own bytes only, a send changes its engine and its port, and what
leaves a port moves no route. -/
theorem trafficOfPorts : Obligations.TrafficOfPorts := by
  intro p s hs
  dsimp only
  refine ⟨fun b hup heth => ⟨fun hbad => ?discard, fun hgood hkind hseq heof => ?whole, fun hgood hkind hseq heof => ?part⟩,
    fun st e r b hrun hsend => ?send, fun ses slot st f rest hst hun => ⟨fun htries hp hup => ?again, fun htries => ?lost⟩,
    fun r hb hothers hone hgood hhere => ?hold, fun ha hup heth hfree => ?cap,
    fun pr hup heth => ⟨execPfcFrame_of hs hup heth pr true, execPfcFrame_of hs hup heth pr false, fun hclear => ?pfc⟩⟩
  case discard => exact execFlitReceive_discards hs hup heth (Port.flitIn_discards hbad)
  case whole =>
    obtain ⟨t, row, ht⟩ := execFlitReceive_takes hs hup heth hgood hkind hseq
    obtain ⟨hlast, hpart, hinbox⟩ := Port.received_of_quiet ht
    obtain ⟨last, part, inbox⟩ := Port.flitTake_data (x := s.fab.ports[p]) (b := _) hkind
    rw [heof] at part inbox
    exact ⟨t, row, hlast.trans (last.trans (congrArg some hseq)), hinbox.trans inbox, by rw [hpart]; exact part⟩
  case part =>
    obtain ⟨t, row, ht⟩ := execFlitReceive_takes hs hup heth hgood hkind hseq
    obtain ⟨hlast, hpart, hinbox⟩ := Port.received_of_quiet ht
    obtain ⟨last, part, inbox⟩ := Port.flitTake_data (x := s.fab.ports[p]) (b := _) hkind
    rw [heof] at part inbox
    exact ⟨t, row, hlast.trans (last.trans (congrArg some hseq)), hinbox.trans inbox, by rw [hpart]; exact part⟩
  case send =>
    obtain ⟨u, row, hfab, hmem, hstn⟩ := execSendDataFrame_sends hs hrun hsend
    refine ⟨_, row, ?_, State.portSend_congr hfab .., ?_, hmem⟩
    · rw [State.portSend_stations, hstn, State.updStn_same, Station.updSe, vupd_same]
    · rw [State.portSend_stations, hstn, State.updStn_same]
      rfl
  case again =>
    obtain ⟨u, row, hfab, hstn⟩ := execEndToEndRetransmit_repeats hs hst hun htries hp hup
    refine ⟨_, row, (foldl_same (g := State.stations) (fun _ _ => State.portSend_stations ..) _ _).trans hstn, ?_⟩
    refine (State.portSend_all SentFrame.bytes p _ _ u).trans ?_
    rw [hfab, State.macTo_congr (s := s) (t := u) (fun q => .of_eq (by rw [hfab])) (by rw [hfab])]
  case lost =>
    obtain ⟨hfault, hcode⟩ := s.seLogged_fault st f.e Code.linkLost f.idx
    refine ⟨_, execEndToEndRetransmit_gives_up hs hst hun htries, hfault, hcode, ?_⟩
    exact State.seLogged_keeps.same .fab (by decide)
  case hold =>
    have row := execHoldTimer_one hs hb hothers hone
    refine ⟨fun h => row.trans (congrArg _ ?_), fun h => row.trans (congrArg _ ?_)⟩
    · rw [State.holdOne_frame hgood hhere (.inl h)]
      exact if_pos h
    · rw [State.holdOne_frame hgood hhere (.inr h)]
      exact if_neg (by rw [h]; decide)
  case cap =>
    refine ⟨_, Config.freeNat s.fresh % 1024, execEthernetCapBroadcast_sends hs hup heth ha, ?_, rfl⟩
    rw [State.tick_fab, State.updPort_same, Port.send_eth heth (by rw [field_mkFrame_ftype]; exact hfree), field_mkFrame_ftype]
    rfl
  case pfc =>
    rw [Port.flush_free _ hclear, hclear]

end Sys2Proof.Machine
end

section
/-! The other frames (R303, R305, R306, R308 to R313): what each type of frame does once it has left the port's buffer, and frames that are
relayed or dropped. -/

namespace Sys2Proof.Machine

/-! ## A frame that has left its buffer -/

/-- The frame and its credits leave the port; the link and the counters stay. -/
theorem Port.takeFrame_link (x : Port) (frame : List Byte) :
    (x.takeFrame frame).SameLink x ∧ (x.takeFrame frame).drop = x.drop := by
  unfold Port.takeFrame
  split
  · exact ⟨.of_eq rfl, rfl⟩
  · dsimp only
    split <;> exact ⟨⟨rfl, rfl, rfl, rfl, rfl, rfl⟩, rfl⟩

section
variable (s : State) (p : Fin 14) (frame : List Byte)

theorem State.takeFrame_link (q : Fin 14) : ((s.takeFrame p frame).fab.ports[q]).SameLink s.fab.ports[q] := by
  rw [State.takeFrame]
  by_cases hq : q = p
  · rw [hq, State.updPort_same]
    exact (Port.takeFrame_link ..).1
  · rw [State.updPort_ne _ hq]
    exact .of_eq rfl

theorem State.takeFrame_hashPort : (s.takeFrame p frame).hashPort = s.hashPort := by
  have routes : (s.takeFrame p frame).routes = s.routes := State.routes_congr (s.takeFrame_link p frame) rfl
  funext smod dmod ses slot
  rw [State.hashPort, State.hashPort, routes]
end

/-! ## Frames of the streams (R305, R306, R309) -/

theorem State.slotAt_updSlot {s : State} {ses slot : Nat} {y : Session} (f : StreamSlot → StreamSlot)
    (hses : s.crown.sessions.get? ses = some y) (hslot : slot < 8) : (s.updSlot ses slot f).slotAt ses slot = f (s.slotAt ses slot) := by
  rw [State.slotAt, State.updSlot, State.session_updSession _ hses, State.slotAt, State.session_eq, hses]
  simp [vupdN, hslot]

theorem State.sendLanded_crown (s : State) (st : Fin 16) (f : SentFrame) : (s.sendLanded st f).crown = s.crown := rfl

theorem State.sendLanded_mem (s : State) (st : Fin 16) (f : SentFrame) : (s.sendLanded st f).mem = s.mem := rfl

theorem State.sendLanded_other {st st' : Fin 16} (h : st' ≠ st) (s : State) (f : SentFrame) :
    (s.sendLanded st f).stations[st'] = s.stations[st'] := State.updStn_ne _ h

section
variable {s : State} {p : Fin 14} {frame : List Byte} {h : FrameHdr} (hh : frameHdr (s.fab.ports[p].dev frame) = h)
include hh

theorem execCreditFrame_takes (hm : s.Meets p frame 2) : execCreditFrame p frame s = .next (match s.sessionByTag h.ktag with
    | none => (s.takeFrame p frame).updPort p fun x => { x with stale := wrapAdd x.stale 1 }
    | some ses => (s.takeFrame p frame).updSlot ses h.slot fun x =>
      { x with
        dses := BitVec.ofNat 14 h.sses
        dstn := ⟨h.sstn % 16, Nat.mod_lt _ (by decide)⟩
        depoch := BitVec.ofNat 16 h.sepoch
        credit := x.credit ++ [h.offset % 2 ^ 32] }) := by
  rw [execCreditFrame, frameRow_of hm rfl, hh]
  rfl

theorem execAckFrame_releases (hm : s.Meets p frame 3) (hacc : s.frameAccepted h = true) :
    ∃ done : List SentFrame, execAckFrame p frame s = .next (done.foldl (fun s f => s.sendLanded h.stn f)
      ((s.takeFrame p frame).updSlot h.dses h.slot fun x =>
        { x with unacked := x.unacked.filter fun f => !ackCovers (BitVec.ofNat 32 h.seq) f.seq })) := by
  rw [execAckFrame, frameRow_of hm rfl, hh, State.takeFrame_frameAccepted, if_pos hacc]
  exact ⟨_, rfl⟩

theorem execStaleFrame_ends {f : SentFrame} {rest : List SentFrame} (hm : s.Meets p frame 4) (hacc : s.frameAccepted h = true)
    (hrun : s.jobRuns s.stations[h.stn] = true) (hun : (s.slotAt h.dses h.slot).unacked = f :: rest) :
    execStaleFrame p frame s =
      .next (((s.takeFrame p frame).countStale h.dses).seFault h.stn f.e Code.roleEpochStale f.idx) := by
  have runs : (s.takeFrame p frame).jobRuns (s.takeFrame p frame).stations[h.stn] = true := hrun
  have unacked : ((s.takeFrame p frame).slotAt h.dses h.slot).unacked = f :: rest := hun
  rw [execStaleFrame, frameRow_of hm rfl, hh, State.takeFrame_frameAccepted, hacc, runs, unacked]
  rfl

omit hh in
theorem execHoldFrame_takes (hm : s.Meets p frame 7) : execHoldFrame p frame s = .next (s.takeFrame p frame) := frameRow_of hm rfl

/-! ## PEER reads (R310, R311) -/

theorem execReadFrame_replies (hm : s.Meets p frame 5) (hb : s.boot.state ≠ .activating) :
    execReadFrame p frame s = .next (
      let smod := frameSmod (s.fab.ports[p].dev frame)
      let a := (s.takeFrame p frame).readAnswer h smod
      ((a.1.ioMoved a.2.2.length).tick).sendTo
        { h.answer smod 6 with status := a.2.1.toNat, seq := h.seq, len := a.2.2.length } a.2.2) := by
  rw [execReadFrame, answerRow_of hm hb rfl, hh]
  simp only [State.takeFrame_dev]

theorem execRdataFrame_completes {r : PeerRead} (hm : s.Meets p frame 6)
    (hr : (s.fab.reads.find? fun r => r.tag.toNat == h.seq) = some r) (hopen : s.readOpen r = true) (hst : h.status = 0)
    (hlen : h.len = r.len) :
    execRdataFrame p frame s = .next ({ s.takeFrame p frame with fab := { (s.takeFrame p frame).fab with
      reads := (s.takeFrame p frame).fab.reads.filter fun x => x.tag != r.tag } }.gotData r.stn r.e r.xid r.idx r.off
        (framePayload (s.fab.ports[p].dev frame))) := by
  have found : ((s.takeFrame p frame).fab.reads.find? fun r => r.tag.toNat == h.seq) = some r := hr
  have still : ∀ l : List PeerRead, { s.takeFrame p frame with fab := { (s.takeFrame p frame).fab with reads := l } }.readOpen r = true :=
    fun _ => hopen
  rw [execRdataFrame, frameRow_of hm rfl, hh]
  dsimp only
  rw [found]
  dsimp only
  rw [still, if_neg (by decide), if_pos (show h.status = Code.ok.toNat from hst), if_pos hlen, State.takeFrame_dev]
end

theorem State.length_memBytes (s : State) (ma n : Nat) : (s.memBytes ma n).length = n := by
  unfold State.memBytes
  split
  · rw [List.length_map, List.length_range]
  · exact Mem.length_readN ..

/-- A READ within an exported buffer, from the module it was made for, is answered with the stored bytes. -/
theorem State.readAnswer_data {s : State} {h : FrameHdr} {smod : Nat} {x : Expo} {b : Buffer}
    (hx : s.crown.exports.get? h.expo = some x) (hb : s.crown.buffers.get? x.buf = some b) (hpeer : x.peer.toNat = smod)
    (hmin : 64 ≤ h.len) (hmax : h.len ≤ 4096) (hin : h.offset + h.len ≤ b.len)
    (hclean : s.poisonIn ((if b.cv then b.v1 else b.v0) + h.offset) h.len = []) :
    s.readAnswer h smod = (s, Code.ok, s.memBytes ((if b.cv then b.v1 else b.v0) + h.offset) h.len) := by
  have good : ¬(x.peer.toNat ≠ smod ∨ b.len < h.offset + h.len ∨ h.len < 64 ∨ 4096 < h.len) := by omega
  rw [State.readAnswer, hx]
  dsimp only
  rw [hb]
  dsimp only
  rw [if_neg good, State.memGet_clean hclean]

theorem State.readAnswer_none {s : State} {h : FrameHdr} (smod : Nat) (hx : s.crown.exports.get? h.expo = none) :
    s.readAnswer h smod = (s, Code.boundFault, []) := by
  rw [State.readAnswer, hx]

/-! ## Capability records (R312, R313) -/

theorem ofNat_of_toNat {w n : Nat} {x : BitVec w} (h : x.toNat = n) : BitVec.ofNat w n = x := by
  rw [← h, BitVec.ofNat_toNat, BitVec.setWidth_eq]

section
variable {s : State} {p : Fin 14} {frame : List Byte} {rc : CapRecord}
  (hrc : capOfBytes (framePayload (s.fab.ports[p].dev frame)) = rc) (hm : s.Meets p frame 8) (hid : rc.modid ≠ s.fab.modid)
include hrc hm hid

/-- A module of the VLAN sends its own record. -/
theorem execCapFrame_ethernet (hsmod : BitVec.ofNat 10 (frameSmod (s.fab.ports[p].dev frame)) = rc.modid)
    (heth : s.fab.ports[p].eth = true) : execCapFrame p frame s = .next ((s.takeFrame p frame).updPort p fun x => { x with
      peers := x.peers.filter (fun r => r.modid != rc.modid) ++ [rc]
      pairs := x.pairs.filter (· != (rc.modid, field frame 9 1)) ++ [(rc.modid, field frame 9 1)] }) := by
  obtain ⟨-, eth, -, -, -, -⟩ := s.takeFrame_link p frame p
  have other : ¬rc.modid = (s.takeFrame p frame).fab.modid := hid
  rw [execCapFrame, frameRow_of hm rfl]
  dsimp only
  rw [State.takeFrame_dev, hrc, if_neg other, hsmod, if_pos rfl, eth, if_pos heth]

/-- A neighbour sends its own record again. -/
theorem execCapFrame_neighbour (hsmod : BitVec.ofNat 10 (frameSmod (s.fab.ports[p].dev frame)) = rc.modid)
    (heth : s.fab.ports[p].eth = false) (hknown : (s.fab.ports[p].peers.any fun r => r.modid == rc.modid) = true) :
    ∃ u : State, execCapFrame p frame s = .next (u.relayCap rc) ∧ u.fab.ports[p].peers = [rc] ∧
      u.fab.ports[p].ver = BitVec.ofNat 8 (min s.fabVer rc.ver.toNat) := by
  obtain ⟨-, eth, -, -, peers, -⟩ := s.takeFrame_link p frame p
  have other : ¬rc.modid = (s.takeFrame p frame).fab.modid := hid
  rw [execCapFrame, frameRow_of hm rfl]
  dsimp only
  rw [State.takeFrame_dev, hrc, if_neg other, hsmod, if_pos rfl, eth, heth, if_neg Bool.false_ne_true, peers, if_pos hknown]
  refine ⟨_, rfl, ?_⟩
  rw [State.updPort_same]
  exact ⟨rfl, rfl⟩

/-- A neighbour relays the record of another module. -/
theorem execCapFrame_relayed {smod : BitVec 10} (hsmod : BitVec.ofNat 10 (frameSmod (s.fab.ports[p].dev frame)) = smod)
    (hother : rc.modid ≠ smod) (hknown : (s.fab.ports[p].peers.any fun r => r.modid == smod) = true) :
    ∃ l : List (BitVec 10 × CapRecord), execCapFrame p frame s = .next { s.takeFrame p frame with
      fab := { (s.takeFrame p frame).fab with relayed := l ++ [(smod, rc)] } } := by
  obtain ⟨-, -, -, -, peers, -⟩ := s.takeFrame_link p frame p
  have other : ¬rc.modid = (s.takeFrame p frame).fab.modid := hid
  rw [execCapFrame, frameRow_of hm rfl]
  dsimp only
  rw [State.takeFrame_dev, hrc, if_neg other, hsmod, if_neg hother, peers, if_pos hknown]
  exact ⟨_, rfl⟩
end

/-! ## Frames for another module, and frames that are dropped (R303, R312) -/

section
variable {s : State} {p : Fin 14} {frame : List Byte} (hs : s.Specified) (hat : s.fab.ports[p].frameAt frame = true)
include hs hat

theorem execFrameRelay_relays (hgood : s.frameGood p frame = true) (hfor : s.foreign p (s.fab.ports[p].dev frame) = true) :
    execFrameRelay p frame s = .next ((s.takeFrame p frame).relayFrame p (s.fab.ports[p].dev frame)) := by
  rw [execFrameRelay, frameRow, occurs_of hs (by rw [hat, hgood, hfor, beq_self_eq_true]; rfl)]
  dsimp only
  rw [hgood, hfor]
  rfl

theorem execReservedFtypeFrame_drops (htype : field (s.fab.ports[p].dev frame) 1 1 = 0 ∨ 8 < field (s.fab.ports[p].dev frame) 1 1) :
    execReservedFtypeFrame p frame s = .next ((s.takeFrame p frame).dropFrame p) := by
  rw [execReservedFtypeFrame]
  refine occurs_of hs ?_
  rw [hat]
  obtain h | h := htype
  · rw [h]
    rfl
  · rw [decide_eq_true h]
    simp
end

theorem State.relayFrame_spent {s : State} (p : Fin 14) {b : List Byte} (h : frameHops b = 0) : s.relayFrame p b = s.dropFrame p :=
  if_pos h

theorem State.relayFrame_onward {s : State} (p : Fin 14) {q : Fin 14} {b : List Byte} (h : frameHops b ≠ 0)
    (hq : s.hashPort (BitVec.ofNat 10 (frameSmod b)) (BitVec.ofNat 10 (frameHdr b).dmod) (frameHdr b).sses (frameHdr b).slot =
      some q) : s.relayFrame p b = s.portSend q (BitVec.ofNat 10 (frameHdr b).dmod) (relayed b) := by
  rw [State.relayFrame, if_neg h, hq]

theorem State.dropFrame_fab (s : State) (p : Fin 14) :
    (s.dropFrame p).fab = (s.updPort p fun x => { x with drop := satAdd x.drop 1 }).fab := State.noteIf_fab ..

theorem State.dropFrame_stations (s : State) (p : Fin 14) : (s.dropFrame p).stations = s.stations := State.noteIf_stations ..

theorem State.dropFrame_mem (s : State) (p : Fin 14) : (s.dropFrame p).mem = s.mem := State.noteIf_mem ..

/-- Settles O46: a frame that leaves its buffer changes no route and takes its type's one effect. -/
theorem framesTaken : Obligations.FramesTaken := by
  intro p frame s
  dsimp only
  refine ⟨fun hm => ⟨fun hses => ?dropped, fun ses hses => ?credit⟩, fun y hm hacc hy => ?ack,
    fun f rest hm hacc hrun hun => execStaleFrame_ends rfl hm hacc hrun hun,
    fun hm hb => ⟨fun x b hx hbuf hpeer hmin hmax hin hclean => ?read, fun hx => ?unexported⟩,
    fun r hm hr hopen hst hlen => execRdataFrame_completes rfl hm hr hopen hst hlen, execHoldFrame_takes,
    fun hm hid => ⟨fun hsmod heth => ?ethernet, fun hsmod heth hknown => ?fabric, fun hsmod hknown => ?relayed⟩,
    fun hs hat => ⟨fun hgood hfor => ⟨fun q hhops hq => ?onward, fun hhops => ?spent⟩, fun htype => ?reserved⟩⟩
  case dropped =>
    refine (execCreditFrame_takes rfl hm).trans ?_
    rw [hses]
  case credit =>
    refine (execCreditFrame_takes rfl hm).trans ?_
    rw [hses]
  case ack =>
    obtain ⟨done, row⟩ := execAckFrame_releases rfl hm hacc
    refine ⟨_, row, ?_, ?_, fun st hst => ?_⟩
    · have slots := foldl_same (g := State.crown) (fun t f => State.sendLanded_crown t (frameHdr (s.fab.ports[p].dev frame)).stn f)
      rw [State.slotAt, State.session_eq, slots, ← State.session_eq, ← State.slotAt,
        State.slotAt_updSlot (s := s.takeFrame p frame) _ hy (frameHdr_slot_lt _)]
      rfl
    · exact foldl_same (g := State.mem) (fun t f => State.sendLanded_mem t _ f) _ _
    · exact foldl_same (g := fun t => t.stations[st]) (fun t f => State.sendLanded_other hst t f) _ _
  case read =>
    refine (execReadFrame_replies rfl hm hb).trans ?_
    dsimp only
    rw [State.readAnswer_data (s := s.takeFrame p frame) hx hbuf hpeer hmin hmax hin hclean]
    dsimp only
    rw [State.length_memBytes]
    rfl
  case unexported =>
    refine (execReadFrame_replies rfl hm hb).trans ?_
    dsimp only
    rw [State.readAnswer_none (s := s.takeFrame p frame) _ hx]
    rfl
  case ethernet => exact execCapFrame_ethernet rfl hm hid (ofNat_of_toNat hsmod) heth
  case fabric =>
    obtain ⟨u, row, hpeers, hver⟩ := execCapFrame_neighbour rfl hm hid (ofNat_of_toNat hsmod) heth hknown
    obtain ⟨-, -, ver, -, peers, -⟩ := Port.link_of_quiet (State.relayCap_quiet u p _)
    refine ⟨_, row, peers.trans hpeers, ?_⟩
    rw [ver, hver]
    exact (BitVec.toNat_ofNat ..).trans (Nat.mod_eq_of_lt (by omega))
  case relayed =>
    obtain ⟨r, hr, hid'⟩ := List.any_eq_true.mp hknown
    have sender := ofNat_of_toNat (beq_iff_eq.mp hid')
    obtain ⟨l, row⟩ := execCapFrame_relayed rfl hm hid sender (fun h => hsmod (by rw [h]; exact beq_iff_eq.mp hid'))
      (List.any_eq_true.mpr ⟨r, hr, beq_self_eq_true _⟩)
    refine ⟨_, row, ?_, rfl⟩
    rw [sender]
    exact List.mem_append_right _ List.mem_cons_self
  case onward =>
    refine (execFrameRelay_relays hs hat hgood hfor).trans (congrArg _ (State.relayFrame_onward p hhops ?_))
    rw [State.takeFrame_hashPort]
    exact hq
  case spent => exact (execFrameRelay_relays hs hat hgood hfor).trans (congrArg _ (State.relayFrame_spent p hhops))
  case reserved =>
    refine ⟨_, execReservedFtypeFrame_drops hs hat htype, ?_, ?_, State.dropFrame_stations .., State.dropFrame_mem ..⟩
    · rw [State.dropFrame_fab, State.updPort_same, State.takeFrame, State.updPort_same]
      exact congrArg (satAdd · 1) (Port.takeFrame_link ..).2
    · rw [State.dropFrame_fab, State.updPort_same, State.takeFrame, State.updPort_same]

end Sys2Proof.Machine
end

section
/-! The error log, the snapshots and the quarantine (R373, R380, R383, R385): the ring's next entry, the records of one freeze edge, and what
a pass makes of each checked engine. -/

namespace Sys2Proof.Machine

/-! ## The error log (R383) -/

theorem State.msi_hostOut_open {s : State} {f : Fin 64} {v : Nat} (h : s.mbx[f].masked v = false) :
    (s.msi f v).hostOut = s.hostOut ++ [.msix f v] := by
  rw [State.msi_open h, State.toHost_hostOut]

theorem execErrorLogWrite_moves {s : State} {e : LogEvt} {rest : List LogEvt} (hp : s.boot.state ≠ .off) (hq : s.mon.queue = e :: rest) :
    execErrorLogWrite s = .next ({ s with
      mon := { s.mon with
        queue := rest
        next := s.mon.next + 1
        ring := s.mon.ring.put (s.mon.next.toNat % 4096) (s.mon.next, e) }
      power := { s.power with newEntry := true } }.msi 0 2) := by
  rw [execErrorLogWrite, if_neg hp, State.logWrite, hq]

/-! ## Snapshots (R380, Table 22.2) -/

/-- The record of a unit for a command. -/
def State.snapRecord (s : State) (q : SnapReq) (u : Nat) : List Byte :=
  (s.mon.units.toList.getD u MonUnit.reset).record s.grade u q.num

/-- One record leaves for the host and into BAR0. -/
def State.snapOne (q : SnapReq) (s : State) (x : Nat × Nat) : State :=
  { s with mon := { s.mon with area := s.mon.area.put x.1 (s.snapRecord q x.1) } }.toHost
    (.write q.ref.f (q.addr + 256 * x.2) (s.snapRecord q x.1))

theorem State.snapWrite_eq (s : State) (q : SnapReq) :
    s.snapWrite q = (bitsSet 64 q.mask.toNat).zipIdx.foldl (State.snapOne q) s := rfl

/-- Records that leave change no unit: each is that of the freeze edge. -/
theorem State.snapOnes (q : SnapReq) (l : List (Nat × Nat)) (s : State) :
    (l.foldl (State.snapOne q) s).hostOut = s.hostOut ++ l.map (fun x => .write q.ref.f (q.addr + 256 * x.2) (s.snapRecord q x.1)) ∧
    (l.foldl (State.snapOne q) s).mon = { s.mon with
      area := l.foldl (fun t x => t.put x.1 (s.snapRecord q x.1)) s.mon.area } ∧
    (l.foldl (State.snapOne q) s).crown = s.crown := by
  induction l generalizing s with
  | nil => exact ⟨(List.append_nil _).symm, rfl, rfl⟩
  | cons x l ih =>
    have records : (s.snapOne q x).snapRecord q = s.snapRecord q := rfl
    obtain ⟨hout, hmon, hcrown⟩ := ih (s.snapOne q x)
    rw [List.foldl_cons, hout, hmon, hcrown, records]
    exact ⟨List.append_assoc .., rfl, rfl⟩

/-- Puts at each place of a list leave there what belongs there. -/
theorem foldl_put_listed {α β : Type} {key : β → Nat} (val : Nat → α) {l : List β} {k : Nat} (h : ∃ x ∈ l, key x = k) (t : Tab α) :
    (l.foldl (fun t x => Tab.put t (key x) (val (key x))) t).get? k = some (val k) := by
  induction l generalizing t with
  | nil => simp at h
  | cons x l ih =>
    rw [List.foldl_cons]
    by_cases hl : ∃ y ∈ l, key y = k
    · exact ih hl _
    · have hx : key x = k := by
        obtain ⟨y, hy, hk⟩ := h
        obtain rfl | hy := List.mem_cons.mp hy
        · exact hk
        · exact absurd ⟨y, hy, hk⟩ hl
      rw [foldl_put_get? l fun y hy hk => hl ⟨y, hy, hk.symm⟩, hx, Tab.get?_put_same]

theorem State.snapClear_unit (s : State) (q : SnapReq) (u : Fin 64) : (s.snapClear q).mon.units[u] =
    if bitAt q.mask.toNat u.val && s.mon.units[u].clrSnap then s.mon.units[u].clear else s.mon.units[u] := by
  simp [State.snapClear]

theorem State.snapClear_area (s : State) (q : SnapReq) : (s.snapClear q).mon.area = s.mon.area := by
  rw [State.snapClear]

theorem execSnapshotFreeze_freezes {s : State} {q : SnapReq} {rest : List SnapReq} (hs : s.Specified) (hr : s.ready = true)
    (hq : s.crown.snaps = q :: rest) :
    execSnapshotFreeze s =
      .next ((({ s with crown := { s.crown with snaps := rest } }.snapWrite q).snapClear q).complete q.ref Code.ok) := by
  rw [execSnapshotFreeze, occurs_of hs (by rw [hr, hq]; rfl), hq]

/-! ## Quarantine (R385, Table 22.5) -/

/-- What a pass looks at and changes of one checked engine and its station: the counts, the bit of the engine in QUAR, the uncorrectable
words, and the bit of the station among those withdrawn. -/
structure Standing where
  replays : BitVec 16
  fails : Byte
  last : BitVec 16
  uncorr : Byte
  quar : Bool
  withdrawn : Bool

/-- The standing of an engine. -/
def State.standing (s : State) (st : Fin 16) (e : Fin 12) : Standing where
  replays := s.stations[st].chk[e].replays
  fails := s.stations[st].chk[e].fails
  last := s.stations[st].chk[e].last
  uncorr := s.stations[st].pantry.uncorr
  quar := bitAt s.crown.quar[st].toNat e.val
  withdrawn := bitAt s.crown.withdrawn.toNat st.val

/-- The engine has reached a condition of Table 22.5. -/
def Standing.exceeds (x : Standing) : Bool := decide (2 ≤ x.fails.toNat ∨ x.last.toNat + 4096 ≤ x.replays.toNat)

theorem State.standing_exceeds (s : State) (st : Fin 16) (e : Fin 12) :
    (s.standing st e).exceeds = s.stations[st].chk[e].exceeds := rfl

/-- A pass judges the engine. -/
def Standing.judged (x : Standing) : Standing := { x with quar := x.quar || x.exceeds }

theorem Standing.judged_judged (x : Standing) : x.judged.judged = x.judged := by
  rw [Standing.judged, Standing.judged, Standing.mk.injEq]
  simp [Standing.exceeds]

/-- It judges the station. -/
def Standing.counted (x : Standing) : Standing := { x with withdrawn := x.withdrawn || decide (4 ≤ x.uncorr.toNat) }

/-- It keeps the count it has read. -/
def Standing.kept (x : Standing) : Standing := { x with last := x.replays }

section
variable (s : State) (st st' : Fin 16) (e : Fin 12)

theorem State.unitEvent_standing (unit : Nat) : (s.unitEvent st' unit).standing st e = s.standing st e := by
  have stations : (s.unitEvent st' unit).stations = s.stations := State.logEvt_stations ..
  have crown : (s.unitEvent st' unit).crown = { s.crown with cache := [] } := State.logEvt_crown ..
  rw [State.standing, State.standing, stations, crown]

theorem State.updStn_standing {f : Station → Station} (hf : ∀ t : Station, (f t).pantry = t.pantry ∧ ∀ e : Fin 12,
    (f t).chk[e].replays = t.chk[e].replays ∧ (f t).chk[e].fails = t.chk[e].fails ∧ (f t).chk[e].last = t.chk[e].last) :
    (s.updStn st' f).standing st e = s.standing st e := by
  by_cases h : st = st'
  · subst h
    obtain ⟨hp, hchk⟩ := hf s.stations[st]
    obtain ⟨hr, hfail, hlast⟩ := hchk e
    rw [State.standing, State.standing, State.updStn_same, hp, hr, hfail, hlast]
    rfl
  · rw [State.standing, State.standing, State.updStn_ne _ h]
    rfl

/-- The mark of quarantine on an engine's counts changes none of them. -/
theorem ChkCnt.marked_counts (chk : Vector ChkCnt 12) (e' : Nat) (e : Fin 12) :
    let v := vupdN chk e' fun c => { c with quar := true }
    v[e].replays = chk[e].replays ∧ v[e].fails = chk[e].fails ∧ v[e].last = chk[e].last := by
  intro v
  by_cases h : e' < 12
  · have v_eq : v = vupd chk ⟨e', h⟩ fun c => { c with quar := true } := vupdN_val chk ⟨e', h⟩ _
    rw [v_eq, vupd_get]
    split <;> exact ⟨rfl, rfl, rfl⟩
  · have v_eq : v = chk := dif_neg h
    rw [v_eq]
    exact ⟨rfl, rfl, rfl⟩

theorem State.quarantine_standing (e' : Nat) : (s.quarantine st' e').standing st e =
    { s.standing st e with quar := (s.standing st e).quar || decide (st = st' ∧ e.val = e') } := by
  rw [State.quarantine]
  dsimp only
  rw [State.unitEvent_standing]
  refine (State.updStn_standing _ _ _ _ (f := fun t => { t with chk := vupdN t.chk e' fun c => { c with quar := true } })
    fun t => ⟨rfl, ChkCnt.marked_counts t.chk e'⟩).trans ?_
  rw [State.standing, State.standing]
  dsimp only
  have bit : bitAt (vupd s.crown.quar st' fun q => q ||| BitVec.ofNat 22 (2 ^ e'))[st].toNat e.val =
      (bitAt s.crown.quar[st].toNat e.val || decide (st = st' ∧ e.val = e')) := by
    rw [vupd_get]
    by_cases h : st = st'
    · rw [if_pos h, bitAt_toNat, bitAt_toNat, BitVec.getLsbD_or, getLsbD_ofNat_two_pow (by omega)]
      simp only [h, true_and, eq_comm]
    · rw [if_neg h]
      simp [h]
  rw [bit]

theorem State.hold_standing (g : Fin 2) : (s.hold st' g).standing st e = s.standing st e := by
  rw [State.hold]
  dsimp only
  rw [State.unitEvent_standing]
  exact State.updStn_standing _ _ _ _ fun t => ⟨rfl, fun _ => ⟨rfl, rfl, rfl⟩⟩

/-- An engine of a Kettle or of a later kind is judged when its turn comes, and at no other. -/
theorem State.judge_standing (he : 2 ≤ e.val) (e' : Nat) : (s.judge st' e').standing st e =
    if st = st' ∧ e.val = e' then (s.standing st e).judged else s.standing st e := by
  by_cases here : st = st' ∧ e.val = e'
  · obtain ⟨rfl, rfl⟩ := here
    rw [if_pos ⟨rfl, rfl⟩, State.judge]
    by_cases hq : bitAt s.crown.quar[st].toNat e.val = true
    · rw [if_pos hq, Standing.judged]
      have quar : (s.standing st e).quar = true := hq
      rw [quar, Bool.true_or, ← quar]
    · rw [if_neg hq, dif_pos e.isLt, dif_neg (by omega)]
      have same : s.stations[st].chk[(⟨e.val, e.isLt⟩ : Fin 12)].exceeds = (s.standing st e).exceeds := rfl
      rw [same]
      split
      · next h => rw [State.quarantine_standing, Standing.judged, h]; simp
      · next h => rw [Standing.judged, Bool.eq_false_iff.mpr h, Bool.or_false]
  · have apart : (s.quarantine st' e').standing st e = s.standing st e := by
      rw [State.quarantine_standing, decide_eq_false here, Bool.or_false]
    rw [if_neg here]
    unfold State.judge
    split
    · rfl
    · split
      · dsimp only
        split
        · split
          · rfl
          · split
            · exact State.hold_standing ..
            · exact apart
        · split
          · exact apart
          · rfl
      · split
        · exact apart
        · rfl

theorem State.withdraw_standing : (s.withdraw st').standing st e =
    if st = st' then (s.standing st e).counted else s.standing st e := by
  unfold State.withdraw
  split
  · next h =>
    rw [State.unitEvent_standing, State.standing, State.standing]
    dsimp only
    have bit : bitAt (s.crown.withdrawn ||| BitVec.ofNat 16 (2 ^ st'.val)).toNat st.val =
        (bitAt s.crown.withdrawn.toNat st.val || decide (st = st')) := by
      rw [bitAt_toNat, bitAt_toNat, BitVec.getLsbD_or, getLsbD_ofNat_two_pow st.isLt]
      simp only [Fin.ext_iff, eq_comm]
    rw [bit]
    by_cases hst : st = st'
    · rw [if_pos hst, decide_eq_true hst, Standing.counted, hst, decide_eq_true h.1]
    · rw [if_neg hst, decide_eq_false hst, Bool.or_false]
  · next h =>
    split
    · next hst =>
      subst hst
      have counted : ((s.standing st e).withdrawn || decide (4 ≤ (s.standing st e).uncorr.toNat)) = (s.standing st e).withdrawn := by
        rw [Bool.or_eq_left_iff_imp]
        exact fun hmany => not_not.mp fun hno => h ⟨of_decide_eq_true hmany, Bool.eq_false_iff.mpr hno⟩
      rw [Standing.counted, counted]
    · rfl

/-- Each engine is judged once. -/
theorem State.judges_standing (he : 2 ≤ e.val) : ((List.range 22).foldl (fun s e => s.judge st' e) s).standing st e =
    if st = st' then (s.standing st e).judged else s.standing st e := by
  have run (l : List Nat) : ∀ s : State, (l.foldl (fun s e => s.judge st' e) s).standing st e =
      if st = st' ∧ e.val ∈ l then (s.standing st e).judged else s.standing st e := by
    induction l with
    | nil => exact fun s => by simp
    | cons e' l ih =>
      intro s
      rw [List.foldl_cons, ih, State.judge_standing _ _ _ _ he]
      by_cases hst : st = st'
      · by_cases he' : e.val = e'
        · simp [hst, he', Standing.judged_judged]
        · simp [hst, he']
      · simp [hst]
  rw [run]
  simp only [List.mem_range, show e.val < 22 by omega, and_true]

/-- The counts read are kept. -/
theorem State.keepCounts_standing : (s.updStn st' fun t => { t with chk := t.chk.map fun c => { c with last := c.replays } }).standing st e
    = if st = st' then (s.standing st e).kept else s.standing st e := by
  by_cases h : st = st'
  · rw [if_pos h, h, State.standing, State.updStn_same]
    simp only [Fin.getElem_fin, Vector.getElem_map]
    rfl
  · rw [if_neg h, State.standing, State.updStn_ne _ h]
    rfl

theorem State.passStn_standing (he : 2 ≤ e.val) : (s.passStn st').standing st e =
    if st = st' then (s.standing st e).judged.counted.kept else s.standing st e := by
  rw [State.passStn, State.keepCounts_standing, State.withdraw_standing, State.judges_standing _ _ _ _ he]
  by_cases h : st = st'
  · simp only [h, if_true]
  · simp only [h, if_false]

/-- A pass comes to each station once. -/
theorem State.pass_standing (he : 2 ≤ e.val) :
    ((List.finRange 16).foldl State.passStn s).standing st e = (s.standing st e).judged.counted.kept := by
  have apart (l : List (Fin 16)) (hl : st ∉ l) (s : State) : (l.foldl State.passStn s).standing st e = s.standing st e := by
    induction l generalizing s with
    | nil => rfl
    | cons st' l ih =>
      obtain ⟨hne, hl⟩ := not_or.mp (mt List.mem_cons.mpr hl)
      rw [List.foldl_cons, ih hl, State.passStn_standing _ _ _ _ he, if_neg hne]
  obtain ⟨before, after, split⟩ := List.append_of_mem (List.mem_finRange st)
  have once : (before ++ st :: after).Nodup := split ▸ List.nodup_finRange 16
  obtain ⟨-, hst, hapart⟩ := List.nodup_append.mp once
  rw [split, List.foldl_append, List.foldl_cons, apart after (List.nodup_cons.mp hst).1, State.passStn_standing _ _ _ _ he, if_pos rfl,
    apart before fun h => hapart st h st List.mem_cons_self rfl]
end

theorem State.snapshot_records {s : State} (q : SnapReq) (rest : List SnapReq) :
    let t := (({ s with crown := { s.crown with snaps := rest } }.snapWrite q).snapClear q).complete q.ref Code.ok
    t.crown.snaps = rest ∧
    t.hostOut = s.hostOut ++ ((bitsSet 64 q.mask.toNat).zipIdx.map fun x => .write q.ref.f (q.addr + 256 * x.2) (s.snapRecord q x.1)) ∧
    (∀ u : Fin 64, bitAt q.mask.toNat u.val = true → t.mon.area.get? u.val = some (s.snapRecord q u.val)) ∧
    (∀ u : Fin 64, t.mon.units[u] = if bitAt q.mask.toNat u.val && s.mon.units[u].clrSnap then s.mon.units[u].clear
      else s.mon.units[u]) := by
  intro t
  obtain ⟨hout, hmon, hcrown⟩ := State.snapOnes q (bitsSet 64 q.mask.toNat).zipIdx
    { s with crown := { s.crown with snaps := rest } }
  rw [← State.snapWrite_eq] at hout hmon hcrown
  refine ⟨?_, ?_, fun u hu => ?_, fun u => ?_⟩
  · rw [State.complete_crown, State.snapClear_keeps.same .crown (by decide), hcrown]
  · rw [State.complete_hostOut, State.snapClear_keeps.same .hostOut (by decide), hout]
    rfl
  · rw [State.complete_mon, State.snapClear_area, hmon]
    refine foldl_put_listed (key := Prod.fst) (s.snapRecord q) ?_ _
    have named : u.val ∈ (bitsSet 64 q.mask.toNat).zipIdx.map Prod.fst := by
      rw [List.zipIdx_map_fst]
      exact List.mem_filter.mpr ⟨List.mem_range.mpr u.isLt, hu⟩
    exact List.mem_map.mp named
  · rw [State.complete_mon, State.snapClear_unit, hmon]

theorem execQuarantinePass_judges {s : State} (hs : s.Specified) (hr : s.ready = true) (hrec : s.boot.recovery = false) :
    ∃ t : State, execQuarantinePass s = .next t ∧
      ∀ (st : Fin 16) (e : Fin 12), 2 ≤ e.val → t.standing st e = (s.standing st e).judged.counted.kept := by
  refine ⟨(List.finRange 16).foldl State.passStn s, ?_, fun st e he => State.pass_standing s st e he⟩
  rw [execQuarantinePass, occurs_of hs (by rw [hr, hrec]; rfl)]

/-- Settles O54: the oldest event moves to the ring, the records of a freeze edge are those of the units before they are cleared, and a
pass judges each engine by the counts that it finds. -/
theorem logAndQuarantine : Obligations.LogAndQuarantine := by
  intro s
  refine ⟨fun e rest hp hq => ?log, fun q rest hs hr hq => ?snap, fun hs hr hrec => ?pass⟩
  case log =>
    refine ⟨_, execErrorLogWrite_moves hp hq, ?_⟩
    rw [State.msi_mon, State.msi_power]
    exact ⟨rfl, rfl, Tab.get?_put_same .., fun k hk => Tab.get?_put_ne _ hk, rfl, fun hopen => State.msi_hostOut_open hopen⟩
  case snap =>
    intro rc
    exact ⟨_, execSnapshotFreeze_freezes hs hr hq, State.snapshot_records q rest⟩
  case pass =>
    obtain ⟨t, row, standing⟩ := execQuarantinePass_judges hs hr hrec
    refine ⟨t, row, fun st => ?_⟩
    have withdrawn : bitAt t.crown.withdrawn.toNat st.val =
        (bitAt s.crown.withdrawn.toNat st.val || decide (4 ≤ s.stations[st].pantry.uncorr.toNat)) :=
      (congrArg Standing.withdrawn (standing st 4 (by decide)) :)
    refine ⟨fun hmany => ?_, fun hfew => ?_, fun k => ?_⟩
    · rw [withdrawn, decide_eq_true hmany, Bool.or_true]
    · rw [withdrawn, decide_eq_false (Nat.not_le.mpr hfew), Bool.or_false]
    · intro e c
      have judged := standing st e (show 2 ≤ 4 + k.val by omega)
      have quar : bitAt t.crown.quar[st].toNat e.val =
          (bitAt s.crown.quar[st].toNat e.val || decide (2 ≤ c.fails.toNat ∨ c.last.toNat + 4096 ≤ c.replays.toNat)) :=
        (congrArg Standing.quar judged :)
      refine ⟨(congrArg Standing.last judged :), (congrArg Standing.fails judged :), fun hover => ?_, fun hfails hreplays => ?_⟩
      · rw [quar, decide_eq_true hover, Bool.or_true]
      · rw [quar, decide_eq_false (by omega), Bool.or_false]

end Sys2Proof.Machine
end

section
/-! The registers and rings of a mailbox page (R277 to R283, R294, R295): what signals and answers leave of a page, what the end of a job or
a session leaves of the stations, the pages and the jobs, and the writing of a completion entry. -/

namespace Sys2Proof.Machine

/-! ## What a vector's signal and an answer leave of a page (R278, R294, R295) -/

/-- A page apart from its vectors: the pending bits, and the entries that vector 0 has yet to announce. -/
def Mbx.calm (m : Mbx) : Mbx := { m with unsignalled := 0, pba := 0 }

/-- A page apart from its vectors and its waiting answers. -/
def Mbx.desk (m : Mbx) : Mbx := { m.calm with replies := [] }

theorem Mbx.desk_of_calm {m n : Mbx} (h : m.calm = n.calm) : m.desk = n.desk := congrArg (fun m : Mbx => { m with replies := [] }) h

theorem Mbx.replies_of_calm {m n : Mbx} (h : m.calm = n.calm) : m.replies = n.replies := (congrArg Mbx.replies h :)

theorem Mbx.en_of_desk {m n : Mbx} (h : m.desk = n.desk) : m.en = n.en := (congrArg Mbx.en h :)

section
variable (s : State) (f g : Fin 64)

theorem State.updMbx_calm {h : Mbx → Mbx} (hh : ∀ m, (h m).calm = m.calm) : (s.updMbx f h).mbx[g].calm = s.mbx[g].calm := by
  by_cases hg : g = f
  · rw [hg, State.updMbx_same, hh]
  · rw [State.updMbx_ne h hg]

theorem State.updMbx_desk {h : Mbx → Mbx} (hh : ∀ m, (h m).desk = m.desk) : (s.updMbx f h).mbx[g].desk = s.mbx[g].desk := by
  by_cases hg : g = f
  · rw [hg, State.updMbx_same, hh]
  · rw [State.updMbx_ne h hg]

theorem State.msi_calm (v : Nat) : (s.msi f v).mbx[g].calm = s.mbx[g].calm := by
  unfold State.msi
  split
  · exact State.updMbx_calm _ _ _ fun _ => rfl
  · rfl

theorem State.signalCheck_calm : (s.signalCheck f).mbx[g].calm = s.mbx[g].calm := by
  unfold State.signalCheck
  split
  · exact (State.msi_calm _ _ _ _).trans (State.updMbx_calm _ _ _ fun _ => rfl)
  · rfl

theorem State.pushPlain_desk (r : Reply) : (s.pushPlain f r).mbx[g].desk = s.mbx[g].desk := by
  unfold State.pushPlain
  split
  · exact State.updMbx_desk _ _ _ fun _ => rfl
  · rfl

/-- A signal adds to what leaves for the host, and takes nothing back. -/
theorem State.msi_adds (v : Nat) : ∃ more, (s.msi f v).hostOut = s.hostOut ++ more := by
  unfold State.msi
  split
  · exact ⟨[], (List.append_nil _).symm⟩
  · exact ⟨_, rfl⟩

theorem State.signalCheck_adds : ∃ more, (s.signalCheck f).hostOut = s.hostOut ++ more := by
  unfold State.signalCheck
  split
  · exact State.msi_adds (s.updMbx f _) f 0
  · exact ⟨[], (List.append_nil _).symm⟩
end

/-! ## What the end of a job or a session leaves (R255, R267, R268) -/

/-- Who holds a station, its queues and its Pantry. -/
def Station.tenure (t : Station) : Bool × Vector (List QEntry) 22 × Pantry := (t.held, t.queues, t.pantry)

/-- The activation in progress, the tenure of the stations, and the pages apart from their vectors and answers. -/
structure Aside where
  activation : Option Activation
  tenure : Vector (Bool × Vector (List QEntry) 22 × Pantry) 16
  desks : Vector Mbx 64

/-- What stands aside when a job or a session ends. -/
def State.aside (s : State) : Aside := ⟨s.crown.activation, s.stations.map Station.tenure, s.mbx.map Mbx.desk⟩

section
variable {s t : State}

theorem State.aside_of (ha : t.crown.activation = s.crown.activation) (ht : ∀ st : Fin 16, t.stations[st].tenure = s.stations[st].tenure)
    (hd : ∀ g : Fin 64, t.mbx[g].desk = s.mbx[g].desk) : t.aside = s.aside := by
  rw [State.aside, State.aside, ha, Aside.mk.injEq]
  refine ⟨rfl, vext fun st => ?_, vext fun g => ?_⟩
  · simpa using ht st
  · simpa using hd g

variable (h : t.aside = s.aside)
include h

theorem State.activation_of_aside : t.crown.activation = s.crown.activation := congrArg Aside.activation h

theorem State.tenure_of_aside (st : Fin 16) : t.stations[st].tenure = s.stations[st].tenure := by
  have at_st := congrArg (fun a : Aside => a.tenure[st]) h
  simpa [State.aside] using at_st

theorem State.desk_of_aside (g : Fin 64) : t.mbx[g].desk = s.mbx[g].desk := by
  have at_g := congrArg (fun a : Aside => a.desks[g]) h
  simpa [State.aside] using at_g
end

section
variable (s : State)

theorem State.pushPlain_aside (f : Fin 64) (r : Reply) : (s.pushPlain f r).aside = s.aside :=
  State.aside_of (by rw [State.pushPlain_crown]) (fun st => by rw [State.pushPlain_keeps.same .stations (by decide)])
    fun g => State.pushPlain_desk s f g r

theorem State.msi_aside (f : Fin 64) (v : Nat) : (s.msi f v).aside = s.aside :=
  State.aside_of (by rw [State.msi_crown]) (fun st => by rw [State.msi_stations]) fun g => Mbx.desk_of_calm (State.msi_calm s f g v)

theorem State.releaseRetired_aside : s.releaseRetired.aside = s.aside := by
  refine State.aside_of ?_ (fun st => ?_) fun g => by rw [State.releaseRetired_keeps.same .mbx (by decide)]
  · obtain ⟨ks, hks, -⟩ := s.releaseRetired_crown
    rw [hks]
  · have roles := State.sansStreams_of_roles s.releaseRetired_roles st
    have queues : s.releaseRetired.stations[st].queues = s.stations[st].queues := by
      have all := congrArg (fun v : Vector (Vector (List QEntry) 22) 16 => v[st]) s.releaseRetired_queues
      simpa using all
    rw [Station.tenure, Station.tenure, queues, Station.held_of_sansStreams roles, Station.pantry_of_sansStreams roles]

theorem State.refuseJob_aside (j : Nat) (c : Byte) (m n : Nat) : (s.refuseJob j c m n).aside = s.aside :=
  State.pushPlain_aside (s.updJob j _) ..

theorem State.refuseWaiting_aside (ses : Nat) : (s.refuseWaiting ses).aside = s.aside :=
  foldl_same (f := fun s j => s.refuseJob j Code.busy 0 0) (fun s j => s.refuseJob_aside j ..) _ s

/-- A session that has closed, before the vector 2 of a VF whose session the PF closed. -/
def State.closeBooks (s : State) (ses : Nat) : State :=
  (s.session ses).closers.foldl (fun s r => s.pushPlain r.f ⟨r.op, r.tag, Code.ok, true, r.rqidx, [], 0, none⟩)
    (((((s.refuseWaiting ses).retireAll ses).releaseRetired).freeBuffers ses).updSession ses fun y =>
      { y.commit { y.body with state := .free, ktag := 0, mlcount := 0, mladdr := 0 } with
        alive := Vector.replicate 8 (0, 0)
        slots := Vector.replicate 8 StreamSlot.reset
        modlist := []
        closers := [] })

theorem State.closeFinish_eq (ses : Nat) : s.closeFinish ses =
    let x := s.session ses
    if x.body.func != 0 && x.closers.any fun r => r.f == 0 then (s.closeBooks ses).msi x.body.func 2 else s.closeBooks ses := rfl

theorem State.retireAll_aside (ses : Nat) : (s.retireAll ses).aside = s.aside := rfl

theorem State.freeBuffers_aside (ses : Nat) : (s.freeBuffers ses).aside = s.aside := rfl

theorem State.updSession_aside (ses : Nat) (f : Session → Session) : (s.updSession ses f).aside = s.aside := rfl

theorem State.closeBooks_aside (ses : Nat) : (s.closeBooks ses).aside = s.aside := by
  unfold State.closeBooks
  rw [foldl_same (g := State.aside) fun t r => State.pushPlain_aside t .., State.updSession_aside, State.freeBuffers_aside,
    State.releaseRetired_aside, State.retireAll_aside, State.refuseWaiting_aside]

theorem State.freeBuffers_hostOut (ses : Nat) : (s.freeBuffers ses).hostOut = s.hostOut := rfl

theorem State.closeBooks_hostOut (ses : Nat) : (s.closeBooks ses).hostOut = s.hostOut := by
  unfold State.closeBooks
  rw [foldl_same (g := State.hostOut) fun t r => State.pushPlain_keeps.same .hostOut (by decide), State.updSession_hostOut,
    State.freeBuffers_hostOut, State.releaseRetired_keeps.same .hostOut (by decide), State.retireAll_hostOut,
    State.refuseWaiting_keeps.same .hostOut (by decide)]

theorem State.retireAll_jobs (ses : Nat) : (s.retireAll ses).crown.jobs = s.crown.jobs := rfl

theorem State.freeBuffers_jobs (ses : Nat) : (s.freeBuffers ses).crown.jobs = s.crown.jobs := rfl

theorem State.updSession_jobs (ses : Nat) (f : Session → Session) : (s.updSession ses f).crown.jobs = s.crown.jobs := rfl

theorem State.closeBooks_jobs (ses : Nat) : (s.closeBooks ses).crown.jobs = (s.refuseWaiting ses).crown.jobs := by
  unfold State.closeBooks
  rw [foldl_same (g := fun t => t.crown.jobs) fun t r => by rw [State.pushPlain_crown], State.updSession_jobs, State.freeBuffers_jobs,
    State.releaseRetired_jobs, State.retireAll_jobs]

theorem State.closeCheck_aside (ses : Nat) : (s.closeCheck ses).aside = s.aside := by
  unfold State.closeCheck
  split
  · rw [State.closeFinish_eq]
    dsimp only
    split
    · exact (State.msi_aside ..).trans (s.closeBooks_aside ses)
    · exact s.closeBooks_aside ses
  · rfl

theorem State.closeCheck_adds (ses : Nat) : ∃ more, (s.closeCheck ses).hostOut = s.hostOut ++ more := by
  unfold State.closeCheck
  split
  · rw [State.closeFinish_eq, ← s.closeBooks_hostOut ses]
    dsimp only
    split
    · exact State.msi_adds ..
    · exact ⟨[], (List.append_nil _).symm⟩
  · exact ⟨[], (List.append_nil _).symm⟩

/-- A session's end refuses the jobs that wait for it, and changes no other. -/
theorem State.closeCheck_jobs (ses : Nat) :
    (s.closeCheck ses).crown.jobs = s.crown.jobs ∨ (s.closeCheck ses).crown.jobs = (s.refuseWaiting ses).crown.jobs := by
  unfold State.closeCheck
  split
  · rw [State.closeFinish_eq]
    dsimp only
    split
    · rw [State.msi_crown]
      exact .inr (s.closeBooks_jobs ses)
    · exact .inr (s.closeBooks_jobs ses)
  · exact .inl rfl

/-- A refused entry of the job table (R264). -/
def Job.refused (x : Job) (code : Byte) : Job := { x with state := .free, cause := code, mtag := none, img := [], btab := [] }

theorem State.refuseJob_jobs (j : Nat) (c : Byte) (m n : Nat) :
    (s.refuseJob j c m n).crown.jobs = s.crown.jobs.upd j fun x => x.refused c := by
  rw [State.refuseJob, State.pushPlain_crown]
  rfl

theorem State.refuseWaiting_jobs (ses : Nat) : (s.refuseWaiting ses).crown.jobs =
    ((s.crown.jobs.filter fun j => j.2.state == .admitting && j.2.ses == ses).map Prod.fst).foldl
      (fun t j => Tab.upd t j fun x => x.refused Code.busy) s.crown.jobs :=
  (List.foldl_hom (fun t : State => t.crown.jobs) fun t j => (t.refuseJob_jobs j Code.busy 0 0).symm).symm

/-- A job that is no longer being admitted outlasts the end of every session. -/
theorem State.closeCheck_settled {j : Nat} (ses : Nat) (h : ∀ e ∈ s.crown.jobs, e.1 = j → e.2.state ≠ .admitting) :
    (s.closeCheck ses).crown.jobs.get? j = s.crown.jobs.get? j := by
  have stays (l : List Nat) (hl : j ∉ l) (t : Tab Job) :
      (l.foldl (fun t j => Tab.upd t j fun x => x.refused Code.busy) t).get? j = t.get? j := by
    induction l generalizing t with
    | nil => rfl
    | cons k l ih =>
      obtain ⟨hne, hl⟩ := not_or.mp (mt List.mem_cons.mpr hl)
      rw [List.foldl_cons, ih hl, Tab.get?_upd_ne _ hne]
  obtain hjobs | hjobs := s.closeCheck_jobs ses
  · rw [hjobs]
  · rw [hjobs, State.refuseWaiting_jobs]
    refine stays _ (fun hj => ?_) _
    obtain ⟨e, he, rfl⟩ := List.mem_map.mp hj
    obtain ⟨hmem, hadmitting⟩ := List.mem_filter.mp he
    exact h e hmem rfl (beq_iff_eq.mp (Bool.and_eq_true_iff.mp hadmitting).1)

/-- A job's end: its final state, and then the end of its session where that waits for it. -/
theorem State.jobWritten_ends {j : Nat} {x : Job} {st : JobState} (hx : s.crown.jobs.get? j = some x)
    (hst : (x.state = .committed ∧ st = .completed) ∨ (x.state = .aborting ∧ st = .endedAbort)) :
    ∃ t : State, s.jobWritten j = t.closeCheck x.ses ∧ t.aside = s.aside ∧ t.hostOut = s.hostOut ∧
      t.crown.jobs = s.crown.jobs.upd j fun y => { y with state := st } := by
  obtain ⟨hs, rfl⟩ | ⟨hs, rfl⟩ := hst <;>
  · unfold State.jobWritten
    rw [hx]
    dsimp only
    rw [hs]
    refine ⟨_, rfl, ?_, ?_, ?_⟩
    · refine (State.releaseRetired_aside _).trans ?_
      split <;> rfl
    · refine (State.releaseRetired_keeps.same .hostOut (by decide)).trans ?_
      split <;> rfl
    · refine (State.releaseRetired_jobs _).trans ?_
      split <;> rfl

theorem State.jobWritten_cases (j : Nat) : s.jobWritten j = s ∨ ∃ (x : Job) (t : State) (st : JobState),
    s.jobWritten j = t.closeCheck x.ses ∧ t.aside = s.aside ∧ t.hostOut = s.hostOut ∧ st.abortable = false ∧
      t.crown.jobs = s.crown.jobs.upd j fun y => { y with state := st } := by
  cases hx : s.crown.jobs.get? j with
  | none => exact .inl (by rw [State.jobWritten, hx])
  | some x =>
    cases hs : x.state with
    | committed => exact .inr ⟨x, by
        obtain ⟨t, h, haside, hout, hjobs⟩ := s.jobWritten_ends hx (.inl ⟨hs, rfl⟩)
        exact ⟨t, _, h, haside, hout, rfl, hjobs⟩⟩
    | aborting => exact .inr ⟨x, by
        obtain ⟨t, h, haside, hout, hjobs⟩ := s.jobWritten_ends hx (.inr ⟨hs, rfl⟩)
        exact ⟨t, _, h, haside, hout, rfl, hjobs⟩⟩
    | free | admitting | running | completed | endedAbort => exact .inl (by rw [State.jobWritten, hx]; dsimp only; rw [hs])

theorem State.jobWritten_aside (j : Nat) : (s.jobWritten j).aside = s.aside := by
  obtain h | ⟨x, t, st, h, haside, -⟩ := s.jobWritten_cases j
  · rw [h]
  · rw [h, State.closeCheck_aside, haside]

theorem State.jobWritten_adds (j : Nat) : ∃ more, (s.jobWritten j).hostOut = s.hostOut ++ more := by
  obtain h | ⟨x, t, st, h, -, hout, -⟩ := s.jobWritten_cases j
  · rw [h]
    exact ⟨[], (List.append_nil _).symm⟩
  · rw [h, ← hout]
    exact t.closeCheck_adds _

/-- The writing of its completion entry ends a committed job COMPLETED (R267). -/
theorem State.jobWritten_completes {j : Nat} {x : Job} (hx : s.crown.jobs.get? j = some x) (hc : x.state = .committed) :
    ((s.jobWritten j).crown.jobs.get? j).map (·.state) = some .completed := by
  obtain ⟨t, h, -, -, hjobs⟩ := s.jobWritten_ends hx (.inl ⟨hc, rfl⟩)
  rw [h, State.closeCheck_settled, hjobs, Tab.get?_upd_same, hx]
  · rfl
  · intro e he hj
    rw [hjobs] at he
    obtain ⟨d, -, rfl⟩ := List.mem_map.mp he
    by_cases hd : d.1 = j
    · rw [if_pos hd]
      exact JobState.noConfusion
    · rw [if_neg hd] at hj
      exact absurd hj hd
end

end Sys2Proof.Machine
end

section
/-! The events at a mailbox page: MBX_CTRL_WRITE, the doorbells, the writing of a completion entry, vector 0 (R277 to R283, R294, R295). -/

namespace Sys2Proof.Machine

section
variable {s : State} {f : Fin 64}

theorem State.updMbx_congr {g h : Mbx → Mbx} (hm : g s.mbx[f] = h s.mbx[f]) : s.updMbx f g = s.updMbx f h := by
  rw [State.updMbx, State.updMbx, vupd, vupd, hm]

/-! ## A completion entry is written (R280, R281) -/

/-- A page whose oldest answer has gone to its ring. -/
def Mbx.written (m : Mbx) (r : Reply) (rest : List Reply) : Mbx :=
  { m with
    replies := rest
    cqTail := m.cqTail + 1
    phase := if m.cqTail = 0xFF then !m.phase else m.phase
    txnext := m.txnext + 1
    unsignalled := if r.vec = 0 then m.unsignalled + 1 else m.unsignalled }

/-- The entry on its way, before its vector is sent. -/
def State.entrySent (s : State) (f : Fin 64) (r : Reply) (rest : List Reply) : State :=
  (s.updMbx f fun m => m.written r rest).toHost
    (.write f (s.mbx[f].cqBase + 256 * s.mbx[f].cqTail.toNat) (r.entry s.mbx[f].phase s.mbx[f].txnext))

/-- The entry on its way, and its vector sent where it is due. -/
def State.entrySignalled (s : State) (f : Fin 64) (r : Reply) (rest : List Reply) : State :=
  if r.vec = 0 then (s.entrySent f r rest).signalCheck f else (s.entrySent f r rest).msi f r.vec

theorem State.writeEntry_eq {r : Reply} {rest : List Reply} (he : s.mbx[f].en = true) (hr : s.mbx[f].replies = r :: rest)
    (hroom : s.mbx[f].room = true) : s.writeEntry f =
      match r.job with
      | some j => (s.entrySignalled f r rest).jobWritten j
      | none => s.entrySignalled f r rest := by
  unfold State.writeEntry
  dsimp only
  rw [hr]
  dsimp only
  rw [he, hroom]
  rfl

theorem State.entrySignalled_crown (r : Reply) (rest : List Reply) : (s.entrySignalled f r rest).crown = s.crown := by
  unfold State.entrySignalled
  split
  · exact State.signalCheck_keeps.same .crown (by decide)
  · rw [State.msi_crown]
    rfl

theorem State.entrySignalled_calm (r : Reply) (rest : List Reply) (g : Fin 64) :
    (s.entrySignalled f r rest).mbx[g].calm = (s.entrySent f r rest).mbx[g].calm := by
  unfold State.entrySignalled
  split
  · exact State.signalCheck_calm ..
  · exact State.msi_calm ..

theorem State.entrySignalled_page (r : Reply) (rest : List Reply) :
    (s.entrySignalled f r rest).mbx[f].calm = (s.mbx[f].written r rest).calm := by
  rw [State.entrySignalled_calm, State.entrySent, State.toHost_mbx, State.updMbx_same]

theorem State.entrySignalled_adds (r : Reply) (rest : List Reply) : ∃ more, (s.entrySignalled f r rest).hostOut =
    s.hostOut ++ .write f (s.mbx[f].cqBase + 256 * s.mbx[f].cqTail.toNat) (r.entry s.mbx[f].phase s.mbx[f].txnext) :: more := by
  have from_sent (t : State) (h : ∃ more, t.hostOut = (s.entrySent f r rest).hostOut ++ more) : ∃ more, t.hostOut =
      s.hostOut ++ .write f (s.mbx[f].cqBase + 256 * s.mbx[f].cqTail.toNat) (r.entry s.mbx[f].phase s.mbx[f].txnext) :: more := by
    obtain ⟨more, hmore⟩ := h
    exact ⟨more, by rw [hmore, State.entrySent, State.toHost_hostOut, State.updMbx_hostOut, List.append_assoc]; rfl⟩
  refine from_sent _ ?_
  unfold State.entrySignalled
  split
  · exact State.signalCheck_adds ..
  · exact State.msi_adds ..

/-- What writing an entry leaves of the pages, the activation and the tenure of the stations. -/
theorem State.writeEntry_from {r : Reply} {rest : List Reply} (he : s.mbx[f].en = true) (hr : s.mbx[f].replies = r :: rest)
    (hroom : s.mbx[f].room = true) : (s.writeEntry f).aside = (s.entrySignalled f r rest).aside ∧
      ∃ more, (s.writeEntry f).hostOut = (s.entrySignalled f r rest).hostOut ++ more := by
  rw [State.writeEntry_eq he hr hroom]
  cases r.job with
  | none => exact ⟨rfl, [], (List.append_nil _).symm⟩
  | some j => exact ⟨State.jobWritten_aside _ j, State.jobWritten_adds _ j⟩

theorem Mbx.cqTail_of_desk {m n : Mbx} (h : m.desk = n.desk) : m.cqTail = n.cqTail := (congrArg Mbx.cqTail h :)

theorem Mbx.txnext_of_desk {m n : Mbx} (h : m.desk = n.desk) : m.txnext = n.txnext := (congrArg Mbx.txnext h :)

theorem Mbx.phase_of_desk {m n : Mbx} (h : m.desk = n.desk) : m.phase = n.phase := (congrArg Mbx.phase h :)

theorem Mbx.written_turns (m : Mbx) (r : Reply) (rest : List Reply) : ((m.written r rest).phase = !m.phase) ↔ m.cqTail = 0xFF := by
  unfold Mbx.written
  by_cases h : m.cqTail = 0xFF <;> simp [h]

theorem execCompletionEntryWrite_effect {r : Reply} {rest : List Reply} (hs : s.Specified) (hl : s.linkUp = true)
    (he : s.mbx[f].en = true) (hr : s.mbx[f].replies = r :: rest) (hroom : s.mbx[f].cqTail + 1 ≠ s.mbx[f].cqHead) :
    execCompletionEntryWrite f s = .next (s.writeEntry f) ∧ s.mbx[f].room = true := by
  have room : s.mbx[f].room = true := bne_iff_ne.mpr hroom
  exact ⟨occurs_of hs (by rw [hl, he, hr, room]; rfl), room⟩

/-! ## The rings start and stop (R278) -/

theorem Mbx.en_of_calm {m n : Mbx} (h : m.calm = n.calm) : m.en = n.en := (congrArg Mbx.en h :)

/-- Discarding the answers of a page changes no page but by its vectors and answers. -/
theorem State.dropReplies_desk (s : State) (f g : Fin 64) : (s.dropReplies f).mbx[g].desk = s.mbx[g].desk :=
  (State.desk_of_aside (foldl_same (g := State.aside) (f := State.jobWritten) (fun t j => t.jobWritten_aside j) _ _) g).trans
    (State.updMbx_desk s f g fun _ => rfl)

/-- The page after MBX_CTRL_WRITE, before its vector. -/
def State.ctrlWritten (s : State) (f : Fin 64) (val : Word) : State :=
  let s1 := s.updMbx f fun m => m.setCoal val
  if bitAt val.toNat 0 && !s.mbx[f].en then s1.updMbx f Mbx.start
  else if !bitAt val.toNat 0 && s.mbx[f].en then (s1.dropReplies f).updMbx f Mbx.halt
  else s1

theorem State.ctrlWritten_starts {val : Word} (he : s.mbx[f].en = false) (hv : bitAt val.toNat 0 = true) :
    (s.ctrlWritten f val).mbx[f] = (s.mbx[f].setCoal val).start := by
  rw [State.ctrlWritten, he, hv]
  exact (State.updMbx_same ..).trans (congrArg Mbx.start (State.updMbx_same ..))

theorem State.ctrlWritten_stops {val : Word} (he : s.mbx[f].en = true) (hv : bitAt val.toNat 0 = false) :
    s.ctrlWritten f val = (((s.updMbx f fun m => m.setCoal val).dropReplies f).updMbx f Mbx.halt) := by
  rw [State.ctrlWritten, he, hv]
  rfl

theorem State.ctrlWritten_stays {val : Word} (h : s.mbx[f].en = bitAt val.toNat 0) :
    s.ctrlWritten f val = s.updMbx f fun m => m.setCoal val := by
  rw [State.ctrlWritten, h]
  cases bitAt val.toNat 0 <;> rfl

/-- What MBX_CTRL holds, and the entries that Crown has taken. -/
structure Mbx.CtrlSet (m n : Mbx) (val : Word) : Prop where
  coalt : n.coalt.toNat = fld val.toNat 16 16
  coaln : n.coaln.toNat = fld val.toNat 8 8
  en : n.en = bitAt val.toNat 0
  taken : n.taken = m.taken

theorem Mbx.setCoal_coalt (m : Mbx) (val : Word) : (m.setCoal val).coalt.toNat = fld val.toNat 16 16 :=
  BitVec.toNat_ofNat .. |>.trans (Nat.mod_eq_of_lt (Nat.mod_lt _ (by decide)))

theorem Mbx.setCoal_coaln (m : Mbx) (val : Word) : (m.setCoal val).coaln.toNat = fld val.toNat 8 8 :=
  BitVec.toNat_ofNat .. |>.trans (Nat.mod_eq_of_lt (Nat.mod_lt _ (by decide)))

theorem Mbx.CtrlSet.of_desk {m n n' : Mbx} {val : Word} (h : m.CtrlSet n val) (hd : n'.desk = n.desk) : m.CtrlSet n' val :=
  ⟨(congrArg (fun m : Mbx => m.coalt.toNat) hd :) ▸ h.coalt, (congrArg (fun m : Mbx => m.coaln.toNat) hd :) ▸ h.coaln,
    (congrArg Mbx.en hd :) ▸ h.en, (congrArg Mbx.taken hd :) ▸ h.taken⟩

theorem Mbx.CtrlSet.stopped {m n : Mbx} {val : Word} (hd : n.desk = (m.setCoal val).desk) (hv : bitAt val.toNat 0 = false) :
    m.CtrlSet n.halt val where
  coalt := (congrArg (fun m : Mbx => m.coalt.toNat) hd :).trans (m.setCoal_coalt val)
  coaln := (congrArg (fun m : Mbx => m.coaln.toNat) hd :).trans (m.setCoal_coaln val)
  en := hv.symm
  taken := (congrArg Mbx.taken hd :)

theorem State.ctrlWritten_set (s : State) (f : Fin 64) (val : Word) : s.mbx[f].CtrlSet (s.ctrlWritten f val).mbx[f] val := by
  cases he : s.mbx[f].en <;> cases hv : bitAt val.toNat 0
  case false.true =>
    rw [State.ctrlWritten_starts he hv]
    exact ⟨s.mbx[f].setCoal_coalt val, s.mbx[f].setCoal_coaln val, hv.symm, rfl⟩
  case true.false =>
    rw [State.ctrlWritten_stops he hv, State.updMbx_same]
    exact .stopped ((State.dropReplies_desk ..).trans (congrArg Mbx.desk (State.updMbx_same ..))) hv
  all_goals
    rw [State.ctrlWritten_stays (he.trans hv.symm), State.updMbx_same]
    exact ⟨Mbx.setCoal_coalt .., Mbx.setCoal_coaln .., he.trans hv.symm, rfl⟩

theorem State.ctrlWritten_others (s : State) {f g : Fin 64} (val : Word) (h : g ≠ f) :
    (s.ctrlWritten f val).mbx[g].desk = s.mbx[g].desk := by
  cases he : s.mbx[f].en <;> cases hv : bitAt val.toNat 0
  case false.true =>
    rw [State.ctrlWritten, he, hv]
    exact congrArg Mbx.desk ((State.updMbx_ne _ h).trans (State.updMbx_ne _ h))
  case true.false =>
    rw [State.ctrlWritten_stops he hv, State.updMbx_ne _ h, State.dropReplies_desk, State.updMbx_ne _ h]
  all_goals rw [State.ctrlWritten_stays (he.trans hv.symm), State.updMbx_ne _ h]

theorem execDoorbell_effect (val : Word) (hs : s.Specified) (hl : s.linkUp = true) : execDoorbell f val s = .next (s.updMbx f fun m =>
    if m.en then { m with rqTail := val.setWidth 8, bells := m.bells + 1, fetching := true } else { m with rqTail := val.setWidth 8 }) :=
  occurs_of hs hl

theorem execMbxCqHeadWrite_effect (val : Word) (hs : s.Specified) (hl : s.linkUp = true) :
    execMbxCqHeadWrite f val s = .next (s.updMbx f fun m => { m with cqHead := val.setWidth 8 }) := by
  rw [execMbxCqHeadWrite, occurs_of hs hl]

theorem execMbxCtrlWrite_effect (val : Word) (hs : s.Specified) (hl : s.linkUp = true) :
    execMbxCtrlWrite f val s = .next ((s.ctrlWritten f val).signalCheck f) := occurs_of hs hl

/-- The rings of a page that starts: empty, from index 0 (R278). -/
structure Mbx.Started (n : Mbx) : Prop where
  rqHead : n.rqHead = 0
  rqTail : n.rqTail = 0
  cqHead : n.cqHead = 0
  cqTail : n.cqTail = 0
  rxnext : n.rxnext = 0
  txnext : n.txnext = 0
  phase : n.phase = true
  fetching : n.fetching = false

theorem Mbx.Started.of_calm {m n : Mbx} (h : n.calm = m.start.calm) : n.Started :=
  ⟨(congrArg Mbx.rqHead h :), (congrArg Mbx.rqTail h :), (congrArg Mbx.cqHead h :), (congrArg Mbx.cqTail h :),
    (congrArg Mbx.rxnext h :), (congrArg Mbx.txnext h :), (congrArg Mbx.phase h :), (congrArg Mbx.fetching h :)⟩

theorem State.ctrlWritten_halts {val : Word} (he : s.mbx[f].en = true) (hv : bitAt val.toNat 0 = false) :
    ∃ m : Mbx, (s.ctrlWritten f val).mbx[f] = m.halt := by
  rw [State.ctrlWritten_stops he hv, State.updMbx_same]
  exact ⟨_, rfl⟩

theorem Mbx.halted_of_calm {m n : Mbx} (h : n.calm = m.halt.calm) : n.fetching = false ∧ n.replies = [] :=
  ⟨(congrArg Mbx.fetching h :), (congrArg Mbx.replies h :)⟩

/-! ## Vector 0 and bad accesses (R277, R295) -/

theorem execVector0Timer_effect (hs : s.Specified) (hl : s.linkUp = true) (hw : 0 < s.mbx[f].unsignalled) (ht : s.mbx[f].coalt ≠ 0) :
    execVector0Timer f s = .next (s.signal0 f) := by
  rw [execVector0Timer, occurs_of hs (by rw [hl, decide_eq_true hw, bne_iff_ne.mpr ht]; rfl)]

theorem execBar0BadAccess_effect (off : Nat) (isRead : Bool) (hs : s.Specified) (hl : s.linkUp = true) : execBar0BadAccess f off isRead s =
    .next ((if isRead then s.toHost (.cplUR f) else s).logEvt (plainEvt clsNote Code.badOperand 4 (BitVec.ofNat 8 f.val) 0xFF [])) :=
  occurs_of hs hl

theorem State.signal0_unsignalled (s : State) (f : Fin 64) : (s.signal0 f).mbx[f].unsignalled = 0 := by
  cases h : (s.updMbx f fun m => { m with unsignalled := 0 }).mbx[f].masked 0 with
  | true => rw [State.signal0, State.msi_masked h, State.updMbx_same, State.updMbx_same]
  | false => rw [State.signal0, State.msi_open h, State.toHost_mbx, State.updMbx_same]

theorem State.signal0_open (h : s.mbx[f].masked 0 = false) :
    s.signal0 f = (s.updMbx f fun m => { m with unsignalled := 0 }).toHost (.msix f 0) :=
  State.msi_open (by rw [State.updMbx_same]; exact h)

theorem State.signal0_masked (h : s.mbx[f].masked 0 = true) :
    (s.signal0 f).hostOut = s.hostOut ∧ (s.signal0 f).mbx[f].pba = s.mbx[f].pba ||| 1 := by
  rw [State.signal0, State.msi_masked (by rw [State.updMbx_same]; exact h), State.updMbx_same, State.updMbx_same]
  exact ⟨rfl, rfl⟩
end

/-- Settles O39: a signal changes no page but by its vectors, and the end of a job no page but by its vectors and answers. -/
theorem mailboxPages : Obligations.MailboxPages := by
  intro f s hs hl
  dsimp only
  refine ⟨fun val => ?ctrl, fun val => ⟨fun he => ?bell, fun he => ?bellOff⟩, fun val => ?head, fun r rest he hr hroom => ?entry,
    fun hw ht => ?timer, fun off hq => ?bad⟩
  case ctrl =>
    have calm := (s.ctrlWritten f val).signalCheck_calm f
    obtain ⟨hcoalt, hcoaln, hen, htaken⟩ := (s.ctrlWritten_set f val).of_desk (Mbx.desk_of_calm (calm f))
    refine ⟨_, execMbxCtrlWrite_effect val hs hl, hcoalt, hcoaln, hen, fun g hg => ?_, fun he hv => ?_, fun he hv => ?_⟩
    · exact Mbx.en_of_desk ((Mbx.desk_of_calm (calm g)).trans (s.ctrlWritten_others val hg))
    · have started := (calm f).trans (congrArg Mbx.calm (State.ctrlWritten_starts he hv))
      obtain ⟨h1, h2, h3, h4, h5, h6, h7, h8⟩ := Mbx.Started.of_calm started
      exact ⟨h1, h2, h3, h4, h5, h6, h7, h8⟩
    · obtain ⟨m, hm⟩ := State.ctrlWritten_halts he hv
      obtain ⟨hfetching, hreplies⟩ := Mbx.halted_of_calm ((calm f).trans (congrArg Mbx.calm hm))
      exact ⟨hfetching, hreplies, htaken⟩
  case bell => exact (execDoorbell_effect val hs hl).trans (congrArg Host.Outcome.next (State.updMbx_congr (if_pos he)))
  case bellOff =>
    exact (execDoorbell_effect val hs hl).trans (congrArg Host.Outcome.next (State.updMbx_congr (if_neg (Bool.eq_false_iff.mp he))))
  case head => exact execMbxCqHeadWrite_effect val hs hl
  case entry =>
    obtain ⟨hexec, room⟩ := execCompletionEntryWrite_effect hs hl he hr hroom
    obtain ⟨haside, more2, hout2⟩ := State.writeEntry_from he hr room
    obtain ⟨more, hout⟩ := s.entrySignalled_adds (f := f) r rest
    have page := State.entrySignalled_page (s := s) (f := f) r rest
    have desk := (State.desk_of_aside haside f).trans (Mbx.desk_of_calm page)
    refine ⟨_, more ++ more2, hexec, ?_, Mbx.cqTail_of_desk desk, Mbx.txnext_of_desk desk, ?_, fun hj => ?_, fun j x hj hx hc => ?_⟩
    · rw [hout2, hout, List.append_assoc, List.cons_append]
    · rw [Mbx.phase_of_desk desk]
      exact Mbx.written_turns ..
    · rw [State.writeEntry_eq he hr room, hj]
      exact ⟨Mbx.replies_of_calm page, s.entrySignalled_crown r rest⟩
    · rw [State.writeEntry_eq he hr room, hj]
      exact State.jobWritten_completes _ (by rw [State.entrySignalled_crown]; exact hx) hc
  case timer =>
    refine ⟨s.signal0 f, execVector0Timer_effect hs hl hw ht, s.signal0_unsignalled f,
      fun h => ?_, State.signal0_masked⟩
    rw [State.signal0_open h, State.toHost_mbx, State.updMbx_same]
    exact ⟨rfl, rfl⟩
  case bad =>
    constructor
    · exact (execBar0BadAccess_effect off true hs hl).trans (congrArg Host.Outcome.next (State.logEvt_room (s := s.toHost _) _ hq))
    · exact (execBar0BadAccess_effect off false hs hl).trans (congrArg Host.Outcome.next (State.logEvt_room _ hq))

end Sys2Proof.Machine
end

section
/-! Boot-control records (R342): what a record's bytes say, and that the record written last is the one in force. -/

namespace Sys2Proof.Machine

/-! ## Fields of bytes written in order -/

theorem length_natLe (n x : Nat) : (natLe n x).length = n := by
  induction n generalizing x with
  | zero => rfl
  | succ n ih => rw [natLe, List.length_cons, ih]

theorem leNat_of_natLe (n x : Nat) : leNat (natLe n x) = x % 256 ^ n := by
  induction n generalizing x with
  | zero => exact (Nat.mod_one x).symm
  | succ n ih =>
    rw [natLe, leNat, ih, BitVec.toNat_ofNat, show 256 ^ (n + 1) = 256 * 256 ^ n from Nat.pow_succ']
    exact Nat.mod_mul.symm

theorem field_after {pre rest : List Byte} {off n x : Nat} (h : pre.length = off) : field (pre ++ (natLe n x ++ rest)) off n = x % 256 ^ n := by
  rw [field, slice, List.drop_left' h, List.take_left' (length_natLe n x), leNat_of_natLe]

theorem byteAt_after {pre rest : List Byte} {off : Nat} {b : Byte} (h : pre.length = off) : byteAt (pre ++ b :: rest) off = b := by
  rw [byteAt, List.drop_left' h, List.headD_cons]

theorem crc32c_lt (bs : List Byte) : crc32c bs < 2 ^ 32 := by
  have run : ∀ x < 2 ^ 32, crcBytes crc32cPoly x bs < 2 ^ 32 := by
    induction bs with
    | nil => exact fun x hx => hx
    | cons b bs ih => exact fun x hx => ih _ (crcByte_lt (by decide) (by decide) hx b)
  exact Nat.xor_lt_two_pow (run _ (by decide)) (by decide)

/-! ## The bytes of a record -/

/-- The first 12 bytes of a record, which its CRC covers. -/
def Bcr.head (x : Bcr) (seq : Nat) : List Byte :=
  natLe 4 0x54424C43 ++ natLe 4 seq ++ natLe 1 (b2n x.active) ++ natLe 1 (b2n x.trial) ++ natLe 1 (b2n x.prev) ++ zeros 1

section
variable (x : Bcr) (seq : Nat)

theorem Bcr.bytes_eq : x.bytes seq = x.head seq ++ natLe 4 (crc32c (x.head seq)) := rfl

theorem Bcr.length_head : (x.head seq).length = 12 := by
  simp only [Bcr.head, List.length_append, length_natLe, zeros, List.length_replicate]

theorem Bcr.bytes_ok : bcrOk (x.bytes seq) = true := by
  have crc := field_after (rest := []) (n := 4) (x := crc32c (x.head seq)) (x.length_head seq)
  rw [List.append_nil, Nat.mod_eq_of_lt (Nat.lt_of_lt_of_le (crc32c_lt _) (by decide))] at crc
  rw [bcrOk, Bcr.bytes_eq, crc, List.take_left' (x.length_head seq), List.length_append, Bcr.length_head, length_natLe, beq_self_eq_true]
  rfl

/-- A record as its header, its SEQ and the bytes after it. -/
theorem Bcr.bytes_seq : x.bytes seq = natLe 4 0x54424C43 ++ (natLe 4 seq ++
    (BitVec.ofNat 8 (b2n x.active) :: BitVec.ofNat 8 (b2n x.trial) :: BitVec.ofNat 8 (b2n x.prev) :: 0 :: natLe 4 (crc32c (x.head seq)))) := by
  simp only [Bcr.bytes_eq, Bcr.head, List.append_assoc, natLe_one_append]
  rfl

theorem Bcr.field_seq {seq : Nat} (h : seq < 2 ^ 32) : field (x.bytes seq) 4 4 = seq := by
  rw [Bcr.bytes_seq, field_after (length_natLe 4 _)]
  exact Nat.mod_eq_of_lt h

/-- The three flags of a record, as the ROM reads them. -/
def Bcr.ofBytes (b : List Byte) : Bcr := ⟨byteAt b 8 != 0, byteAt b 9 != 0, byteAt b 10 != 0⟩

theorem b2n_byte (b : Bool) : (BitVec.ofNat 8 (b2n b) != 0) = b := by cases b <;> rfl

theorem Bcr.ofBytes_bytes : Bcr.ofBytes (x.bytes seq) = x := by
  have flags : x.bytes seq = (natLe 4 0x54424C43 ++ natLe 4 seq) ++
      (BitVec.ofNat 8 (b2n x.active) :: BitVec.ofNat 8 (b2n x.trial) :: BitVec.ofNat 8 (b2n x.prev) :: 0 :: natLe 4 (crc32c (x.head seq))) := by
    rw [Bcr.bytes_seq, List.append_assoc]
  have len : (natLe 4 0x54424C43 ++ natLe 4 seq).length = 8 := by rw [List.length_append, length_natLe, length_natLe]
  have active : byteAt (x.bytes seq) 8 = BitVec.ofNat 8 (b2n x.active) := by rw [flags, byteAt_after len]
  have trial : byteAt (x.bytes seq) 9 = BitVec.ofNat 8 (b2n x.trial) := by
    rw [flags, List.append_cons, byteAt_after (by rw [List.length_append, len]; rfl)]
  have prev : byteAt (x.bytes seq) 10 = BitVec.ofNat 8 (b2n x.prev) := by
    rw [flags, List.append_cons, List.append_cons, byteAt_after (by rw [List.length_append, List.length_append, len]; rfl)]
  rw [Bcr.ofBytes, active, trial, prev, b2n_byte, b2n_byte, b2n_byte]
end

/-! ## The record in force -/

/-- Copy 1 where `c` is true. -/
def Flash.bootCopy (f : Flash) (c : Bool) : List Byte := if c then f.boot1 else f.boot0

/-- The copy that the ROM reads. -/
def Flash.bootNewer (f : Flash) : Option Bool := newerCopy (bcrOk f.boot0) (bcrOk f.boot1) (field f.boot0 4 4) (field f.boot1 4 4)

theorem Flash.bcr_of_newer {f : Flash} {c : Bool} (h : f.bootNewer = some c) : f.bcr = Bcr.ofBytes (f.bootCopy c) := by
  unfold Flash.bcr
  rw [show newerCopy (bcrOk f.boot0) (bcrOk f.boot1) (field f.boot0 4 4) (field f.boot1 4 4) = some c from h]
  rfl

/-- The copy written next, with its SEQ, is newer than the one that stays. -/
theorem newerCopy_next {ok0 ok1 : Bool} {seq0 seq1 : Nat} : let n := nextCopy ok0 ok1 seq0 seq1
    newerCopy (if n.1 then ok0 else true) (if n.1 then true else ok1) (if n.1 then seq0 else n.2) (if n.1 then n.2 else seq1) = some n.1 := by
  cases ok0 <;> cases ok1
  case true.true =>
    by_cases h : seq0 < seq1 <;> simp [nextCopy, newerCopy, h]
  all_goals simp [nextCopy, newerCopy]

theorem nextCopy_seq {ok0 ok1 : Bool} {seq0 seq1 b : Nat} (h0 : seq0 < b) (h1 : seq1 < b) : (nextCopy ok0 ok1 seq0 seq1).2 < b + 1 := by
  unfold nextCopy
  split
  · split <;> exact Nat.succ_lt_succ ‹_›
  · exact Nat.succ_lt_succ (Nat.zero_lt_of_lt h0)

/-- The record written last is in force, while SEQ can still rise. -/
theorem Flash.putBcr_bcr {f : Flash} (x : Bcr) (h0 : field f.boot0 4 4 < 2 ^ 32 - 1) (h1 : field f.boot1 4 4 < 2 ^ 32 - 1) :
    (f.putBcr x).bcr = x := by
  have seq := nextCopy_seq (ok0 := bcrOk f.boot0) (ok1 := bcrOk f.boot1) h0 h1
  have newer := newerCopy_next (ok0 := bcrOk f.boot0) (ok1 := bcrOk f.boot1) (seq0 := field f.boot0 4 4) (seq1 := field f.boot1 4 4)
  have put (n : Bool × Nat) (hn : nextCopy (bcrOk f.boot0) (bcrOk f.boot1) (field f.boot0 4 4) (field f.boot1 4 4) = n) :
      f.putBcr x = if n.1 then { f with boot1 := x.bytes n.2 } else { f with boot0 := x.bytes n.2 } := by rw [← hn]; rfl
  generalize hn : nextCopy (bcrOk f.boot0) (bcrOk f.boot1) (field f.boot0 4 4) (field f.boot1 4 4) = n at seq newer
  obtain ⟨c, q⟩ := n
  rw [put _ hn]
  have hq : field (x.bytes q) 4 4 = q := x.field_seq seq
  cases c with
  | true =>
    refine (Flash.bcr_of_newer (c := true) ?_).trans (x.ofBytes_bytes q)
    simpa [Flash.bootNewer, hq, Bcr.bytes_ok] using newer
  | false =>
    refine (Flash.bcr_of_newer (c := false) ?_).trans (x.ofBytes_bytes q)
    simpa [Flash.bootNewer, hq, Bcr.bytes_ok] using newer

theorem Flash.putBcr_bank (f : Flash) (x : Bcr) (b : Bool) : (f.putBcr x).bank b = f.bank b := by
  unfold Flash.putBcr
  dsimp only
  split <;> rfl

end Sys2Proof.Machine
end

section
/-! What a warm reset leaves (R182, R212, R270, R271, R368): the stations are vacant, and the pages and the activation stay but for their
vectors and answers; and the end of an activation (R293, R353). -/

namespace Sys2Proof.Machine

section
variable {s : State}

/-! ## Quarantine and the end of sessions leave the stations' tenure -/

theorem State.updStn_aside (st : Fin 16) {f : Station → Station} (hf : ∀ t, (f t).tenure = t.tenure) : (s.updStn st f).aside = s.aside := by
  refine State.aside_of rfl (fun st' => ?_) fun _ => rfl
  rw [State.updStn, vupd_get]
  split
  · exact hf _
  · rfl

theorem State.logEvt_aside (e : LogEvt) : (s.logEvt e).aside = s.aside := by
  unfold State.logEvt
  split <;> rfl

theorem State.quarantine_aside (st : Fin 16) (e : Nat) : (s.quarantine st e).aside = s.aside :=
  (State.logEvt_aside _).trans (State.updStn_aside (s := { s with crown := _ }) st fun _ => rfl)

theorem State.quarNarrow_aside : s.quarNarrow.aside = s.aside := by
  unfold State.quarNarrow
  refine foldl_same (g := State.aside) (fun s st => foldl_same (g := State.aside) (fun s g => ?_) _ s) _ s
  split
  · exact State.quarantine_aside st g.val
  · rfl

theorem State.closeAll_aside : s.closeAll.aside = s.aside := by
  unfold State.closeAll
  exact foldl_same (g := State.aside) (fun s ses => s.closeCheck_aside ses) _ s

/-! ## A warm reset leaves every station vacant -/

/-- A station that no job holds, with nothing queued and its Pantry scrubbed. -/
structure Station.Vacant (t : Station) : Prop where
  held : t.held = false
  mem : t.pantry.mem = []
  queues : t.queues = Vector.replicate 22 []

theorem Station.Vacant.of_tenure {t u : Station} (h : t.Vacant) (he : u.tenure = t.tenure) : u.Vacant where
  held := (congrArg (·.1) he :) |>.trans h.held
  mem := (congrArg (·.2.2.mem) he :) |>.trans h.mem
  queues := (congrArg (·.2.1) he :) |>.trans h.queues

theorem Station.warm_vacant (t : Station) (x : Funnel) : Station.Vacant { t.warm with funnel := x } := ⟨rfl, rfl, rfl⟩

/-- Crown's part of a warm reset: requests and jobs end. -/
def State.warmEnded (s : State) : State :=
  let s1 := ({ s with mortar := s.mortar.warm }).endRequests.endJobs
  s1.unmark s1.heldKeys

/-- The dies' part of a warm reset. -/
def State.warmDies (s : State) : State :=
  { s with
    stations := Vector.ofFn fun st =>
      let t := s.stations[st].warm
      { t with funnel := { t.funnel with pooled := s.unitOn st qFunnel } }
    net := []
    band := Vector.replicate 4 BndUnit.reset
    ioSes := s.ioSes.map fun (v : Vector StreamEng 8) => v.map StreamEng.stop
    mem := { s.mem with stackRegs := s.mem.stackRegs.map fun (x : Stack) => { x.trained with running := false } }
    crown := { s.crown with cache := if s.widthMoves then [] else s.crown.cache } }

theorem State.warmCore_eq : s.warmCore = s.warmEnded.warmDies.quarNarrow.closeAll := by
  unfold State.warmCore
  extract_lets s0 s1 s2 _ _ s3
  have dies : s3 = s2.warmDies := by
    clear_value s2
    rfl
  exact congrArg (fun t : State => t.quarNarrow.closeAll) dies

theorem State.warmCore_aside : s.warmCore.aside = s.warmEnded.warmDies.aside := by
  rw [State.warmCore_eq, State.closeAll_aside, State.quarNarrow_aside]

theorem State.warmDies_vacant (s : State) (st : Fin 16) : s.warmDies.stations[st].Vacant := by
  simp only [State.warmDies, Fin.getElem_fin, Vector.getElem_ofFn]
  exact Station.warm_vacant ..

theorem State.warmCore_vacant (s : State) (st : Fin 16) : s.warmCore.stations[st].Vacant :=
  (s.warmEnded.warmDies_vacant st).of_tenure (State.tenure_of_aside State.warmCore_aside st)

/-! ## The entries that a reset's end writes -/

/-- The activation in progress, the tenure of the stations, and which pages are enabled. -/
def State.footing (s : State) : Option Activation × Vector (Bool × Vector (List QEntry) 22 × Pantry) 16 × Vector Bool 64 :=
  (s.crown.activation, s.stations.map Station.tenure, s.mbx.map Mbx.en)

theorem State.enables_of {t : State} (h : ∀ g : Fin 64, t.mbx[g].en = s.mbx[g].en) : t.mbx.map Mbx.en = s.mbx.map Mbx.en :=
  vext fun g => by simpa using h g

theorem State.footing_of_aside {t : State} (h : t.aside = s.aside) : t.footing = s.footing := by
  have enables := State.enables_of fun g => Mbx.en_of_desk (State.desk_of_aside h g)
  have tenure : t.stations.map Station.tenure = s.stations.map Station.tenure := congrArg Aside.tenure h
  rw [State.footing, State.footing, State.activation_of_aside h, tenure, enables]

theorem State.entrySignalled_footing (f : Fin 64) (r : Reply) (rest : List Reply) : (s.entrySignalled f r rest).footing = s.footing := by
  have stations : (s.entrySignalled f r rest).stations = s.stations := by
    unfold State.entrySignalled
    split
    · exact State.signalCheck_keeps.same .stations (by decide)
    · exact State.msi_keeps.same .stations (by decide)
  have enables : (s.entrySignalled f r rest).mbx.map Mbx.en = s.mbx.map Mbx.en := State.enables_of fun g => by
    rw [Mbx.en_of_calm (State.entrySignalled_calm r rest g), State.entrySent, State.toHost_mbx, State.updMbx_get]
    split <;> rfl
  rw [State.footing, State.footing, State.entrySignalled_crown, stations, enables]

theorem State.writeEntry_footing (f : Fin 64) : (s.writeEntry f).footing = s.footing := by
  cases hr : s.mbx[f].replies with
  | nil => simp only [State.writeEntry, hr]
  | cons r rest =>
    by_cases h : (!s.mbx[f].en || !s.mbx[f].room) = true
    · simp only [State.writeEntry, hr, if_pos h]
    · rw [Bool.or_eq_true, not_or, Bool.not_eq_true', Bool.not_eq_false, Bool.not_eq_true', Bool.not_eq_false] at h
      obtain ⟨he, hroom⟩ := h
      obtain ⟨haside, -⟩ := State.writeEntry_from he hr hroom
      rw [State.footing_of_aside haside, State.entrySignalled_footing]

theorem State.writeAll_footing (f : Fin 64) : (s.writeAll f).footing = s.footing := by
  unfold State.writeAll
  exact foldl_same (g := State.footing) (fun s _ => State.writeEntry_footing f) _ s

theorem State.msi_footing (f : Fin 64) (v : Nat) : (s.msi f v).footing = s.footing := State.footing_of_aside (s.msi_aside f v)

theorem State.logDrain_footing : s.logDrain.footing = s.footing := by
  unfold State.logDrain
  refine foldl_same (g := State.footing) (fun s _ => ?_) _ s
  unfold State.logWrite
  split
  · rfl
  · exact State.msi_footing ..

theorem State.warmEnd_footing : s.warmEnd.footing = s.footing := by
  have writes : ((List.finRange 64).foldl State.writeAll s).footing = s.footing :=
    foldl_same (g := State.footing) (fun s f => State.writeAll_footing f) _ s
  unfold State.warmEnd
  generalize (List.finRange 64).foldl State.writeAll s = t at writes
  dsimp only
  rw [State.msi_footing, State.logDrain_footing, ← writes]
  rfl

theorem State.activation_of_footing {t : State} (h : t.footing = s.footing) : t.crown.activation = s.crown.activation :=
  congrArg Prod.fst h

/-! ## An activation ends, or falls back (R293, R353) -/

theorem State.endActivation_activation (code : Byte) (ver : Nat) : (s.endActivation code ver).crown.activation = none := by
  unfold State.endActivation
  dsimp only
  rw [State.activation_of_footing State.warmEnd_footing]
  split
  · rw [State.settle_activation, State.reply_crown]
  · rfl

theorem State.endActivation_boot (code : Byte) (ver : Nat) : (s.endActivation code ver).boot = { s.boot with state := .ready } := by
  unfold State.endActivation
  dsimp only
  rw [State.warmEnd_keeps.same .boot (by decide)]
  split
  · rw [State.settle_boot, State.reply_boot]
  · rfl

theorem State.fallBack_activation : s.fallBack.crown.activation = none := by
  unfold State.fallBack
  exact State.endActivation_activation ..

theorem State.endActivation_boot_of {t : State} (h : t.boot = s.boot) (code : Byte) (ver : Nat) :
    (t.endActivation code ver).boot = { s.boot with state := .ready } := h ▸ State.endActivation_boot ..

theorem State.retrainAll_boot : ((List.finRange 14).foldl State.retrain s).boot = s.boot :=
  foldl_same (g := State.boot) (fun _ _ => State.retrain_keeps.same .boot (by decide)) _ s

/-- The image of the bank before runs again, with FALLBACK set. -/
structure Boot.FellBack (b old : Boot) (prev : Bool) : Prop where
  state : b.state = .ready
  bank : b.bank = prev
  fallback : b.fallback = true
  trial : b.trial = false
  staged : b.staged = old.staged

theorem State.fallBack_boot : s.fallBack.boot.FellBack s.boot s.flash.bcr.prev := by
  unfold State.fallBack
  extract_lets b s1 _ s2 s3
  have retrained : s3.boot = s2.boot := by
    rw [State.retrainAll_boot, State.tick_boot, State.noteActivation_keeps.same .boot (by decide)]
  clear_value s3
  rw [State.endActivation_boot_of retrained]
  exact ⟨rfl, rfl, rfl, rfl, rfl⟩
end

end Sys2Proof.Machine
end

section
/-! Staging, activation and drain of firmware, and the writes of the configuration block (R293, R342, R351 to R354). -/

namespace Sys2Proof.Machine

section
variable {s : State}

/-! ## The banks -/

theorem Flash.putBank_bank_same (f : Flash) (b : Bool) (img : List Byte) : (f.putBank b img).bank b = img := by cases b <;> rfl

theorem Flash.putBank_bank_not (f : Flash) (b : Bool) (img : List Byte) : (f.putBank b img).bank (!b) = f.bank (!b) := by
  simpa only [Bool.not_not] using f.putBank_other (!b) img

theorem Flash.putCfg_banks (f : Flash) (a b c : List Byte) :
    (f.putCfg a b c).bankA = f.bankA ∧ (f.putCfg a b c).bankB = f.bankB := by
  unfold Flash.putCfg
  dsimp only
  split <;> exact ⟨rfl, rfl⟩

/-! ## Staging (R351, R352, R354) -/

theorem execFlashWriteDone_done {x : StageRun} (hs : s.Specified) (hr : s.ready = true) (hx : s.crown.stage = some x) :
    execFlashWriteDone true s = .next ((s.stageDone x).stageEnd x.ref Code.ok) := by
  rw [execFlashWriteDone, occurs_of hs (by rw [hr, hx]; rfl), hx]
  rfl

theorem execFlashWriteDone_failed {x : StageRun} (hs : s.Specified) (hr : s.ready = true) (hx : s.crown.stage = some x) :
    execFlashWriteDone false s = .next (({ s with
      crown := { s.crown with stage := none }
      boot := { s.boot with reason := 8 } } : State).stageEnd x.ref Code.internal) := by
  rw [execFlashWriteDone, occurs_of hs (by rw [hr, hx]; rfl), hx]
  rfl

theorem State.stageDone_firmware {x : StageRun} (h : x.config = false) : s.stageDone x = { s with
    crown := { s.crown with stage := none }
    boot := { s.boot with pct := 100, staged := true }
    flash := s.flash.putBank s.stageBank x.image } := by
  rw [State.stageDone, h]
  rfl

theorem State.stageDone_config {x : StageRun} (h : x.config = true) : s.stageDone x = { s with
    crown := { s.crown with stage := none }
    boot := { s.boot with pct := 100, cfgDirty := false }
    flash := s.flash.putCfg (((imgStatic x.image).getD []).take 512) (((imgStatic x.image).getD []).drop 512) s.boot.dynSec } := by
  rw [State.stageDone, h]
  rfl

theorem execPldmFirmwareUpdate_image (hs : s.Specified) (hr : s.ready = true) (hb : s.stageBusy = false) (img : List Byte) :
    execPldmFirmwareUpdate (some img) s = .next (s.stageBegin none (some img)) := by
  rw [execPldmFirmwareUpdate, occurs_of hs hr]
  dsimp only
  rw [hb]
  rfl

theorem execPldmFirmwareUpdate_activates (hs : s.Specified) (hr : s.ready = true) (hst : s.boot.staged = true)
    (hrec : s.boot.recovery = false) (ha : s.crown.activation = none) : execPldmFirmwareUpdate none s = .next { s with
      crown := { s.crown with activation := some ⟨none, true, BitVec.ofNat 32 s.fwVersion⟩ } } := by
  rw [execPldmFirmwareUpdate, occurs_of hs hr]
  dsimp only
  rw [hst, hrec, ha]
  rfl

theorem State.stageBegin_fails {img : List Byte} {c : Nat} (h : s.stageError img = some c) : s.stageBegin none (some img) = { s with
    boot := { s.boot with staged := false, stageConfig := imgType img == 2, reason := BitVec.ofNat 4 c } } := by
  unfold State.stageBegin
  dsimp only
  rw [h]
  rfl

/-! ## Activation (R293, R353) -/

/-- The record names the staged bank on trial, before the warm reset. -/
def State.activateBegin (s : State) : State :=
  { s with
    flash := s.flash.putBcr ⟨!s.boot.bank, true, s.boot.bank⟩
    boot := { s.boot with state := .activating, staged := false }
    crown := { s.crown with activation := s.crown.activation.map fun (a : Activation) => { a with draining := false } } }

/-- The module between the warm reset and the load of an image: the cache of translated images is empty. -/
def State.dropImages (s : State) : State := { s with crown := { s.crown with cache := [] } }

/-- The staged image is loaded, on trial. -/
def State.loadTrial (s : State) (b : Bool) : State :=
  { s.loadImage b with boot := { (s.loadImage b).boot with fallback := false, trial := true } }

theorem State.activate_eq : s.activate =
    if s.activateBegin.warmCore.dropImages.bankOk (!s.boot.bank) then s.activateBegin.warmCore.dropImages.loadTrial (!s.boot.bank)
    else s.activateBegin.warmCore.dropImages.fallBack := by
  unfold State.activate
  extract_lets old _ _ s1 s2 _ s3
  have begun : s1 = s.activateBegin := rfl
  have dropped : s3 = s2.dropImages := rfl
  have warm : s2 = s1.warmCore := rfl
  change (if s3.bankOk (!old) then s3.loadTrial (!old) else s3.fallBack) = _
  rw [dropped, warm, begun]

/-- What the warm reset of an activation leaves. -/
structure State.Activated (s t : State) : Prop where
  boot : t.boot = { s.boot with state := .activating, staged := false }
  fuses : t.fuses = s.fuses
  flash : t.flash = s.flash.putBcr ⟨!s.boot.bank, true, s.boot.bank⟩
  held : ∀ st : Fin 16, t.stations[st].held = false
  cache : t.crown.cache = []

theorem State.activated (s : State) : s.Activated s.activateBegin.warmCore.dropImages := by
  have boot : s.activateBegin.warmCore.boot = s.activateBegin.boot := State.warmCore_keeps.same .boot (by decide)
  have fuses : s.activateBegin.warmCore.fuses = s.activateBegin.fuses := State.warmCore_keeps.same .fuses (by decide)
  have flash : s.activateBegin.warmCore.flash = s.activateBegin.flash := State.warmCore_keeps.same .flash (by decide)
  have vacant := s.activateBegin.warmCore_vacant
  generalize s.activateBegin.warmCore = t at boot fuses flash vacant ⊢
  exact ⟨boot, fuses, flash, fun st => (vacant st).held, rfl⟩

theorem State.activated_bankOk : s.activateBegin.warmCore.dropImages.bankOk (!s.boot.bank) = s.bankOk (!s.boot.bank) := by
  rw [State.bankOk, s.activated.fuses, s.activated.flash, Flash.putBcr_bank]
  rfl

theorem execFirmwareActivation_activates (hs : s.Specified) (hr : s.ready = true) (hd : s.draining = true)
    (hj : ∀ x ∈ s.crown.jobs, x.2.state.ended = true) : execFirmwareActivation s = .next s.activate := by
  have drained : s.drained = true := List.all_eq_true.mpr hj
  rw [execFirmwareActivation, occurs_of hs (by rw [hr, hd, drained]; rfl)]

/-! ## The drain ends (R293), and the block is written (R351) -/

/-- DRAIN_TIMEOUT answers BUSY. -/
def State.drainEnds (s : State) : State :=
  match s.crown.activation.bind (·.ref) with
  | some r => ((({ s with crown := { s.crown with activation := none } } : State).reply r Code.busy).settle r.f)
  | none => { s with crown := { s.crown with activation := none } }

theorem execDrainTimeout_effect (hs : s.Specified) (hr : s.ready = true) (hd : s.draining = true) (hn : s.drained = false) :
    execDrainTimeout s = .next s.drainEnds := by
  rw [execDrainTimeout, occurs_of hs (by rw [hr, hd, hn]; rfl)]
  rfl

theorem State.drainEnds_keeps : s.drainEnds.crown.activation = none ∧ s.drainEnds.boot = s.boot ∧
    s.drainEnds.stations = s.stations ∧ s.drainEnds.crown.jobs = s.crown.jobs := by
  unfold State.drainEnds
  split
  · rw [State.settle_activation, State.settle_boot, State.settle_stations, State.settle_jobs, State.reply_crown, State.reply_boot,
      State.reply_stations]
    exact ⟨rfl, rfl, rfl, rfl⟩
  · exact ⟨rfl, rfl, rfl, rfl⟩

theorem execConfigBlockWrite_effect (hs : s.Specified) (hd : s.boot.cfgDirty = true) (hoff : s.boot.state ≠ .off) (hrom : s.boot.state ≠ .rom) :
    execConfigBlockWrite s = .next { s with
      boot := { s.boot with cfgDirty := false }
      flash := s.flash.putCfg (slice s.flash.cfgBlock 0x10 512) (slice s.flash.cfgBlock 0x210 7856) s.boot.dynSec } := by
  rw [execConfigBlockWrite, occurs_of hs (by rw [hd, bne_iff_ne.mpr hoff, bne_iff_ne.mpr hrom]; rfl)]
end

/-- Settles O42: staging ends on one path, and an activation loads or falls back after a warm reset that keeps flash and fuses; the
record written last is the one in force. -/
theorem firmwareStagedAndActivated : Obligations.FirmwareStagedAndActivated := by
  intro s hs
  refine ⟨fun x hr hx => ⟨fun hc => ?staged, fun hc => ?config, ?failed⟩, fun hr hst ha => ⟨fun img he => ?passes, fun img c he => ?fails,
    fun hst hrec => execPldmFirmwareUpdate_activates hs hr hst hrec ha⟩, fun hr hd hj hok => ?trial, fun hr hd hj hok h0 h1 => ?back,
    fun hr hd hn => ⟨_, execDrainTimeout_effect hs hr hd hn, State.drainEnds_keeps⟩, fun hd hoff hrom => execConfigBlockWrite_effect hs hd hoff hrom⟩
  case staged =>
    refine ⟨_, execFlashWriteDone_done hs hr hx, ?_⟩
    rw [State.stageEnd_keeps.same .crown (by decide), State.stageEnd_keeps.same .boot (by decide),
      State.stageEnd_keeps.same .flash (by decide), State.stageDone_firmware hc]
    exact ⟨rfl, rfl, rfl, Flash.putBank_bank_same .., Flash.putBank_bank_not ..⟩
  case config =>
    refine ⟨_, execFlashWriteDone_done hs hr hx, ?_⟩
    rw [State.stageEnd_keeps.same .crown (by decide), State.stageEnd_keeps.same .boot (by decide),
      State.stageEnd_keeps.same .flash (by decide), State.stageDone_config hc]
    exact ⟨rfl, rfl, rfl, rfl, Flash.putCfg_banks ..⟩
  case failed =>
    refine ⟨_, execFlashWriteDone_failed hs hr hx, ?_⟩
    rw [State.stageEnd_keeps.same .crown (by decide), State.stageEnd_keeps.same .boot (by decide),
      State.stageEnd_keeps.same .flash (by decide)]
    exact ⟨rfl, rfl, rfl⟩
  case passes =>
    obtain ⟨t, rfl, hstaged, hstage, -⟩ := State.stageBegin_passes he none
    exact ⟨_, execPldmFirmwareUpdate_image hs hr (by rw [State.stageBusy, hst, ha]; rfl) img, hstaged, hstage⟩
  case fails =>
    refine ⟨_, execPldmFirmwareUpdate_image hs hr (by rw [State.stageBusy, hst, ha]; rfl) img, ?_⟩
    rw [State.stageBegin_fails he]
    exact ⟨rfl, rfl, rfl, rfl⟩
  case trial =>
    obtain ⟨hboot, -, hflash, hheld, hcache⟩ := s.activated
    refine ⟨_, execFirmwareActivation_activates hs hr hd hj, ?_⟩
    rw [State.activate_eq, State.activated_bankOk, if_pos hok]
    generalize s.activateBegin.warmCore.dropImages = t at hboot hflash hheld hcache ⊢
    exact ⟨(congrArg Boot.staged hboot :), (congrArg Boot.state hboot :), rfl, rfl, hcache, hflash, hheld⟩
  case back =>
    obtain ⟨hboot, -, hflash, -, -⟩ := s.activated
    refine ⟨_, execFirmwareActivation_activates hs hr hd hj, ?_⟩
    rw [State.activate_eq, State.activated_bankOk, if_neg (Bool.eq_false_iff.mp hok)]
    obtain ⟨hstate, hbank, hfallback, htrial, hstaged⟩ := State.fallBack_boot (s := s.activateBegin.warmCore.dropImages)
    rw [hflash, Flash.putBcr_bcr _ h0 h1] at hbank
    exact ⟨hstaged.trans (congrArg Boot.staged hboot :), hstate, hbank, hfallback, htrial, State.fallBack_activation⟩

end Sys2Proof.Machine
end

section
/-! Cold boot, the watchdog, the load of Mortar's programs and the confirmation of an image (R327, R345 to R348, R353). -/

namespace Sys2Proof.Machine

section
variable {s : State}

/-! ## The ROM and the firmware's start (R345, R347) -/

/-- What the ROM's first steps set. -/
structure State.RomRead (s t : State) : Prop where
  locked : t.boot.locked = true
  zeroing : t.mem.zeroing = true
  ready : t.mem.ready = s.mem.ready
  flash : t.flash = s.flash
  fuses : t.fuses = s.fuses

theorem State.romRead_sets : s.RomRead s.romRead := by
  refine ⟨?_, ?_, ?_, State.romRead_keeps.same .flash (by decide), State.romRead_keeps.same .fuses (by decide)⟩ <;>
  · unfold State.romRead
    split
    split
    rfl

theorem State.bankOk_congr {t : State} (hf : t.flash = s.flash) (hu : t.fuses = s.fuses) (b : Bool) : t.bankOk b = s.bankOk b := by
  rw [State.bankOk, State.bankOk, hf, hu]

/-- The firmware's start sets up stations and ports, and reports what it finds. -/
theorem State.firmConfig_touches : State.Keeps [.stations, .crown, .mbx, .hostOut, .mon, .fab] s s.firmConfig := by
  unfold State.firmConfig
  extract_lets _ _ s1 s2
  have h1 : State.Keeps [.stations, .crown, .mbx, .hostOut, .mon, .fab] s s1 := .within (State.setStationsFab_keeps fun c st => by
    simp only [Fin.getElem_fin, Vector.getElem_ofFn]; exact Station.setGriddles_wf (c.station st))
  have h2 : State.Keeps [.stations, .crown, .mbx, .hostOut, .mon, .fab] s s2 := .after State.quarNarrow_keeps h1
  exact State.ite_keeps (.after State.msi_keeps (.after State.logEvt_keeps h2)) h2

/-- A module whose firmware starts from a bank. -/
structure State.Starts (s t : State) (bank fallback trial : Bool) : Prop where
  state : t.boot.state = .starting
  bank : t.boot.bank = bank
  fallback : t.boot.fallback = fallback
  trial : t.boot.trial = trial
  recovery : t.boot.recovery = false
  locked : t.boot.locked = s.boot.locked
  mem : t.mem = s.mem
  fuses : t.fuses = s.fuses
  load : t.mortar.load.isSome = true

theorem State.startBank_starts (b fallback trial : Bool) : s.Starts (s.startBank b fallback trial) b fallback trial :=
  ⟨rfl, rfl, rfl, rfl, rfl, rfl, rfl, rfl, rfl⟩

theorem State.otherBank_starts (b : Bool) : s.Starts (s.otherBank b) b true false := ⟨rfl, rfl, rfl, rfl, rfl, rfl, rfl, rfl, rfl⟩

theorem State.Starts.firmConfig {t : State} {b fallback trial : Bool} (h : s.Starts t b fallback trial) :
    s.Starts t.firmConfig b fallback trial := by
  have boot : t.firmConfig.boot = t.boot := State.firmConfig_touches.same .boot (by decide)
  have mem : t.firmConfig.mem = t.mem := State.firmConfig_touches.same .mem (by decide)
  have fuses : t.firmConfig.fuses = t.fuses := State.firmConfig_touches.same .fuses (by decide)
  have mortar : t.firmConfig.mortar = t.mortar := State.firmConfig_touches.same .mortar (by decide)
  obtain ⟨hstate, hbank, hfallback, htrial, hrecovery, hlocked, hmem, hfuses, hload⟩ := h
  exact ⟨boot ▸ hstate, boot ▸ hbank, boot ▸ hfallback, boot ▸ htrial, boot ▸ hrecovery, boot ▸ hlocked, mem ▸ hmem, fuses ▸ hfuses,
    mortar ▸ hload⟩

theorem execColdBoot_effect (hs : s.Specified) (hb : s.boot.state = .rom) (hp : s.power.pwrgd = true) (hr : s.power.refclk = true)
    (ht : s.power.tripped = false) : execColdBoot s = .next s.coldBoot := by
  rw [execColdBoot, occurs_of hs (by rw [hb, hp, hr, ht]; rfl)]

theorem State.romRead_bankOk (b : Bool) : s.romRead.bankOk b = s.bankOk b :=
  State.bankOk_congr s.romRead_sets.flash s.romRead_sets.fuses b

/-- The ROM's choice of a bank, by the record in force and the images in flash. -/
theorem State.coldBoot_eq : s.coldBoot =
    if s.bankOk s.flash.bcr.active then (s.romRead.startBank s.flash.bcr.active false s.flash.bcr.trial).firmConfig
    else if s.bankOk (!s.flash.bcr.active) then (s.romRead.otherBank (!s.flash.bcr.active)).firmConfig
    else s.romRead.enterRecovery := by
  unfold State.coldBoot
  dsimp only
  rw [State.romRead_bankOk, State.romRead_bankOk, s.romRead_sets.flash]

/-! ## The watchdog (R346) -/

theorem execWatchdogExpiry_starting (hs : s.Specified) (hb : s.boot.state = .starting) : execWatchdogExpiry s =
    .next (if s.boot.triedOther || !s.bankOk (!s.boot.bank) then s.enterRecovery else s.otherBank (!s.boot.bank)) := by
  rw [execWatchdogExpiry, hb, if_neg (by decide), occurs_of hs (by rfl)]

theorem execWatchdogExpiry_activating (hs : s.Specified) (hb : s.boot.state = .activating) : execWatchdogExpiry s = .next s.fallBack := by
  rw [execWatchdogExpiry, if_pos hb, occurs_of hs rfl]

/-! ## Mortar's programs (R327) -/

theorem State.tryReady_eq {t : State} (h : t.mortar.load = none) : t.tryReady =
    { t with boot := if t.boot.state = .starting ∧ t.mem.ready = true then { t.boot with state := .ready } else t.boot } := by
  unfold State.tryReady
  by_cases hr : t.boot.state = .starting ∧ t.mem.ready = true
  · rw [if_pos ⟨hr.1, hr.2, h⟩, if_pos hr]
  · rw [if_neg fun ⟨hstate, hready, _⟩ => hr ⟨hstate, hready⟩, if_neg hr]

theorem execMortarProgramLoad_loads {p : BitVec 9 × List Byte} (hs : s.Specified) (hl : s.mortar.load = some p) (hq : s.mortar.queue = [])
    (hr : s.mortar.running = none) (hv : s.mortar.saved = []) : execMortarProgramLoad s = .next (({ s with
      mortar := { s.mortar with prog := p.1, progs := p.2, load := none } } : State).tryReady) := by
  rw [execMortarProgramLoad, occurs_of hs (by rw [hl, Mortar.idle, hq, hr, hv]; rfl), State.updMortar, Mortar.loadNow, hl]

/-! ## Confirmation (R348, R353) -/

theorem testBit_two_pow_sub_two_pow {a b i : Nat} (ha : a ≤ i) (hb : i < b) : (2 ^ b - 2 ^ a).testBit i = true := by
  have spread : 2 ^ b - 2 ^ a = 2 ^ a * (2 ^ (b - a) - 1) := by
    rw [Nat.mul_sub, ← Nat.pow_add, Nat.add_sub_cancel' (by omega), Nat.mul_one]
  rw [spread, Nat.testBit_two_pow_mul, Nat.testBit_two_pow_sub_one]
  simp only [Bool.and_eq_true, decide_eq_true_eq]
  omega

theorem bitAt_or_right {w i : Nat} (a m : BitVec w) (h : bitAt m.toNat i = true) : bitAt (a ||| m).toNat i = true := by
  rw [BitVec.or_comm]
  exact bitAt_or_left m a h

/-- Every step from SVNF up to the image's SVN is blown, in both fuses of its pair. -/
theorem Fuses.blow_steps (f : Fuses) {svn i : Nat} (h64 : i < 64) (ha : f.svnf ≤ i) (hb : i < svn) :
    bitAt (f.blow svn).svnA.toNat i = true ∧ bitAt (f.blow svn).svnB.toNat i = true := by
  have step : bitAt (BitVec.ofNat 64 (2 ^ svn - 2 ^ f.svnf)).toNat i = true := by
    rw [bitAt_toNat, BitVec.getLsbD_ofNat, testBit_two_pow_sub_two_pow ha hb, decide_eq_true h64]
    rfl
  unfold Fuses.blow
  dsimp only
  rw [if_pos (Nat.lt_of_le_of_lt ha hb)]
  exact ⟨bitAt_or_right _ _ step, bitAt_or_right _ _ step⟩

theorem execImageConfirm_confirms (hs : s.Specified) (hb : s.boot.state = .ready) (ht : s.boot.trial = true)
    (hr : s.boot.recovery = false) : execImageConfirm s = .next s.confirm := by
  rw [execImageConfirm, hb, if_neg (by decide), occurs_of hs (by rw [ht, hr]; rfl)]

/-- The confirmed module, with the activation counted, before the ports renew their records. -/
def State.countActivation (s : State) : State :=
  { s.confirm with boot := { s.confirm.boot with activations := wrapAdd s.boot.activations 1 } }

/-- The end of an activation whose image is confirmed. -/
def State.activationConfirmed (s : State) : State :=
  ((s.countActivation.noteActivation s.countActivation.someCode).tick.renegotiate).announce

theorem execImageConfirm_ends (hs : s.Specified) (hb : s.boot.state = .activating) (hl : s.mortar.load = none) :
    execImageConfirm s = .next (s.activationConfirmed.endActivation Code.ok s.countActivation.fwVersion) := by
  rw [execImageConfirm, if_pos hb, occurs_of hs (by rw [hl]; rfl)]
  rfl

theorem State.activationConfirmed_boot : s.activationConfirmed.boot = s.countActivation.boot := by
  rw [State.activationConfirmed, State.announce_keeps.same .boot (by decide), State.renegotiate_keeps.same .boot (by decide),
    State.tick_boot, State.noteActivation_keeps.same .boot (by decide)]
end

/-- Settles O41: the ROM's choice rests on the fuses and the flash, which its first steps leave, and the firmware's start leaves what the
ROM has set. -/
theorem bootStarts : Obligations.BootStarts := by
  intro s hs
  refine ⟨fun hb hp hr ht => ⟨fun ha => ?active, fun ha ho => ?other, fun ha ho => ?recovery⟩,
    fun hb => ⟨fun ht ho => ?tries, fun h => ?gives⟩, fun hb => ?falls, fun p hl hq hr hv => ?load, fun hb ht hr => ?confirm,
    fun hb hl => ?ends⟩
  case active =>
    refine ⟨_, execColdBoot_effect hs hb hp hr ht, ?_⟩
    rw [State.coldBoot_eq, if_pos ha]
    obtain ⟨hlocked, hzeroing, hready, hflash, hfuses⟩ := s.romRead_sets
    have starts := (s.romRead.startBank_starts s.flash.bcr.active false s.flash.bcr.trial).firmConfig
    refine ⟨starts.locked.trans hlocked, ?_, ?_, starts.fuses.trans hfuses, starts.state, starts.bank, starts.fallback, starts.trial,
      starts.recovery, ?_, starts.load⟩
    · rw [starts.mem, hzeroing]
    · rw [starts.mem, hready]
    · rw [State.firmConfig_touches.same .flash (by decide)]
      exact hflash
  case other =>
    refine ⟨_, execColdBoot_effect hs hb hp hr ht, ?_⟩
    rw [State.coldBoot_eq, if_neg (Bool.eq_false_iff.mp ha), if_pos ho]
    obtain ⟨hlocked, hzeroing, -, -, hfuses⟩ := s.romRead_sets
    have starts := (s.romRead.otherBank_starts (!s.flash.bcr.active)).firmConfig
    exact ⟨starts.locked.trans hlocked, starts.mem ▸ hzeroing, starts.fuses.trans hfuses, starts.state, starts.bank, starts.fallback,
      starts.trial⟩
  case recovery =>
    refine ⟨_, execColdBoot_effect hs hb hp hr ht, ?_⟩
    rw [State.coldBoot_eq, if_neg (Bool.eq_false_iff.mp ha), if_neg (Bool.eq_false_iff.mp ho)]
    obtain ⟨hlocked, hzeroing, -, -, hfuses⟩ := s.romRead_sets
    exact ⟨hlocked, hzeroing, hfuses, rfl, rfl⟩
  case tries =>
    refine ⟨_, execWatchdogExpiry_starting hs hb, ?_⟩
    rw [ht, ho]
    exact ⟨rfl, rfl, rfl, rfl⟩
  case gives =>
    refine ⟨s.enterRecovery, (execWatchdogExpiry_starting hs hb).trans (congrArg Host.Outcome.next (if_pos ?_)), rfl, rfl⟩
    obtain h | h := h
    · rw [h]
      rfl
    · rw [h, Bool.not_false, Bool.or_true]
  case falls =>
    obtain ⟨hstate, hbank, hfallback, htrial, -⟩ := s.fallBack_boot
    exact ⟨_, execWatchdogExpiry_activating hs hb, hstate, hbank, hfallback, htrial, State.fallBack_activation⟩
  case load =>
    exact (execMortarProgramLoad_loads hs hl hq hr hv).trans (congrArg Host.Outcome.next (State.tryReady_eq rfl))
  case confirm =>
    refine ⟨_, execImageConfirm_confirms hs hb ht hr, rfl, fun i h64 ha hi => Fuses.blow_steps _ h64 ha hi,
      (s.fuses.blow_grows _).svnA⟩
  case ends =>
    refine ⟨_, execImageConfirm_ends hs hb hl, ?_⟩
    rw [State.endActivation_boot_of s.activationConfirmed_boot, State.endActivation_activation]
    exact ⟨rfl, rfl, rfl, rfl⟩

end Sys2Proof.Machine
end

section
/-! What ends with a reset (R270, R271, R278, R293, R339, R369): pages are cleared, requests and jobs end, Mortar rests, and no job of the
function goes on. -/

namespace Sys2Proof.Machine

section
variable {s : State}

/-! ## Which pages are enabled -/

/-- Which pages are enabled. -/
def State.enables (s : State) : Vector Bool 64 := s.mbx.map Mbx.en

theorem State.enables_get (g : Fin 64) : s.enables[g] = s.mbx[g].en := by simp [State.enables]

theorem State.en_of_enables {t : State} (h : t.enables = s.enables) (g : Fin 64) : t.mbx[g].en = s.mbx[g].en := by
  rw [← State.enables_get, h, State.enables_get]

theorem State.enables_of_mbx {t : State} (h : t.mbx = s.mbx) : t.enables = s.enables := congrArg (fun v : Vector Mbx 64 => v.map Mbx.en) h

theorem State.enables_of_footing {t : State} (h : t.footing = s.footing) : t.enables = s.enables :=
  congrArg (fun x : Option Activation × Vector (Bool × Vector (List QEntry) 22 × Pantry) 16 × Vector Bool 64 => x.2.2) h

theorem State.enables_of_aside {t : State} (h : t.aside = s.aside) : t.enables = s.enables :=
  State.enables_of_footing (State.footing_of_aside h)

theorem State.complete_enables (r : ReqRef) (c : Byte) (b : List Byte) : (s.complete r c b).enables = s.enables :=
  State.enables_of_aside (s.pushPlain_aside ..)

theorem State.reply_enables (r : ReqRef) (c : Byte) (b : List Byte) : (s.reply r c b).enables = s.enables :=
  State.enables_of_aside (s.pushPlain_aside ..)

theorem State.completeJob_enables (j : Nat) (c : Byte) : (s.completeJob j c).enables = s.enables := by
  unfold State.completeJob State.push
  dsimp only
  split
  · exact State.enables_of_aside (s.pushPlain_aside ..)
  · exact State.enables_of_aside (s.jobWritten_aside j)

theorem State.cleanup_enables (j : Nat) : (s.cleanup j).enables = s.enables :=
  (State.completeJob_enables ..).trans (State.enables_of_mbx (State.releaseJob_mbx ..))

theorem State.finishCommit_enables (e : JournalEntry) : (s.finishCommit e).enables = s.enables :=
  (State.completeJob_enables ..).trans (State.enables_of_mbx (State.releaseJob_mbx ..))

theorem State.abortJob_enables (j : Nat) (c : Byte) : (s.abortJob j c).enables = s.enables := State.enables_of_mbx (State.abortJob_mbx ..)

theorem State.endVerifies_enables (p : VerifyReq → Bool) : (s.endVerifies p).enables = s.enables := by
  unfold State.endVerifies
  refine foldl_same (g := State.enables) (fun s v => ?_) _ s
  dsimp only
  split
  · rw [State.complete_enables]
    rfl
  · rfl

/-! ## A page is cleared (R278) -/

theorem State.clearPage_en (f g : Fin 64) : (s.clearPage f).mbx[g].en = if g = f then false else s.mbx[g].en := by
  have page : (s.clearPage f).mbx = ((s.dropReplies f).updMbx f fun m => { Mbx.reset with msix := m.msix, pba := m.pba }).mbx := rfl
  rw [page, State.updMbx_get]
  split
  · rfl
  · exact Mbx.en_of_desk (s.dropReplies_desk f g)

theorem State.clearPages_en {l : List (Fin 64)} {g : Fin 64} (h : g ∈ l ∨ s.mbx[g].en = false) :
    (l.foldl State.clearPage s).mbx[g].en = false := by
  induction l generalizing s with
  | nil => exact h.resolve_left List.not_mem_nil
  | cons f l ih =>
    refine ih ?_
    rw [State.clearPage_en]
    by_cases hg : g = f
    · exact .inr (if_pos hg)
    · rw [if_neg hg]
      exact h.imp_left fun h => (List.mem_cons.mp h).resolve_left hg

theorem State.clearPage_touches {f : Fin 64} : State.Keeps [.stations, .mem, .crown, .mbx, .hostOut, .mon] s (s.clearPage f) :=
  .after State.setCrown_keeps (.after State.unmark_keeps (.after State.updMbx_keeps (.within State.dropReplies_keeps)))

theorem State.unmark_units (keys : List Nat) : (s.unmark keys).mon.units = s.mon.units := rfl

theorem State.clearPage_units (f : Fin 64) : (s.clearPage f).mon.units = s.mon.units := by
  have units : (s.clearPage f).mon.units = (s.dropReplies f).mon.units := rfl
  rw [units, State.dropReplies_keeps.same .mon (by decide)]

/-! ## Mortar rests (R339) -/

/-- Mortar with these programs and no job. -/
structure Mortar.Rests (m : Mortar) (prog : BitVec 9) : Prop where
  prog : m.prog = prog
  queue : m.queue = []
  running : m.running = none
  saved : m.saved = []

theorem Mortar.Rests.cancel {m : Mortar} {prog : BitVec 9} (h : m.Rests prog) (n : Nat) (tag : BitVec 16) : (m.cancel n tag).Rests prog := by
  have inactive : m.active tag = false := by
    rw [Mortar.active, h.queue, h.running, h.saved]
    rfl
  rw [Mortar.cancel, inactive]
  exact h

/-- An abort cancels the Mortar job that the job waits for, if any. -/
theorem State.abortJob_mortar (j : Nat) (c : Byte) :
    (s.abortJob j c).mortar = s.mortar ∨ ∃ tag, (s.abortJob j c).mortar = s.mortar.cancel s.fresh tag := by
  by_cases hab : ∃ x, s.crown.jobs.get? j = some x ∧ x.state.abortable = true
  · obtain ⟨x, hx, ha⟩ := hab
    rw [State.abortJob_of _ _ hx ha]
    cases x.mtag with
    | none => exact .inl (by simp only [State.mapStns_mortar, State.updJob_mortar])
    | some tag => exact .inr ⟨tag, rfl⟩
  · rw [State.abortJob_none _ _ fun x hx => Bool.eq_false_iff.mpr fun ha => hab ⟨x, hx, ha⟩]
    exact .inl rfl

theorem State.abortJob_rests {prog : BitVec 9} (h : s.mortar.Rests prog) (j : Nat) (c : Byte) :
    (s.abortJob j c).mortar.Rests prog := by
  obtain hm | ⟨tag, hm⟩ := s.abortJob_mortar j c
  · rw [hm]
    exact h
  · rw [hm]
    exact h.cancel _ tag

theorem State.endVerifies_rests {prog : BitVec 9} (h : s.mortar.Rests prog) (p : VerifyReq → Bool) :
    (s.endVerifies p).mortar.Rests prog := by
  unfold State.endVerifies
  refine List.foldlRecOn (motive := fun t : State => t.mortar.Rests prog) _ _ h fun t ht v _ => ?_
  obtain ⟨hprog, hqueue, hrunning, hsaved⟩ := ht.cancel t.fresh v.mtag
  have rests : ((t.mortar.cancel t.fresh v.mtag).release v.slots).Rests prog := ⟨hprog, hqueue, hrunning, hsaved⟩
  dsimp only
  split
  · rw [State.complete_keeps.same .mortar (by decide)]
    exact rests
  · exact rests

/-! ## Requests and jobs end with a warm reset -/

/-- Pages enabled as before, and Mortar at rest. -/
structure State.Settled (s : State) (enables : Vector Bool 64) (prog : BitVec 9) : Prop where
  enables : s.enables = enables
  rests : s.mortar.Rests prog

section
variable {e : Vector Bool 64} {prog : BitVec 9} (h : s.Settled e prog)
include h

theorem State.Settled.of {t : State} (he : t.enables = s.enables) (hm : t.mortar = s.mortar) : t.Settled e prog :=
  ⟨he.trans h.enables, hm ▸ h.rests⟩

theorem State.Settled.unmark (keys : List Nat) : (s.unmark keys).Settled e prog := h.of rfl rfl

theorem State.Settled.complete (r : ReqRef) (c : Byte) (b : List Byte) : (s.complete r c b).Settled e prog :=
  h.of (State.complete_enables ..) (State.complete_keeps.same .mortar (by decide))

theorem State.Settled.endVerifies (p : VerifyReq → Bool) : (s.endVerifies p).Settled e prog :=
  ⟨(State.endVerifies_enables p).trans h.enables, State.endVerifies_rests h.rests p⟩

theorem State.Settled.endRequests : s.endRequests.Settled e prog := by
  unfold State.endRequests
  extract_lets s1 s2 s3 s4 s5
  have h1 : s1.Settled e prog := h.endVerifies _
  have h2 : s2.Settled e prog := by
    dsimp only [s2]
    split
    · exact h1.complete ..
    · exact h1
  have h3 : s3.Settled e prog :=
    List.foldlRecOn (motive := fun t : State => t.Settled e prog) _ _ h2 fun t ht x _ => ht.complete ..
  have h4 : s4.Settled e prog := by
    dsimp only [s4]
    split
    · refine State.Settled.complete ?_ ..
      exact h3.of (State.enables_of_mbx (State.marginEnd_keeps.same .mbx (by decide))) (State.marginEnd_keeps.same .mortar (by decide))
    · exact h3
  have h5 : s5.Settled e prog := by
    dsimp only [s5]
    split
    · split
      · exact h4.of (State.reply_enables ..) (State.reply_keeps.same .mortar (by decide))
      · exact h4
    · exact h4
  exact h5.of rfl rfl

theorem State.Settled.replayJournal : s.replayJournal.Settled e prog := by
  unfold State.replayJournal
  refine List.foldlRecOn (motive := fun t : State => t.Settled e prog) _ _ h fun t ht x _ => ?_
  dsimp only
  split
  · exact ht
  · split
    · exact ht.of rfl rfl
    · exact ht.of (State.finishCommit_enables x) (State.finishCommit_keeps.same .mortar (by decide))

theorem State.Settled.endJobs : s.endJobs.Settled e prog := by
  unfold State.endJobs
  extract_lets s1 s2
  have h1 : s1.Settled e prog := h.replayJournal
  have h2 : s2.Settled e prog := List.foldlRecOn (motive := fun t : State => t.Settled e prog) _ _ h1 fun t ht j _ =>
    ⟨(State.abortJob_enables ..).trans ht.enables, State.abortJob_rests ht.rests ..⟩
  exact List.foldlRecOn (motive := fun t : State => t.Settled e prog) _ _ h2 fun t ht j _ =>
    ht.of (State.cleanup_enables j) (State.cleanup_keeps.same .mortar (by decide))
end

theorem State.warmEnded_settled : s.warmEnded.Settled s.enables s.mortar.prog := by
  have start : State.Settled { s with mortar := s.mortar.warm } s.enables s.mortar.prog := ⟨rfl, rfl, rfl, rfl, rfl⟩
  unfold State.warmEnded
  exact start.endRequests.endJobs.unmark _

theorem State.warmEnded_units : s.warmEnded.mon.units = s.mon.units := by
  unfold State.warmEnded
  dsimp only
  rw [State.unmark_units, State.endJobs_keeps.same .mon (by decide), State.endRequests_keeps.same .mon (by decide)]

theorem State.quarNarrow_units : s.quarNarrow.mon.units = s.mon.units := by
  unfold State.quarNarrow
  refine foldl_same (g := fun t => t.mon.units) (fun s st => foldl_same (g := fun t => t.mon.units) (fun s g => ?_) _ s) _ s
  split
  · exact State.logEvt_units ..
  · rfl

section
variable (s : State)

theorem State.warmDies_mbx : s.warmDies.mbx = s.mbx := by rw [State.warmDies]

theorem State.warmDies_mortar : s.warmDies.mortar = s.mortar := by rw [State.warmDies]

theorem State.warmDies_net : s.warmDies.net = [] := by rw [State.warmDies]

theorem State.warmDies_mon : s.warmDies.mon = s.mon := by rw [State.warmDies]
end

/-- What a warm reset leaves, up to the writing of completions. -/
structure State.WarmCored (s t : State) : Prop where
  settled : t.Settled s.enables s.mortar.prog
  vacant : ∀ st : Fin 16, t.stations[st].Vacant
  net : t.net = []
  units : t.mon.units = s.mon.units

theorem State.warmCore_leaves : s.WarmCored s.warmCore := by
  have enables : s.warmCore.enables = s.warmEnded.enables :=
    (State.enables_of_aside State.warmCore_aside).trans (State.enables_of_mbx (State.warmDies_mbx _))
  have mortar : s.warmCore.mortar = s.warmEnded.mortar := by
    rw [State.warmCore_eq, State.closeAll_keeps.same .mortar (by decide), State.quarNarrow_keeps.same .mortar (by decide),
      State.warmDies_mortar]
  have net : s.warmCore.net = [] := by
    rw [State.warmCore_eq, State.closeAll_keeps.same .net (by decide), State.quarNarrow_keeps.same .net (by decide), State.warmDies_net]
  have units : s.warmCore.mon.units = s.warmEnded.mon.units := by
    rw [State.warmCore_eq, State.closeAll_keeps.same .mon (by decide), State.quarNarrow_units, State.warmDies_mon]
  exact ⟨State.warmEnded_settled.of enables mortar, s.warmCore_vacant, net, units.trans State.warmEnded_units⟩

theorem State.warmEnd_units : s.warmEnd.mon.units = s.mon.units := by
  have writes : ((List.finRange 64).foldl State.writeAll s).mon = s.mon :=
    foldl_same (g := State.mon) (fun s f => State.writeAll_keeps.same .mon (by decide)) _ s
  have drains (t : State) : t.logDrain.mon.units = t.mon.units := by
    unfold State.logDrain
    refine foldl_same (g := fun t => t.mon.units) (fun t _ => ?_) _ t
    unfold State.logWrite
    split
    · rfl
    · rw [State.msi_mon]
  unfold State.warmEnd
  generalize (List.finRange 64).foldl State.writeAll s = t at writes
  dsimp only
  rw [State.msi_mon, drains, ← writes]

/-! ## No job of the function goes on (R369) -/

/-- Every job keeps its function, and its state or one in which it can no longer be ended. -/
def Tab.Settles (t u : Tab Job) : Prop :=
  ∀ j y, u.get? j = some y → ∃ x, t.get? j = some x ∧ y.func = x.func ∧ (y.state = x.state ∨ y.state.abortable = false)

theorem Tab.Settles.refl (t : Tab Job) : Tab.Settles t t := fun _ y hy => ⟨y, hy, rfl, .inl rfl⟩

theorem Tab.Settles.trans {t u v : Tab Job} (h : Tab.Settles t u) (h' : Tab.Settles u v) : Tab.Settles t v := by
  intro j z hz
  obtain ⟨y, hy, hfunc, hstate⟩ := h' j z hz
  obtain ⟨x, hx, hfunc', hstate'⟩ := h j y hy
  refine ⟨x, hx, hfunc.trans hfunc', ?_⟩
  obtain hstate | hstate := hstate
  · rw [hstate]
    exact hstate'
  · exact .inr hstate

theorem Tab.Settles.upd (t : Tab Job) (j : Nat) {f : Job → Job}
    (hf : ∀ x, (f x).func = x.func ∧ ((f x).state = x.state ∨ (f x).state.abortable = false)) : Tab.Settles t (t.upd j f) := by
  intro k y hy
  rw [Tab.get?_upd] at hy
  split at hy
  · obtain ⟨x, hx, rfl⟩ := Option.map_eq_some_iff.mp hy
    exact ⟨x, hx, hf x⟩
  · exact ⟨y, hy, rfl, .inl rfl⟩

/-- The jobs of a function have all left the states in which they can be ended, but for those still listed. -/
def Tab.Quiet (t : Tab Job) (f : Fin 64) (l : List Nat) : Prop :=
  ∀ j x, t.get? j = some x → x.func = f → x.state.abortable = true → j ∈ l

theorem Tab.Quiet.settles {t u : Tab Job} {f : Fin 64} (h : Tab.Quiet t f []) (hs : Tab.Settles t u) : Tab.Quiet u f [] := by
  intro j y hy hfunc hab
  obtain ⟨x, hx, hfunc', hstate⟩ := hs j y hy
  obtain hstate | hstate := hstate
  · exact h j x hx (hfunc'.symm.trans hfunc) (hstate ▸ hab)
  · rw [hstate] at hab
    exact absurd hab Bool.false_ne_true

theorem State.refuseWaiting_settles (ses : Nat) : Tab.Settles s.crown.jobs (s.refuseWaiting ses).crown.jobs := by
  rw [State.refuseWaiting_jobs]
  exact List.foldlRecOn (motive := Tab.Settles s.crown.jobs) _ _ (.refl _) fun t ht j _ =>
    ht.trans (.upd t j fun _ => ⟨rfl, .inr rfl⟩)

theorem State.closeCheck_settles (ses : Nat) : Tab.Settles s.crown.jobs (s.closeCheck ses).crown.jobs := by
  obtain h | h := s.closeCheck_jobs ses
  · rw [h]
    exact .refl _
  · rw [h]
    exact State.refuseWaiting_settles ses

theorem State.jobWritten_settles (j : Nat) : Tab.Settles s.crown.jobs (s.jobWritten j).crown.jobs := by
  obtain h | ⟨x, t, st, h, -, -, hst, hjobs⟩ := s.jobWritten_cases j
  · rw [h]
    exact .refl _
  · rw [h]
    refine .trans ?_ (State.closeCheck_settles x.ses)
    rw [hjobs]
    exact .upd _ j fun _ => ⟨rfl, .inr hst⟩

theorem State.completeJob_settles (j : Nat) (c : Byte) : Tab.Settles s.crown.jobs (s.completeJob j c).crown.jobs := by
  unfold State.completeJob State.push
  dsimp only
  split
  · rw [State.pushPlain_crown]
    exact .refl _
  · exact State.jobWritten_settles j

theorem State.cleanup_settles (j : Nat) : Tab.Settles s.crown.jobs (s.cleanup j).crown.jobs := by
  refine Tab.Settles.trans ?_ (State.completeJob_settles j _)
  rw [State.releaseJob_jobs]
  exact Tab.Settles.upd s.crown.jobs j (f := Job.cleanedUp) fun _ => ⟨rfl, .inl rfl⟩

/-- An abort takes its job off the list. -/
theorem State.abortJob_quiet {f : Fin 64} {j : Nat} {l : List Nat} (c : Byte) (h : Tab.Quiet s.crown.jobs f (j :: l)) :
    Tab.Quiet (s.abortJob j c).crown.jobs f l := by
  by_cases hab : ∃ x, s.crown.jobs.get? j = some x ∧ x.state.abortable = true
  · obtain ⟨x, hx, ha⟩ := hab
    intro k y hy hfunc hk
    rw [State.abortJob_job c false hx ha, Tab.get?_upd] at hy
    split at hy
    · obtain ⟨z, -, rfl⟩ := Option.map_eq_some_iff.mp hy
      exact absurd hk Bool.false_ne_true
    · next hne => exact (List.mem_cons.mp (h k y hy hfunc hk)).resolve_left hne
  · have still : ∀ x, s.crown.jobs.get? j = some x → x.state.abortable = false :=
      fun x hx => Bool.eq_false_iff.mpr fun ha => hab ⟨x, hx, ha⟩
    rw [State.abortJob_none c false still]
    intro k y hy hfunc hk
    refine (List.mem_cons.mp (h k y hy hfunc hk)).resolve_left fun hkj => ?_
    rw [still y (hkj ▸ hy)] at hk
    exact Bool.false_ne_true hk

theorem State.abortJobs_quiet {f : Fin 64} {l : List Nat} (c : Byte) (h : Tab.Quiet s.crown.jobs f l) :
    Tab.Quiet (l.foldl (fun s j => s.abortJob j c) s).crown.jobs f [] := by
  induction l generalizing s with
  | nil => exact h
  | cons j l ih => exact ih (State.abortJob_quiet c h)

theorem State.jobsIn_quiet (f : Fin 64) : Tab.Quiet s.crown.jobs f (s.jobsIn fun j => j.func == f && j.state.abortable) := by
  intro j x hx hfunc ha
  have picked : (x.func == f && x.state.abortable) = true := by rw [hfunc, ha, beq_self_eq_true, Bool.and_true]
  exact List.mem_map.mpr ⟨(j, x), List.mem_filter.mpr ⟨Tab.mem_of_get? hx, picked⟩, rfl⟩
end

end Sys2Proof.Machine
end

section
/-! Power, the link's and the functions' resets (R275, R278, R293, R362, R363, R366, R368 to R370, R384). -/

namespace Sys2Proof.Machine

section
variable {s : State}

/-! ## Cold resets -/

theorem State.coldReset_ring (s : State) (b : BootState) (p : Power) : (s.coldReset b p).mon.ring = [] ∧ (s.coldReset b p).mon.queue = [] ∧
    (s.coldReset b p).mon.lost = 0 ∧ (s.coldReset b p).mon.next = 0 := ⟨rfl, rfl, rfl, rfl⟩

theorem execPerstNAssert_on (h : s.boot.state ≠ .off) : execPerstNAssert s = .next s.coldToRom := if_neg h

theorem execP1PowerUp_clocked (hp : s.power.p1 = false) (hr : s.power.refclk = true) : execP1PowerUp s =
    .next (s.coldReset .rom { s.power.cold with p1 := true, pwrgd := true, lock := true }) :=
  (if_neg (Bool.eq_false_iff.mp hp)).trans (congrArg Host.Outcome.next (if_pos hr))

theorem execP1PowerUp_waits (hp : s.power.p1 = false) (hr : s.power.refclk = false) : execP1PowerUp s =
    .next { s with power := { s.power with p1 := true } } :=
  (if_neg (Bool.eq_false_iff.mp hp)).trans (congrArg Host.Outcome.next (if_neg (Bool.eq_false_iff.mp hr)))

theorem execRefclk100Present_releases (hr : s.power.refclk = false) (hp : s.power.p1 = true) (hg : s.power.pwrgd = false) :
    execRefclk100Present s = .next (s.coldReset .rom { s.power.cold with refclk := true, pwrgd := true, lock := true }) :=
  (if_neg (Bool.eq_false_iff.mp hr)).trans (congrArg Host.Outcome.next (if_pos (by rw [hp, hg]; rfl)))

theorem execUndervoltageLockout_on (h : s.power.p1 = true) : execUndervoltageLockout s =
    .next (s.coldReset .off { s.power.cold with p1 := false, pwrgd := false, tripped := false }) := if_pos h

theorem execThermtrip_on (h : s.boot.state ≠ .off) : execThermtrip s =
    .next (s.coldReset .off { s.power.cold with tripped := true }) := if_neg h

/-! ## Resets of the link and of the PF -/

/-- What a reset of the link or of the PF leaves. -/
structure State.LinkReset (s t : State) : Prop where
  pages : ∀ f : Fin 64, t.mbx[f].en = false
  vacant : ∀ st : Fin 16, t.stations[st].Vacant
  net : t.net = []
  boot : t.boot = s.boot
  fuses : t.fuses = s.fuses
  flash : t.flash = s.flash
  bars : t.bars = ⟨1, 1⟩
  units : t.mon.units = s.mon.units
  mortar : t.mortar.Rests s.mortar.prog

/-- Every page is cleared. -/
def State.clearPages (s : State) : State := (List.finRange 64).foldl State.clearPage s

theorem State.clearPages_disables (g : Fin 64) : s.clearPages.mbx[g].en = false := State.clearPages_en (.inl (List.mem_finRange g))

theorem State.clearPages_touches : State.Keeps [.stations, .mem, .crown, .mbx, .hostOut, .mon] s s.clearPages := by
  unfold State.clearPages
  exact State.foldl_keeps fun _ _ => State.clearPage_touches

theorem State.clearPages_units : s.clearPages.mon.units = s.mon.units := by
  unfold State.clearPages
  generalize List.finRange 64 = l
  exact foldl_same (g := fun t => t.mon.units) (fun s f => State.clearPage_units f) l s

theorem State.linkReset_eq : s.linkReset = s.clearPages.warmCore.cfgReset.warmEnd := by rw [State.linkReset, State.clearPages]

/-- The end of a warm reset leaves the stations' tenure. -/
theorem State.warmEnd_tenure (st : Fin 16) : s.warmEnd.stations[st].tenure = s.stations[st].tenure := by
  have all : s.warmEnd.stations.map Station.tenure = s.stations.map Station.tenure := congrArg (fun x => x.2.1) s.warmEnd_footing
  have at_st := congrArg (fun v : Vector (Bool × Vector (List QEntry) 22 × Pantry) 16 => v[st]) all
  simpa using at_st

/-- What the end of a warm reset keeps of a reset of the link. -/
theorem State.LinkReset.warmEnd {t : State} (h : s.LinkReset t) : s.LinkReset t.warmEnd where
  pages f := (State.en_of_enables (State.enables_of_footing State.warmEnd_footing) f).trans (h.pages f)
  vacant st := (h.vacant st).of_tenure (State.warmEnd_tenure st)
  net := (State.warmEnd_keeps.same .net (by decide)).trans h.net
  boot := (State.warmEnd_keeps.same .boot (by decide)).trans h.boot
  fuses := (State.warmEnd_keeps.same .fuses (by decide)).trans h.fuses
  flash := (State.warmEnd_keeps.same .flash (by decide)).trans h.flash
  bars := (State.warmEnd_keeps.same .bars (by decide)).trans h.bars
  units := State.warmEnd_units.trans h.units
  mortar := by
    rw [State.warmEnd_keeps.same .mortar (by decide)]
    exact h.mortar

theorem State.warmCore_linkReset (h : ∀ f : Fin 64, s.mbx[f].en = false) : s.LinkReset s.warmCore.cfgReset := by
  obtain ⟨⟨henables, hrests⟩, hvacant, hnet, hunits⟩ := s.warmCore_leaves
  have boot : s.warmCore.boot = s.boot := State.warmCore_keeps.same .boot (by decide)
  have fuses : s.warmCore.fuses = s.fuses := State.warmCore_keeps.same .fuses (by decide)
  have flash : s.warmCore.flash = s.flash := State.warmCore_keeps.same .flash (by decide)
  have pages (f : Fin 64) : s.warmCore.mbx[f].en = false := (State.en_of_enables henables f).trans (h f)
  generalize s.warmCore = t at hrests hvacant hnet hunits boot fuses flash pages ⊢
  exact ⟨pages, hvacant, hnet, boot, fuses, flash, rfl, hunits, hrests⟩

theorem State.linkReset_leaves : s.LinkReset s.linkReset := by
  obtain ⟨hpages, hvacant, hnet, hboot, hfuses, hflash, hbars, hunits, hmortar⟩ :=
    (State.warmCore_linkReset (s := s.clearPages) State.clearPages_disables).warmEnd
  rw [State.clearPages_touches.same .boot (by decide)] at hboot
  rw [State.clearPages_touches.same .fuses (by decide)] at hfuses
  rw [State.clearPages_touches.same .flash (by decide)] at hflash
  rw [State.clearPages_touches.same .mortar (by decide)] at hmortar
  rw [State.linkReset_eq]
  exact ⟨hpages, hvacant, hnet, hboot, hfuses, hflash, hbars, hunits.trans State.clearPages_units, hmortar⟩

/-- A link reset after images have left the cache. -/
theorem State.dropCache_linkReset (f : Fin 64) : s.LinkReset (s.dropCache f).linkReset :=
  let ⟨hpages, hvacant, hnet, hboot, hfuses, hflash, hbars, hunits, hmortar⟩ := (s.dropCache f).linkReset_leaves
  ⟨hpages, hvacant, hnet, hboot, hfuses, hflash, hbars, hunits, hmortar⟩

theorem execHotReset_effect (hs : s.Specified) (hw : s.warmable = true) : execHotReset s = .next s.linkReset := occurs_of hs hw

theorem execFunctionLevelReset_pf (hs : s.Specified) (hw : s.warmable = true) :
    execFunctionLevelReset 0 s = .next (s.dropCache 0).linkReset := by
  rw [execFunctionLevelReset, if_pos rfl, occurs_of hs hw]

/-! ## The reset of a VF (R369, R370) -/

theorem execFunctionLevelReset_vf {f : Fin 64} (hs : s.Specified) (hw : s.warmable = true) (hf : f ≠ 0) :
    execFunctionLevelReset f s = .next (s.vfReset f) := by
  rw [execFunctionLevelReset, if_neg hf, occurs_of hs hw]

/-- The VF's jobs before their commit point are swapped to ABORTING. -/
def State.vfAborts (s : State) (f : Fin 64) : State :=
  (s.jobsIn fun j => j.func == f && j.state.abortable).foldl (fun s j => s.abortJob j Code.resetAborted) s

/-- The VF's aborted jobs are cleaned up. -/
def State.vfCleans (s : State) (f : Fin 64) : State :=
  (s.jobsIn fun j => j.func == f && j.state == .aborting && !j.cleaned).foldl State.cleanup s

/-- A VF's page is cleared, and its verifications end. -/
def State.vfBegins (s : State) (f : Fin 64) : State := (s.clearPage f).endVerifies fun v => (v.ref.map fun r => r.1.f == f).getD false

theorem State.vfReset_eq (f : Fin 64) : s.vfReset f = ((((s.vfBegins f).vfAborts f).vfCleans f).dropCache f).trained.msi f 2 := by
  rw [State.vfReset, State.vfCleans, State.vfAborts, State.vfBegins]

theorem State.vfAborts_enables (f : Fin 64) : (s.vfAborts f).enables = s.enables := by
  unfold State.vfAborts
  exact foldl_same (g := State.enables) (fun s j => State.abortJob_enables ..) _ s

theorem State.vfCleans_enables (f : Fin 64) : (s.vfCleans f).enables = s.enables := by
  unfold State.vfCleans
  exact foldl_same (g := State.enables) (fun s j => State.cleanup_enables j) _ s

theorem State.dropCache_enables (f : Fin 64) : (s.dropCache f).enables = s.enables := rfl

theorem State.trained_enables : s.trained.enables = s.enables := rfl

theorem State.msi_enables (f : Fin 64) (v : Nat) : (s.msi f v).enables = s.enables := State.enables_of_aside (s.msi_aside f v)

theorem State.vfReset_en (f g : Fin 64) : (s.vfReset f).mbx[g].en = if g = f then false else s.mbx[g].en := by
  have enables : (s.vfReset f).enables = (s.clearPage f).enables := by
    rw [State.vfReset_eq, State.msi_enables, State.trained_enables, State.dropCache_enables, State.vfCleans_enables,
      State.vfAborts_enables, State.vfBegins, State.endVerifies_enables]
  rw [State.en_of_enables enables, State.clearPage_en]

theorem State.vfCleans_settles (f : Fin 64) : Tab.Settles s.crown.jobs (s.vfCleans f).crown.jobs :=
  List.foldlRecOn (motive := fun t : State => Tab.Settles s.crown.jobs t.crown.jobs) _ _ (.refl _) fun _ ht j _ =>
    ht.trans (State.cleanup_settles j)

theorem State.dropCache_jobs (f : Fin 64) : (s.dropCache f).crown.jobs = s.crown.jobs := rfl

/-- No job of the VF goes on. -/
theorem State.vfReset_quiet (f : Fin 64) : Tab.Quiet (s.vfReset f).crown.jobs f [] := by
  have aborted : Tab.Quiet ((s.vfBegins f).vfAborts f).crown.jobs f [] := State.abortJobs_quiet Code.resetAborted (State.jobsIn_quiet f)
  rw [State.vfReset_eq, State.msi_crown, State.trained_keeps.same .crown (by decide), State.dropCache_jobs]
  exact aborted.settles (State.vfCleans_settles f)

theorem State.vfReset_units (f : Fin 64) : (s.vfReset f).mon.units = s.mon.units := by
  have aborts (t : State) : (t.vfAborts f).mon = t.mon := by
    unfold State.vfAborts
    exact foldl_same (g := State.mon) (fun s j => State.abortJob_mon ..) _ t
  have cleans (t : State) : (t.vfCleans f).mon = t.mon := by
    unfold State.vfCleans
    exact foldl_same (g := State.mon) (fun s j => State.cleanup_keeps.same .mon (by decide)) _ t
  rw [State.vfReset_eq, State.msi_mon, State.trained_keeps.same .mon (by decide), State.dropCache_keeps.same .mon (by decide), cleans, aborts,
    State.vfBegins, State.endVerifies_keeps.same .mon (by decide), State.clearPage_units]
end

/-- Settles O51: a reset of the link disables every page first, and no later step enables one; a VF's aborts leave none of its jobs
in a state that can still go on. -/
theorem resetsAndPower : Obligations.ResetsAndPower := by
  intro s
  dsimp only
  refine ⟨fun h => ?perst, fun hp hr => ⟨_, execP1PowerUp_clocked hp hr, rfl⟩, fun hp hr => execP1PowerUp_waits hp hr,
    fun hr hp hg => ⟨_, execRefclk100Present_releases hr hp hg, rfl⟩, fun h => ⟨_, execUndervoltageLockout_on h, rfl⟩,
    fun h => ⟨_, execThermtrip_on h, rfl⟩, fun hs hw => ⟨?link, fun f hf => ?vf⟩⟩
  case perst =>
    obtain ⟨hring, hqueue, hlost, hnext⟩ := s.coldReset_ring .rom s.power.cold
    exact ⟨_, execPerstNAssert_on h, rfl, hring, hqueue, hlost, hnext, rfl⟩
  case link =>
    intro c hc
    obtain ⟨t, he, h⟩ : ∃ t, exec c s = .next t ∧ s.LinkReset t := by
      obtain rfl | hc := List.mem_cons.mp hc
      · exact ⟨_, execHotReset_effect hs hw, State.linkReset_leaves⟩
      · obtain rfl := List.mem_singleton.mp hc
        exact ⟨_, execFunctionLevelReset_pf hs hw, State.dropCache_linkReset 0⟩
    obtain ⟨hpages, hvacant, hnet, hboot, hfuses, hflash, hbars, hunits, hprog, hqueue, hrunning, -⟩ := h
    exact ⟨t, he, hpages, fun st => ⟨(hvacant st).held, (hvacant st).mem, (hvacant st).queues⟩, hnet, hboot, hfuses, hflash, hbars, hunits,
      hprog, hqueue, hrunning⟩
  case vf =>
    refine ⟨_, execFunctionLevelReset_vf hs hw hf, (State.vfReset_en f f).trans (if_pos rfl),
      fun g hg => (State.vfReset_en f g).trans (if_neg hg), fun j x hx hfunc => ⟨fun hrun => ?_, fun hadm => ?_⟩,
      State.vfReset_keeps.same .boot (by decide), State.vfReset_keeps.same .fuses (by decide), State.vfReset_keeps.same .flash (by decide),
      State.vfReset_units f⟩
    · exact List.not_mem_nil (State.vfReset_quiet f j x hx hfunc (by rw [hrun]; rfl))
    · exact List.not_mem_nil (State.vfReset_quiet f j x hx hfunc (by rw [hadm]; rfl))

end Sys2Proof.Machine
end
